-- ==== Sys2Proof/Word.lean ====
section
/-! DEFINITION. The word types of the model: the byte, the multi-byte integers of a frame as they stand on the
link (their reading depends on a port's byte order, R155, and is given in Machine/Operands.lean), and the names of
the ports, streams, cursors and holds. -/

namespace Sys2Proof

/-- One byte of a frame, of a chunk, of an extent or of a trail entry's canonical form. -/
abbrev Byte := BitVec 8

/-- A 2-byte integer of a frame as the station sent it: the byte sent first, then the byte sent second (12.1).
Which of them is the more significant is decided by the byte order of the port (R155). -/
structure Wire16 where
  first : Byte
  second : Byte
  deriving DecidableEq, Repr

/-- A 4-byte integer of a frame as the station sent it, in the order sent (12.1, R155). -/
structure Wire32 where
  first : Byte
  second : Byte
  third : Byte
  fourth : Byte
  deriving DecidableEq, Repr

/-- A class entry as a LOAD CLASS ENTRIES body carries it: kind, include in check, next mode, hold (12.2). -/
structure WireClassEntry where
  kind : Byte
  includeInCheck : Byte
  nextMode : Byte
  hold : Byte
  deriving DecidableEq, Repr

/-- Station ports 0–3 (10.1). -/
abbrev PortId := Fin 4
/-- Ingest streams 0–11 (2.1). -/
abbrev StreamId := Fin 12
/-- Read cursors 0–15 (8.1). -/
abbrev CursorId := Fin 16

end Sys2Proof
end

