-- ==== Sys2Proof/Config.lean ====
section
/-! DEFINITION. What one part fixes and the spec leaves open, and the sizes the spec gives. -/

namespace Sys2Proof.Config

/-- The revision number of the part, 0–255 (12.1: "the revision number is that of the part"). The spec gives no
value, so nothing is known of it: a free value. DESIGN CHOICE (log entry 1), safe. -/
opaque revisionNumber : Byte

/-- The part code (12.1). -/
abbrev partCode : Nat := 4800
/-- Segments, and extents, of the segment store (1.1, 1.3). -/
abbrev segmentNumbers : Nat := 262144
/-- Entries of the File Table (1.2). -/
abbrev fileEntries : Nat := 131072
/-- Bytes of one extent (1.1). -/
abbrev extentBytes : Nat := 1048576
/-- Bytes of a segment header (12.4). -/
abbrev headerBytes : Nat := 64
/-- The largest payload of a segment (R82). -/
abbrev payloadLimit : Nat := 1048512
/-- The most records of a segment (R82). -/
abbrev segmentRecordLimit : Nat := 32768
/-- The most segments of a chain (R6). -/
abbrev chainLimit : Nat := 512
/-- The most accepted records of a file (R66). -/
abbrev fileRecordLimit : Nat := 16777215
/-- The value at which rejected counts saturate (R66). -/
abbrev rejectedLimit : Nat := 4294967295
/-- The value at which duration totals saturate (R3, R37). -/
abbrev durationLimit : Nat := 999999999999999
/-- The largest check value (R52). -/
abbrev checkLimit : Nat := 4294049520
/-- The largest duration of one record in tenths (R63). -/
abbrev recordDurationLimit : Nat := 99999999
/-- The last second of the archive clock (4.3). -/
abbrev clockLimit : Nat := 4294943999
/-- The largest file day (1.2). -/
abbrev lastDay : Nat := 49709
/-- Seconds of a day (4.3). -/
abbrev daySeconds : Nat := 86400
/-- The largest switch id (1.2). -/
abbrev lastSwitch : Nat := 1023
/-- Record entries the Staging Queue holds (R68). -/
abbrev stagingRecords : Nat := 256
/-- Completion Queue entries in all, and of one port (R41). -/
abbrev completionEntries : Nat := 64
abbrev completionEntriesOfPort : Nat := 32
/-- Findings the Finding Log holds, and the places a visit reserves (R110, R123). -/
abbrev findingEntries : Nat := 32
abbrev visitPlaces : Nat := 3
/-- Entries the Audit Trail holds (R128). -/
abbrev trailEntries : Nat := 128
/-- Outstanding requests of one port (R154). -/
abbrev outstandingRequests : Nat := 8
/-- Bytes one chunk carries, which is also the size of a chunk buffer (R26). -/
abbrev chunkLimit : Nat := 16384
/-- The modulus of the dual-sum (R52). -/
abbrev dualSumModulus : Nat := 65521
/-- The largest retention in days (R90). -/
abbrev retentionLimit : Nat := 16383
/-- Billable seconds are clamped at this value (R141). -/
abbrev billableLimit : Nat := 1048575

end Sys2Proof.Config
end

