-- ==== Sys2Proof/Syntax.lean ====
section
/-! DEFINITION. The commands of the SX-4800: one constructor for each row of spec/opcode_table.json, in the table's
order. A request carries its port, its tag and the fields of its body as they stand on the link (12.2): a 2- or
4-byte integer is read in the port's byte order when the frame arrives (R155), an enumeration or yes/no byte is
judged by its owning block (R168). -/

namespace Sys2Proof

/-- How the Store Port ends a read (R87, R88). `complete altered` hands over the bytes of the extent: those last
written, but for the bytes listed in `altered` (offset in the extent, byte delivered), where the medium has decayed
or been overwritten (chapter 6). The medium's internal construction is outside the manual (00_scope 3). -/
inductive ReadReport where
  | error
  | complete (altered : List (Nat × Byte))
  deriving DecidableEq, Repr

/-- One command of the table. -/
inductive Instr where
  -- requests of a station (10.2)
  | openFile (port : PortId) (tag : Byte) (switchId sequence fileDay : Wire16) (retentionClass profile : Byte)
  | ingestChunk (port : PortId) (tag : Byte) (stream final nextMode : Byte) (chunk : List Byte)
  | resumeStream (port : PortId) (tag : Byte) (stream present kind includeInCheck nextMode hold : Byte)
  | abortStream (port : PortId) (tag : Byte) (stream : Byte)
  | openCursor (port : PortId) (tag : Byte) (switchId sequence : Wire16) (present : Byte) (start : Wire32)
  | fetchRecords (port : PortId) (tag : Byte) (cursor : Byte) (count : Wire16)
  | closeCursor (port : PortId) (tag : Byte) (cursor : Byte)
  | fetchFindings (port : PortId) (tag : Byte)
  | fetchTrail (port : PortId) (tag : Byte)
  | ackTrail (port : PortId) (tag : Byte) (sequence : Wire32)
  | setSweepSettings (port : PortId) (tag : Byte) (window rest : Wire16) (freeze : Byte)
  | startSweep (port : PortId) (tag : Byte)
  | stopSweep (port : PortId) (tag : Byte)
  | stepSweep (port : PortId) (tag : Byte)
  | restartSweep (port : PortId) (tag : Byte)
  | loadClassEntries (port : PortId) (tag : Byte) (profile mode firstByte : Byte) (count : Wire16)
      (entries : List WireClassEntry)
  | loadFieldMap (port : PortId) (tag : Byte) (profile : Byte) (targets : List Byte) (rounding overflow : Byte)
  | setRetention (port : PortId) (tag : Byte) (retentionClass : Byte) (days : Wire16)
  | placeHold (port : PortId) (tag : Byte) (selector firstDay lastDay : Wire16) (labelPresent labelLength : Byte)
      (label : List Byte)
  | releaseHold (port : PortId) (tag : Byte) (hold : Byte)
  | expireNow (port : PortId) (tag : Byte)
  | pauseExpiry (port : PortId) (tag : Byte)
  | resumeExpiry (port : PortId) (tag : Byte)
  | clearDispute (port : PortId) (tag : Byte) (switchId sequence : Wire16)
  | acceptLoss (port : PortId) (tag : Byte) (switchId sequence : Wire16)
  | setClock (port : PortId) (tag : Byte) (value : Wire32)
  | setRoles (port : PortId) (tag : Byte) (target roles : Byte)
  | setPortSettings (port : PortId) (tag : Byte) (target byteOrder streamTimeout cursorTimeout : Byte)
  | moduleReset (port : PortId) (tag : Byte)
  | fileInfo (port : PortId) (tag : Byte) (switchId sequence : Wire16)
  | listFiles (port : PortId) (tag : Byte) (selector firstDay lastDay : Wire16) (states : Byte) (start : Wire32)
      (count : Byte)
  | segmentInfo (port : PortId) (tag : Byte) (segment : Wire32)
  | fetchCompletions (port : PortId) (tag : Byte)
  | partStatus (port : PortId) (tag : Byte)
  -- frames that are no request the controller knows (R153, R168)
  | unknownRequestFrame (port : PortId) (tag kind : Byte) (length : Wire16) (body : List Byte)
  | damagedFrameDiscarded (port : PortId) (frame : List Byte)
  -- the link layer, the reset input and the supply (R153, R165)
  | linkLoss (port : PortId)
  | linkReset (port : PortId)
  | linkEstablished (port : PortId)
  | resetInputAsserted (microseconds : Nat)
  | resetInputReleased
  | powerOn
  | startupCleanup
  -- the Day Clock (R147, R151); `half` says that at least half an internal second has passed since the last tick
  | referencePulse (half : Bool)
  | internalSecond
  | streamCountdownExpiry (stream : StreamId)
  | cursorIdleExpiry (cursor : CursorId)
  | sweepRestExpiry
  -- the Ingest Engine and the Segment Encoder
  | streamByte (stream : StreamId)
  | blockedStreamResumed
  | completionWaitServed
  | encoderTakeHead
  | storeFullWaitRetry
  | imageWaitEnd
  | storeWriteComplete
  | storeWriteError (left : List Byte)
  | closeAcknowledgement (stream : StreamId)
  | closingStreamTrailRetry (stream : StreamId)
  | abortReached (stream : StreamId)
  -- the sweep, the retrieval reads, the expiry pass
  | sweepLook
  | sweepLogRoom
  | sweepReadComplete (report : ReadReport)
  | retrievalReadComplete (report : ReadReport)
  | passVisit
  | passTrailRetry
  | powerLoss
  deriving DecidableEq, Repr

end Sys2Proof
end

