-- ==== Sys2Proof/Machine/State.lean ====
section
/-! DEFINITION. The state of the SX-4800, block by block, as plain data, with the values right after the first-ever
power-on (`State.reset`), and the reasons for which a step could stop. INVENTORY.md lists every field with its rule. -/

namespace Sys2Proof.Machine

/-! ## Sparse tables -/

/-- A table of many entries as the list of those that differ from the entry every other key holds, keys strictly
rising. Machine/Ops.lean reads and writes it and says when it is in that form. -/
abbrev Sparse (α : Type) := List (Nat × α)

/-! ## Enumerations and sets (12.1) -/

inductive ByteOrder where
  | big | little
  deriving DecidableEq, Repr

/-- A role set: any subset of INGEST, RETRIEVE, AUDIT, ADMIN (1.2, R160). -/
structure RoleSet where
  ingest : Bool
  retrieve : Bool
  audit : Bool
  admin : Bool
  deriving DecidableEq, Repr

inductive Rounding where
  | truncate | up | nearest
  deriving DecidableEq, Repr

inductive OverflowKey where
  | reject | clamp
  deriving DecidableEq, Repr

inductive ClassKind where
  | data | separator | recordEnd | skip | trailerStart | illegal
  deriving DecidableEq, Repr

inductive FieldTarget where
  | startEpoch | startClock | duration | calling | called | trunkIn | trunkOut | cause | service | ignore
  deriving DecidableEq, Repr

inductive FileState where
  | ingesting | accepted | disputed | expiring
  deriving DecidableEq, Repr

inductive SegmentState where
  | free | filling | stored | suspect
  deriving DecidableEq, Repr

/-- The dispute reasons of R39, as a set. -/
structure DisputeReasons where
  count : Bool := false
  duration : Bool := false
  check : Bool := false
  noTrailer : Bool := false
  trailerBad : Bool := false
  rejects : Bool := false
  deriving DecidableEq, Repr

/-- Why a record was rejected (R41, R66). -/
inductive RejectReason where
  | format | overflow | illegalByte | missingField | truncated | fileLimit
  deriving DecidableEq, Repr

inductive ClockState where
  | unset | reference | holdover
  deriving DecidableEq, Repr

/-- A countdown of the Day Clock (R151): stopped, running with the seconds left, or at 0 with its expiry reported to
the owner and not yet taken by it (the *_EXPIRY rows of the table are the taking). -/
inductive Countdown where
  | stopped
  | running (left : Nat)
  | due
  deriving DecidableEq, Repr

/-- The two-accumulator check of R52; fresh it is A = 1, B = 0. -/
structure DualSum where
  a : Nat := 1
  b : Nat := 0
  deriving DecidableEq, Repr

/-! ## The catalogue (chapter 1) -/

/-- The three numbers of a well-formed trailer (R39, R59). -/
structure Trailer where
  count : Nat
  duration : Nat
  check : Nat
  deriving DecidableEq, Repr

/-- A held File Table entry (1.2); its file index is its key. -/
structure File where
  switchId : Nat
  sequence : Nat
  fileDay : Nat
  retentionClass : Nat
  profile : Nat
  rounding : Rounding
  overflow : OverflowKey
  state : FileState
  firstSegment : Option Nat := none
  lastSegment : Option Nat := none
  segmentCount : Nat := 0
  recordCount : Nat := 0
  rejectedCount : Nat := 0
  durationTotal : Nat := 0
  trailer : Option Trailer := none
  reasons : DisputeReasons := {}
  suspectCount : Nat := 0
  lossAccepted : Bool := false
  pinCount : Nat := 0
  openingPort : PortId
  acceptedAt : Option Nat := none
  deriving DecidableEq, Repr

/-- What a finished segment holds (1.3, R84). -/
structure Figures where
  recordCount : Nat := 0
  durationSum : Nat := 0
  encodedLength : Nat := 0
  check : Nat := 0
  baseTime : Nat := 0
  deriving DecidableEq, Repr

/-- A Segment Catalogue entry (1.3); the defaults are a FREE segment never allocated. -/
structure Segment where
  state : SegmentState := .free
  allocation : Nat := 0
  fileIndex : Nat := 0
  ordinal : Nat := 0
  next : Option Nat := none
  figures : Figures := {}
  unreported : Bool := false
  deriving DecidableEq, Repr

/-- A Switch Table entry (1.7). -/
structure SwitchEntry where
  expected : Option Nat := none
  fileCount : Nat := 0
  deriving DecidableEq, Repr

/-! ## Records, profiles and streams (chapters 2 and 3) -/

/-- A normalised call record (R67). -/
structure CallRecord where
  start : Nat := 0
  duration : Nat := 0
  calling : List Nat := []
  called : List Nat := []
  trunkIn : Option Nat := none
  trunkOut : Option Nat := none
  cause : Option Nat := none
  service : Nat := 0
  clamped : Bool := false
  deriving DecidableEq, Repr

/-- What one byte value does when it is met in one mode (3.1). -/
structure ClassEntry where
  kind : ClassKind := .illegal
  includeInCheck : Bool := false
  nextMode : Nat := 0
  hold : Bool := false
  deriving DecidableEq, Repr

/-- An ingest profile (3.1); class entries are keyed by mode × 256 + byte value, the first-ever entry unlisted. -/
structure Profile where
  classes : Sparse ClassEntry := []
  map : Vector FieldTarget 16 := Vector.replicate 16 .ignore
  rounding : Rounding := .truncate
  overflow : OverflowKey := .reject
  deriving DecidableEq, Repr

inductive StreamState where
  | idle | running | starved | held | blocked | posting | closing | aborting
  deriving DecidableEq, Repr

inductive Phase where
  | record | trailer | afterTrailer
  deriving DecidableEq, Repr

inductive AbortCause where
  | request | timeout | portReset | roleWithdrawn
  deriving DecidableEq, Repr

/-- The text of one column and its long flag (3.2). -/
structure FieldText where
  bytes : List Byte := []
  long : Bool := false
  deriving DecidableEq, Repr

/-- The record under construction (3.2, R50); no current column is the column BEYOND. -/
structure RecordBuild where
  column : Option (Fin 16) := some 0
  texts : Vector FieldText 16 := Vector.replicate 16 {}
  begun : Bool := false
  deriving DecidableEq, Repr

/-- The trailer under construction (3.2, R58). -/
structure TrailerBuild where
  field : Nat := 1
  text1 : List Byte := []
  text2 : List Byte := []
  text3 : List Byte := []
  bad : Bool := false
  deriving DecidableEq, Repr

/-- A chunk buffer: its fill count is the number of its bytes (2.3). -/
structure Buffer where
  bytes : List Byte := []
  consumed : Nat := 0
  final : Bool := false
  nextMode : Option Nat := none
  deriving DecidableEq, Repr

/-- One of a stream's two buffers. -/
inductive BufferName where
  | principal | alternate
  deriving DecidableEq, Repr

structure HeldByte where
  value : Byte
  substitute : Option ClassEntry := none
  deriving DecidableEq, Repr

/-- What a completion entry reports (2.9). -/
inductive CompletionDetail where
  | sequenceGap (expected received : Nat)
  | mark (value : Byte) (mode : Nat) (entry : ClassEntry)
  | recordRejected (ordinal : Nat) (reason : RejectReason)
  | storeFull
  | closedClean (accepted rejected duration : Nat)
  | closedDisputed (reasons : DisputeReasons) (accepted rejected duration : Nat) (trailer : Option Trailer)
  | timeout
  /-- `portReset` as the cause is PORT_RESET, otherwise REQUEST. -/
  | aborted (portReset : Bool)
  deriving DecidableEq, Repr

/-- A Completion Queue entry (2.9). -/
structure Completion where
  port : PortId
  stream : StreamId
  switchId : Nat
  sequence : Nat
  detail : CompletionDetail
  deriving DecidableEq, Repr

/-- What a stream does once its pending post is made (R41): the state carried with the post, or the rest of the end
of input (R38) or the reconciliation (R75). `idle` is the state after a closing entry: such a stream is settled. -/
inductive AfterPost where
  | running | starved | held | idle | endOfInput | reconcile
  deriving DecidableEq, Repr

structure PendingPost where
  detail : CompletionDetail
  after : AfterPost
  deriving DecidableEq, Repr

/-- A stream context (2.1); the defaults are the values while IDLE. -/
structure Stream where
  state : StreamState := .idle
  owner : Option PortId := none
  fileIndex : Option Nat := none
  switchId : Option Nat := none
  sequence : Option Nat := none
  profile : Option (Fin 4) := none
  mode : Nat := 0
  principal : Buffer := {}
  alternate : Buffer := {}
  fillNext : BufferName := .principal
  consumeNext : BufferName := .principal
  finalReceived : Bool := false
  phase : Phase := .record
  record : RecordBuild := {}
  skip : Bool := false
  dualSum : DualSum := {}
  accepted : Nat := 0
  rejected : Nat := 0
  duration : Nat := 0
  trailerBuild : TrailerBuild := {}
  /-- The values of a trailer that closed well-formed (R59), held until reconciliation. -/
  trailer : Option Trailer := none
  heldByte : Option HeldByte := none
  ready : Option CallRecord := none
  firstRejectPosted : Bool := false
  countdown : Countdown := .stopped
  pending : Option PendingPost := none
  storeFullNotice : Bool := false
  abortCause : Option AbortCause := none
  abortAfterClose : Bool := false
  /-- The dispute reasons of a verdict already formed, while the stream is CLOSING and waits for trail room (R40). -/
  verdict : Option DisputeReasons := none
  deriving DecidableEq, Repr

/-- A member of the wait list of R42: a stream in POSTING, or a store-full notice (R43). -/
inductive WaitItem where
  | post (stream : StreamId)
  | notice (stream : StreamId)
  deriving DecidableEq, Repr

/-! ## Staging Queue, Segment Encoder and Store Port (chapter 4) -/

/-- An entry of the Staging Queue (4.1). -/
inductive StagingEntry where
  | record (stream : StreamId) (record : CallRecord)
  | close (stream : StreamId)
  | abort (stream : StreamId)
  deriving DecidableEq, Repr

structure Filling where
  segment : Nat
  allocation : Nat
  ordinal : Nat
  deriving DecidableEq, Repr

/-- The previous record, against which the next is encoded (4.4). -/
structure Previous where
  start : Nat
  calling : List Nat := []
  called : List Nat := []
  deriving DecidableEq, Repr

/-- A finished segment until its store write completes (4.2): WAITING for the Store Port, or WRITING. -/
structure WriteImage where
  segment : Nat
  allocation : Nat
  header : List Byte
  payload : List Byte
  figures : Figures
  writing : Bool
  deriving DecidableEq, Repr

/-- Where the removal of a stream's file asked for at its ABORT marker stands (R4, R77): not asked for, held by the
Catalogue Controller for a write in flight, or answered DONE and not yet told to the stream. -/
inductive Removal where
  | none | held | done
  deriving DecidableEq, Repr

/-- The encoding context of one stream (4.2) with its assembly area. -/
structure Encoding where
  filling : Option Filling := none
  previous : Option Previous := none
  recordCount : Nat := 0
  durationSum : Nat := 0
  dualSum : DualSum := {}
  baseTime : Nat := 0
  /-- The encoded payload in the assembly area; its length is the running encoded length. -/
  payload : List Byte := []
  image : Option WriteImage := none
  closePending : Bool := false
  chainFull : Bool := false
  discardedCount : Nat := 0
  discardedDuration : Nat := 0
  storeFullNotified : Bool := false
  removal : Removal := .none
  deriving DecidableEq, Repr

/-- Why the head of the Staging Queue waits (4.3): for a free segment, for the write image, or, `abandoned`, only for the
Encoder's next look, since the waiting record's CLOSING stream has begun an abort meanwhile (R71). -/
inductive HeadWait where
  | storeFull | image | abandoned
  deriving DecidableEq, Repr

/-- The operation in progress at the Store Port, with the extent it names (R87). A retrieval read is no longer live
once its fetch was abandoned (R144): its report is then discarded. -/
inductive StoreOp where
  | write (stream : StreamId) (segment : Nat)
  | read (cursor : CursorId) (segment : Nat) (live : Bool)
  | sweep (segment : Nat)
  deriving DecidableEq, Repr

/-- The Store Port: the operation in progress and the operations waiting, oldest first in each class (R87). -/
structure StorePort where
  current : Option StoreOp := none
  writes : List (StreamId × Nat) := []
  reads : List (CursorId × Nat) := []
  sweep : Option Nat := none
  deriving DecidableEq, Repr

/-! ## Retention (chapter 5) -/

/-- A Hold Table entry (5.3); the defaults are the first-ever values; no selector is ALL. -/
structure Hold where
  active : Bool := false
  selector : Option Nat := none
  firstDay : Nat := 0
  lastDay : Nat := 0
  placingPort : PortId := 0
  label : Option (List Byte) := none
  deriving DecidableEq, Repr

inductive PassState where
  | idle | walking | paused | waitingTrail
  deriving DecidableEq, Repr

/-- The expiry pass (5.4). -/
structure Pass where
  state : PassState := .idle
  position : Nat := 0
  paused : Bool := false
  again : Bool := false
  deriving DecidableEq, Repr

/-! ## Audit sweep and findings (chapter 6) -/

inductive SweepState where
  | stopped | active | resting | frozen | waitingLog
  deriving DecidableEq, Repr

/-- Paced, or asked for by a STEP SWEEP of a port under a tag (R121). -/
inductive VisitKind where
  | paced
  | step (port : PortId) (tag : Byte)
  deriving DecidableEq, Repr

/-- A visit in flight (6.1). `restarted`: RESTART SWEEP has set the position while it was in flight (R117, R122). -/
structure Visit where
  segment : Nat
  allocation : Nat
  fileIndex : Nat
  kind : VisitKind
  restarted : Bool := false
  deriving DecidableEq, Repr

/-- The sweep's working state (6.1). -/
structure Sweep where
  state : SweepState := .stopped
  position : Nat := 0
  cycles : Nat := 0
  visitsLeft : Nat := 0
  rest : Countdown := .stopped
  visit : Option Visit := none
  reserved : Nat := 0
  deriving DecidableEq, Repr

inductive FindingKind where
  | checkMismatch | countMismatch | durationMismatch | malformed | readError | writeError
  deriving DecidableEq, Repr

inductive FindingSource where
  | sweep | retrieval | encoder
  deriving DecidableEq, Repr

/-- A finding (6.6); `values` is the stored and the found value. -/
structure Finding where
  kind : FindingKind
  source : FindingSource
  segment : Nat
  fileIndex : Nat
  switchId : Nat
  sequence : Nat
  clock : Nat
  values : Option (Nat × Nat) := none
  deriving DecidableEq, Repr

/-! ## The Audit Trail (chapter 7) -/

inductive TrailKind where
  | fileAccepted | fileExpired | holdPlaced | holdReleased | disputeCleared | quarantineSet | quarantineCleared
  | lossAccepted | clockSet | retentionChanged | rolesChanged
  deriving DecidableEq, Repr

/-- The subject of a trail entry (R127). -/
inductive Subject where
  | file (switchId sequence fileIndex : Nat) (detail : DisputeReasons)
  | index (n : Nat)
  | clock (old new : Nat)
  | roles (port : PortId) (roles : RoleSet)
  deriving DecidableEq, Repr

/-- A trail entry (7.1); no port is "controller". -/
structure TrailEntry where
  sequence : Nat
  clock : Nat
  kind : TrailKind
  port : Option PortId
  subject : Subject
  value : Nat
  chain : Nat
  deriving DecidableEq, Repr

/-- The Audit Trail (7.1), oldest entry first; the defaults are first-ever. -/
structure Trail where
  entries : List TrailEntry := []
  nextSequence : Nat := 0
  lastChain : Nat := 1
  baseChain : Nat := 1
  deriving DecidableEq, Repr

/-! ## Retrieval cursors (chapter 8) -/

/-- A record gathered for a reply (R141). -/
structure Delivered where
  ordinal : Nat
  record : CallRecord
  billable : Nat
  suspect : Bool
  billableClamped : Bool
  deriving DecidableEq, Repr

/-- The FETCH RECORDS being served, with its tag, its limit and the records gathered so far (R137). -/
structure Fetch where
  tag : Byte
  limit : Nat
  gathered : List Delivered := []
  deriving DecidableEq, Repr

/-- A read asked for at the Store Port, with the allocation count noted (R138); WAITING, or READING. -/
structure CursorRead where
  segment : Nat
  allocation : Nat
  reading : Bool
  deriving DecidableEq, Repr

/-- A read cursor (8.1); the defaults are the values while FREE. -/
structure Cursor where
  isOpen : Bool := false
  owner : Option PortId := none
  fileIndex : Option Nat := none
  segment : Option Nat := none
  within : Nat := 0
  nextOrdinal : Nat := 0
  loaded : Option (List CallRecord) := none
  fetch : Option Fetch := none
  read : Option CursorRead := none
  idle : Countdown := .stopped
  deriving DecidableEq, Repr

/-! ## Day Clock (chapter 9) -/

/-- The Day Clock (9.1); the defaults are the values after power-on. The internal seconds since the last tick stand at 2
from the loss of the reference on, until a pulse: from then on each second is a tick. DEDUCED (log entry 11). -/
structure Clock where
  value : Nat := 0
  state : ClockState := .unset
  referencePresent : Bool := false
  internalSeconds : Nat := 0
  atLimit : Bool := false
  deriving DecidableEq, Repr

/-! ## Stored settings (chapter 11) -/

/-- The stored settings of one port (10.1), first-ever. -/
structure PortSettings where
  roles : RoleSet := ⟨true, true, true, true⟩
  byteOrder : ByteOrder := .little
  streamTimeout : Nat := 29
  cursorTimeout : Nat := 29
  deriving DecidableEq, Repr

/-- The Settings Area (11.1), first-ever. -/
structure Settings where
  ports : Vector PortSettings 4 := Vector.replicate 4 {}
  profiles : Vector Profile 4 := Vector.replicate 4 {}
  retention : Vector Nat 8 := Vector.replicate 8 0
  window : Nat := 256
  rest : Nat := 60
  freeze : Bool := false
  deriving DecidableEq, Repr

/-! ## Station ports and replies (chapters 10 and 12) -/

/-- An OPEN FILE whose new-entry request is outstanding, with the stream reserved for it (R24, R158). -/
structure OpeningFile where
  switchId : Nat
  sequence : Nat
  fileDay : Nat
  retentionClass : Nat
  profile : Fin 4
  stream : StreamId
  deriving DecidableEq, Repr

/-- An OPEN CURSOR whose pin request is outstanding, with the cursor reserved for it (R135, R158). -/
structure OpeningCursor where
  switchId : Nat
  sequence : Nat
  start : Nat
  cursor : CursorId
  deriving DecidableEq, Repr

/-- What an OPEN FILE or an OPEN CURSOR asks of the catalogue. -/
inductive OpeningRequest where
  | file (request : OpeningFile)
  | cursor (request : OpeningCursor)
  deriving DecidableEq, Repr

/-- A new-entry or pin request outstanding in the catalogue (R24, R135), with the port that asked it; `tag` is that of the
request its answer answers, none once a port reset has discarded that request (R158). -/
structure Opening where
  port : PortId
  tag : Option Byte
  request : OpeningRequest
  deriving DecidableEq, Repr

/-- Where an outstanding request stands: waiting on the store; a fetch whose reply is formed and not sent, so that it is
still in progress (8.3, R137); held untaken behind an earlier request of the port that names the same cursor (R156), with
the numbers read at its arrival (R155); waiting on the catalogue, its request among the openings (R158); or another
request answered, its reply not yet left (R154, R157). -/
inductive Standing where
  | fetching (cursor : CursorId)
  | delivering (cursor : CursorId)
  | stepping
  | heldFetch (cursor : CursorId) (count : Nat)
  | heldClose (cursor : CursorId)
  | opening
  | answered
  deriving DecidableEq, Repr

/-- An entry of a port's outstanding-request table (R154). -/
structure Outstanding where
  tag : Byte
  standing : Standing
  deriving DecidableEq, Repr

/-- The reply statuses of 12.2. -/
inductive Status where
  | ok | atEnd | segmentDamaged
  | portBusy | badRequest | notReady | notPermitted | wrongState
  | clockUnset | fileDayFuture | alreadyExpired | duplicateFile | tableFull | noFreeStream | noStream | notOwner
  | afterFinal | buffersFull
  | noFile | fileNotReady | fileExpiring | noFreeCursor | noCursor
  | noFreeHold | trailFull | logFull | badSequence | lastAdmin
  deriving DecidableEq, Repr

/-- A reference of a LIST FILES reply (R19). -/
structure FileReference where
  fileIndex : Nat
  switchId : Nat
  sequence : Nat
  fileDay : Nat
  state : FileState
  deriving DecidableEq, Repr

/-- The outcome of a STEP SWEEP (R121). -/
inductive StepOutcome where
  | none | clean | damaged | discarded
  deriving DecidableEq, Repr

inductive ControllerState where
  | starting | ready
  deriving DecidableEq, Repr

/-- The module alarms (R159). -/
structure Alarms where
  storeFull : Bool
  clockUnset : Bool
  holdover : Bool
  atLimit : Bool
  deriving DecidableEq, Repr

/-- The snapshot of PART STATUS (R162), in the order of its table. -/
structure PartStatus where
  partCode : Nat
  revision : Byte
  controller : ControllerState
  ports : List (Bool × PortSettings)
  requester : PortId
  alarms : Alarms
  clock : Clock
  filesHeld : Nat
  freeSegments : Nat
  streamsBusy : Nat
  stagingRecords : Nat
  completions : Nat
  completionsOfPort : Nat
  retention : List Nat
  activeHolds : Nat
  holds : List Hold
  pass : Pass
  sweepState : SweepState
  sweepPosition : Nat
  cycles : Nat
  visit : Option Nat
  findings : Nat
  window : Nat
  rest : Nat
  freeze : Bool
  trailHeld : Nat
  trailNext : Nat
  openCursors : Nat
  deriving DecidableEq, Repr

/-- What the body of a reply carries (12.3, R169); Machine/Formats.lean writes it as bytes. -/
inductive ReplyBody where
  | empty
  | opened (stream : StreamId) (fileIndex : Nat)
  | cursorOpened (cursor : CursorId) (state : FileState) (rounding : Rounding) (fileIndex recordCount nextOrdinal : Nat)
  | records (delivered : List Delivered) (skipped nextOrdinal : Nat)
  | completions (entries : List Completion) (remaining : Nat)
  | findings (entries : List Finding) (remaining : Nat)
  | trail (entries : List TrailEntry) (held baseChain : Nat)
  | acknowledged (removed held : Nat)
  | stepped (outcome : StepOutcome) (findings : Nat) (segment : Nat)
  | files (references : List FileReference) (continuation : Option Nat)
  | fileInfo (fileIndex : Nat) (file : File) (fileCount : Nat) (expected expireDay : Option Nat)
  | segmentInfo (segment : Segment) (switchId sequence : Nat)
  | sweepSettings (window rest : Nat) (freeze : Bool)
  | retentionSet (days : Nat)
  | holdPlaced (hold : Nat)
  | expireOutcome (again : Bool)
  | clockSet (old new : Nat) (state : ClockState)
  | status (snapshot : PartStatus)
  deriving DecidableEq, Repr

/-- A reply frame (10.2), with the byte order that stood when it was formed (R155). -/
structure Reply where
  port : PortId
  tag : Byte
  status : Status
  order : ByteOrder
  body : ReplyBody
  deriving DecidableEq, Repr

/-- Whether a reply is that of a FETCH RECORDS sent with a tag, its records gathered (R137). -/
def Reply.fetched (r : Reply) (tag : Byte) : Bool :=
  r.tag = tag && match r.body with | .records .. => true | _ => false

/-- The volatile state of a station port (10.1): its link, its outstanding-request table, and the replies formed that have
not left (R157). `lineBusy` is the model's own free value: whether a reply formed now waits behind an earlier frame on the
line (DESIGN CHOICE, log entry 31). -/
structure PortState where
  up : Bool := false
  outstanding : List Outstanding := []
  unsent : List Reply := []
  lineBusy : Bool := false
  deriving DecidableEq, Repr

/-! ## The whole machine -/

/-- The state of the module. -/
structure State where
  /-- The commands waiting to be taken, first in, first out (the model's own). -/
  pending : List Instr := []
  /-- The supply is on (R165, POWER_LOSS). -/
  powered : Bool := true
  controller : ControllerState := .starting
  /-- The reset input has been held low for at least 10 µs and has not returned high (R165). -/
  resetLow : Bool := false
  /-- The first-ever initialisation has been completed (R163); non-volatile. -/
  initialised : Bool := false
  settings : Settings := {}
  ports : Vector PortState 4 := Vector.replicate 4 {}
  /-- Whether a new-entry or pin request asked now is left outstanding by its step (the model's own free value: DESIGN
  CHOICE, log entry 31). -/
  catalogueBusy : Bool := false
  /-- The new-entry and pin requests outstanding in the catalogue, in the order they were asked (R24, R135, R158). -/
  openings : List Opening := []
  /-- Every reply frame that has left a port, oldest first (the model's own record of the links' output). -/
  replies : List Reply := []
  files : Sparse (Option File) := []
  segments : Sparse Segment := []
  /-- The Free Segment List as runs (first number, length), head first. -/
  freeList : List (Nat × Nat) := [(0, Config.segmentNumbers)]
  switches : Sparse SwitchEntry := []
  /-- The contents of the segment store: byte at extent × 1,048,576 + offset. -/
  store : List Host.Cell := []
  streams : Vector Stream 12 := Vector.replicate 12 {}
  staging : List StagingEntry := []
  /-- The BLOCKED streams, oldest first (R69). -/
  blocked : List StreamId := []
  completions : List Completion := []
  /-- The wait list of the Completion Queue, oldest first (R42). -/
  waiting : List WaitItem := []
  encodings : Vector Encoding 12 := Vector.replicate 12 {}
  headWait : Option HeadWait := none
  /-- Whether a store-full episode stands (R73). -/
  storeFullEpisode : Bool := false
  storePort : StorePort := {}
  holds : Vector Hold 32 := Vector.replicate 32 {}
  pass : Pass := {}
  /-- Entries have left the trail since the expiry pass began to wait for room (the model's own; R99, log entry 20). -/
  passWoken : Bool := false
  sweep : Sweep := {}
  findings : List Finding := []
  trail : Trail := {}
  cursors : Vector Cursor 16 := Vector.replicate 16 {}
  clock : Clock := {}
  deriving DecidableEq, Repr

/-- The machine right after its first-ever power-on (R163, R165): STARTING, every link DOWN, the clock UNSET at 0,
the volatile blocks at their reset values and first-ever contents in the catalogue, the Settings Area, the Hold Table
and the Audit Trail; the mark that the initialisation is complete is still to be written (log entry 3). -/
def State.reset : State := {}

/-- Why a step stops with a fault. -/
inductive Fault where
  /-- Raised by STORE_WRITE_COMPLETE, STORE_WRITE_ERROR, SWEEP_READ_COMPLETE and RETRIEVAL_READ_COMPLETE when the
  operation in progress names an extent above 262,143, which the store does not have (1.1). Safe: the model stops. No
  operation the controller asks for names one, as the Free Segment List holds only 0–262,143 (R7). -/
  | noSuchExtent (segment : Nat)
  deriving DecidableEq, Repr

/-- Why a step is refused. -/
inductive Refusal where
  /-- Raised by exec for a command that has no meaning in the model yet; safe. -/
  | notModelled (mnemonic : String)
  deriving DecidableEq, Repr

end Sys2Proof.Machine
end

