-- ==== Sys2Proof/Machine/Ops.lean ====
section
/-! DEFINITION. The named operations every block uses: sparse tables, the Free Segment List as runs, the bytes of the
segment store, the dual-sum, countdowns, and the replacement of one stream, encoding context, cursor or port. -/

namespace Sys2Proof.Machine

/-! ## Sparse tables -/

/-- The entry under key `k`; `d` is what an unlisted key holds. -/
def Sparse.get {α : Type} (d : α) (k : Nat) : Sparse α → α
  | [] => d
  | (j, v) :: rest => if j = k then v else Sparse.get d k rest

/-- Put `v` under key `k`, keeping the keys rising. -/
def Sparse.insert {α : Type} (k : Nat) (v : α) : Sparse α → Sparse α
  | [] => [(k, v)]
  | (j, w) :: rest =>
    if k < j then (k, v) :: (j, w) :: rest
    else if j = k then (k, v) :: rest
    else (j, w) :: Sparse.insert k v rest

/-- Write `v` under key `k`; the value of an unlisted key is not listed. -/
def Sparse.set {α : Type} [DecidableEq α] (d : α) (k : Nat) (v : α) (m : Sparse α) : Sparse α :=
  if v = d then m.filter (fun e => e.1 ≠ k) else Sparse.insert k v m

/-- The canonical form: keys strictly rising, and no entry equal to what an unlisted key holds. -/
def Sparse.wf {α : Type} [DecidableEq α] (d : α) (m : Sparse α) : Bool :=
  (m.map Prod.fst).Pairwise (· < ·) && m.all (fun e => e.2 ≠ d)

/-! ## Vectors -/

/-- A function applied to every place of a vector. -/
def mapVector {α β : Type} {n : Nat} (f : α → β) (v : Vector α n) : Vector β n := ⟨⟨v.toList.map f⟩, by simp⟩

/-! ## The Free Segment List (R7) -/

/-- The segment numbers of the runs, head first. -/
def Runs.toList : List (Nat × Nat) → List Nat
  | [] => []
  | (a, n) :: rest => List.range' a n ++ Runs.toList rest

/-- How many numbers the runs hold. -/
def Runs.count : List (Nat × Nat) → Nat
  | [] => 0
  | (_, n) :: rest => n + Runs.count rest

/-- Take the head number, with what remains. -/
def Runs.pop : List (Nat × Nat) → Option (Nat × List (Nat × Nat))
  | [] => none
  | (_, 0) :: rest => Runs.pop rest
  | (a, n + 1) :: rest => some (a, if n = 0 then rest else (a + 1, n) :: rest)

/-- Append a number at the tail, lengthening the last run where the number follows it. -/
def Runs.push (x : Nat) : List (Nat × Nat) → List (Nat × Nat)
  | [] => [(x, 1)]
  | [(a, n)] => if a + n = x then [(a, n + 1)] else [(a, n), (x, 1)]
  | r :: q :: rest => r :: Runs.push x (q :: rest)

/-- Whether the list is empty. -/
def State.freeListEmpty (s : State) : Bool := (Runs.pop s.freeList).isNone

/-! ## The segment store (R88): byte addresses are extent × 1,048,576 + offset -/

/-- What a byte of the store that nothing has written reads as: DESIGN CHOICE (log entry 2), unsafe. -/
abbrev unwrittenByte : Byte := 0

/-- The address of a byte of an extent. -/
def storeAddress (segment offset : Nat) : Nat := segment * Config.extentBytes + offset

/-- Read one byte of the store. -/
def State.storeByte (s : State) (address : Nat) : Byte := Sparse.get unwrittenByte address s.store

/-- Write bytes from an address on. -/
def writeBytes (address : Nat) : List Byte → List Host.Cell → List Host.Cell
  | [], m => m
  | b :: rest, m => writeBytes (address + 1) rest (Sparse.set unwrittenByte address b m)

/-- The canonical form of the store's list of cells. -/
def storeWf (m : List Host.Cell) : Bool := Sparse.wf unwrittenByte m

/-- The byte a read delivers at an offset: what the medium holds, but for the bytes the report lists as altered. -/
def State.deliveredByte (s : State) (segment : Nat) (altered : List (Nat × Byte)) (offset : Nat) : Byte :=
  match altered.lookup offset with
  | some b => b
  | none => s.storeByte (storeAddress segment offset)

/-- `n` bytes of an extent from an offset on, as a read delivers them (R88). -/
def State.deliveredBytes (s : State) (segment : Nat) (altered : List (Nat × Byte)) (offset n : Nat) : List Byte :=
  (List.range' offset n).map (s.deliveredByte segment altered)

/-! ## The dual-sum (R52) -/

/-- Feed one byte. -/
def DualSum.feed (d : DualSum) (b : Byte) : DualSum :=
  let a := (d.a + b.toNat) % Config.dualSumModulus
  ⟨a, (d.b + a) % Config.dualSumModulus⟩

/-- Feed bytes in order. -/
def DualSum.feedAll (d : DualSum) (bytes : List Byte) : DualSum := bytes.foldl DualSum.feed d

/-- The value of an accumulator. -/
def DualSum.value (d : DualSum) : Nat := d.b * 65536 + d.a

/-- The accumulator restored from a value (R127). -/
def DualSum.restore (v : Nat) : DualSum := ⟨v % 65536, v / 65536⟩

/-- The dual-sum of bytes from a fresh accumulator. -/
def dualSumOf (bytes : List Byte) : Nat := (DualSum.feedAll {} bytes).value

/-! ## Countdowns (R151) -/

/-- A countdown loaded with `n` seconds; one loaded with 0 seconds would be at 0 at once. -/
def Countdown.load (n : Nat) : Countdown := .running n

/-- One tick: a running countdown falls by 1; at 0 it stops and its expiry is due. -/
def Countdown.tick : Countdown → Countdown
  | .running n => if n ≤ 1 then .due else .running (n - 1)
  | c => c

/-- The length of a stream inactivity or cursor idle countdown for a setting N (4.3). -/
def timeoutSeconds (n : Nat) : Nat := 10 * (n + 1)

/-! ## Bytes of numbers -/

/-- The `n` low bytes of a number, most significant first (12.4, 12.5). -/
def beBytes : Nat → Nat → List Byte
  | 0, _ => []
  | n + 1, v => BitVec.ofNat 8 (v / 256 ^ n) :: beBytes n v

/-- The number that bytes spell, most significant first. -/
def beNat (bytes : List Byte) : Nat := bytes.foldl (fun acc b => acc * 256 + b.toNat) 0

/-! ## One part of State replaced -/

def State.setStream (s : State) (x : StreamId) (st : Stream) : State := { s with streams := s.streams.set x st }

def State.setEncoding (s : State) (x : StreamId) (c : Encoding) : State :=
  { s with encodings := s.encodings.set x c }

def State.setCursor (s : State) (c : CursorId) (u : Cursor) : State := { s with cursors := s.cursors.set c u }

def State.setPort (s : State) (p : PortId) (q : PortState) : State := { s with ports := s.ports.set p q }

def State.setFile (s : State) (i : Nat) (f : File) : State := { s with files := Sparse.set none i (some f) s.files }

/-- Free a File Table entry. -/
def State.dropFile (s : State) (i : Nat) : State := { s with files := Sparse.set none i none s.files }

def State.setSegment (s : State) (n : Nat) (e : Segment) : State :=
  { s with segments := Sparse.set {} n e s.segments }

def State.setSwitch (s : State) (w : Nat) (e : SwitchEntry) : State :=
  { s with switches := Sparse.set {} w e s.switches }

/-! ## Reading State -/

/-- The File Table entry at an index, if it is held. -/
def State.file (s : State) (i : Nat) : Option File := Sparse.get none i s.files

/-- The Segment Catalogue entry of a segment number. -/
def State.segment (s : State) (n : Nat) : Segment := Sparse.get {} n s.segments

/-- The Switch Table entry of a switch. -/
def State.switch (s : State) (w : Nat) : SwitchEntry := Sparse.get {} w s.switches

/-- The held entries of the File Table, ascending by file index. -/
def State.heldFiles (s : State) : List (Nat × File) := s.files.filterMap (fun e => e.2.map (fun f => (e.1, f)))

/-- The entry that holds a switch id and sequence, with its file index (R2: at most one does). -/
def State.findFile (s : State) (switchId sequence : Nat) : Option (Nat × File) :=
  s.heldFiles.find? (fun e => e.2.switchId = switchId ∧ e.2.sequence = sequence)

/-- The role set of a port (R160). -/
def State.roles (s : State) (p : PortId) : RoleSet := s.settings.ports[p].roles

/-- The byte order of a port (R155). -/
def State.byteOrder (s : State) (p : PortId) : ByteOrder := s.settings.ports[p].byteOrder

/-- Today (R152): clock value div 86,400. -/
def State.today (s : State) : Nat := s.clock.value / Config.daySeconds

/-- Whether the clock is set (9.1). -/
def State.clockIsSet (s : State) : Bool := s.clock.state ≠ .unset

/-- The clock second with which a step stamps what it records: 0 while the clock is UNSET (R146, R152). -/
def State.stamp (s : State) : Nat := if s.clockIsSet then s.clock.value else 0

/-! ## Replies (10.2, R155) -/

/-- Form a reply in the byte order that stands now: it leaves the port, or waits while the line is busy, and `entries` of
the outstanding-request table stand as long as it waits. -/
def State.form (s : State) (p : PortId) (tag : Byte) (status : Status) (body : ReplyBody) (entries : List Outstanding) :
    State :=
  let r : Reply := ⟨p, tag, status, s.byteOrder p, body⟩
  let port := s.ports[p]
  { s with
    replies := if port.lineBusy then s.replies else s.replies ++ [r]
    ports :=
      if port.lineBusy then
        s.ports.set p { port with outstanding := port.outstanding ++ entries, unsent := port.unsent ++ [r] }
      else s.ports }

/-- A refusal that takes no outstanding entry (R154, orders 1 and 2). -/
def State.turnAway (s : State) (p : PortId) (tag : Byte) (status : Status) : State := s.form p tag status .empty []

/-- Answer a request in the step that takes it: its entry is freed when the reply leaves (R154), so it stands in the table
as long as the reply waits. -/
def State.reply (s : State) (p : PortId) (tag : Byte) (status : Status) (body : ReplyBody) : State :=
  s.form p tag status body [⟨tag, .answered⟩]

/-- A refusal: its body is empty (R168). -/
def State.refuse (s : State) (p : PortId) (tag : Byte) (status : Status) : State := s.reply p tag status .empty

/-- Remove an outstanding entry by its tag. -/
def State.freeTag (s : State) (p : PortId) (tag : Byte) : State :=
  let port := s.ports[p]
  s.setPort p { port with outstanding := port.outstanding.filter (fun o => o.tag ≠ tag) }

/-- Change where the outstanding request of a tag stands. -/
def State.setStanding (s : State) (p : PortId) (tag : Byte) (standing : Standing) : State :=
  let port := s.ports[p]
  s.setPort p { port with outstanding := port.outstanding.map (fun o => if o.tag = tag then ⟨tag, standing⟩ else o) }

/-- Answer a request that an earlier step took: its entry is freed when the reply leaves. -/
def State.answer (s : State) (p : PortId) (tag : Byte) (status : Status) (body : ReplyBody) : State :=
  if s.ports[p].outstanding.any (fun o => o.tag = tag) then (s.freeTag p tag).reply p tag status body
  else s.form p tag status body []

end Sys2Proof.Machine
end

