-- ==== Sys2Proof/Machine/Flags.lean ====
section
/-! DEFINITION. The flags the module shows and the tests of room its blocks make: module alarms and attention lines
(R159), room in the Completion Queue, the Audit Trail, the Finding Log and the Staging Queue. -/

namespace Sys2Proof.Machine

/-- The module alarms that stand (R159). -/
def State.alarms (s : State) : Alarms where
  storeFull := s.freeListEmpty
  clockUnset := s.clock.state = .unset
  holdover := s.clock.state = .holdover
  atLimit := s.clock.atLimit

/-- Whether any module alarm stands. -/
def Alarms.any (a : Alarms) : Bool := a.storeFull || a.clockUnset || a.holdover || a.atLimit

/-- The Completion Queue entries of a port, oldest first (R44). -/
def State.completionsOf (s : State) (p : PortId) : List Completion := s.completions.filter (fun e => e.port = p)

/-- The attention line of a port (R159): an output that follows its conditions in every step; without supply nothing
drives it. -/
def State.attention (s : State) (p : PortId) : Bool :=
  s.powered &&
    (!(s.completionsOf p).isEmpty
      || ((s.roles p).audit && !s.findings.isEmpty)
      || ((s.roles p).audit && !s.trail.entries.isEmpty)
      || ((s.roles p).admin && s.alarms.any))

/-- Room in the Completion Queue for an entry of a port (R41). -/
def State.completionRoom (s : State) (p : PortId) : Bool :=
  s.completions.length < Config.completionEntries
    && (s.completionsOf p).length < Config.completionEntriesOfPort

/-- Room in the Audit Trail for one entry (R128). -/
def State.trailRoom (s : State) : Bool := s.trail.entries.length < Config.trailEntries

/-- The free places of the Finding Log: 32 less the findings held and less the sweep's reserved places (R110, R123). -/
def State.findingPlaces (s : State) : Nat := Config.findingEntries - s.findings.length - s.sweep.reserved

/-- How many record entries stand in the Staging Queue (R68). -/
def State.stagingRecords (s : State) : Nat :=
  (s.staging.filter (fun e => match e with | .record _ _ => true | _ => false)).length

/-- Room in the Staging Queue for a record just completed. A freed place belongs to the oldest BLOCKED stream (R69),
so the places still owed to BLOCKED streams are not free. DEDUCED (log entry 8). -/
def State.stagingRoom (s : State) : Bool := s.stagingRecords + s.blocked.length < Config.stagingRecords

/-- A settled stream waits only to post its closing entry (R23). -/
def Stream.settled (st : Stream) : Bool :=
  st.state = .posting && (match st.pending with | some q => q.after = .idle | none => false)

/-- A stream whose abort has begun: ABORTING, or CLOSING with abort after close set (R34). -/
def Stream.abortBegun (st : Stream) : Bool := st.state = .aborting || (st.state = .closing && st.abortAfterClose)

/-- A stream for which an abort may begin (R33, R35): it has a file, has begun no abort and is not settled. -/
def Stream.abortable (st : Stream) : Bool := st.state ≠ .idle && !st.abortBegun && !st.settled

/-- STARTING, or held in STARTING by the reset input (R165): requests other than PART STATUS are NOT_READY. -/
def State.isStarting (s : State) : Bool := s.controller = .starting || s.resetLow

/-- The empty role set. -/
def RoleSet.isEmpty (r : RoleSet) : Bool := !(r.ingest || r.retrieve || r.audit || r.admin)

end Sys2Proof.Machine
end

