-- ==== Sys2Proof/Machine/Operands.lean ====
section
/-! DEFINITION. The operand forms of request bodies (R155, R168, 12.1, 12.2): integers in the port's byte order,
presence and yes/no bytes, enumeration bytes, sets, class entries, switch selectors and labels. A reading of `none` is
a value out of range, which the owning block refuses BAD_REQUEST. -/

namespace Sys2Proof.Machine

/-- A 2-byte integer in a byte order (R155). -/
def wire16 (o : ByteOrder) (w : Wire16) : Nat :=
  match o with
  | .little => w.first.toNat + 256 * w.second.toNat
  | .big => 256 * w.first.toNat + w.second.toNat

/-- A 4-byte integer in a byte order (R155). -/
def wire32 (o : ByteOrder) (w : Wire32) : Nat :=
  match o with
  | .little =>
    w.first.toNat + 256 * w.second.toNat + 65536 * w.third.toNat + 16777216 * w.fourth.toNat
  | .big => 16777216 * w.first.toNat + 65536 * w.second.toNat + 256 * w.third.toNat + w.fourth.toNat

/-- A yes/no or presence byte (R168). -/
def readYesNo (b : Byte) : Option Bool :=
  if b = 0 then some false else if b = 1 then some true else none

/-- A number of one byte that must not exceed a limit. -/
def readUpTo (limit : Nat) (b : Byte) : Option Nat := if b.toNat ≤ limit then some b.toNat else none

/-- An index below a bound. -/
def readIndex (n : Nat) (b : Byte) : Option (Fin n) := if h : b.toNat < n then some ⟨b.toNat, h⟩ else none

/-- A number that must not exceed a limit. -/
def upTo (limit n : Nat) : Option Nat := if n ≤ limit then some n else none

def readClassKind (b : Byte) : Option ClassKind :=
  match b.toNat with
  | 0 => some .data | 1 => some .separator | 2 => some .recordEnd | 3 => some .skip | 4 => some .trailerStart
  | 5 => some .illegal | _ => none

def readTarget (b : Byte) : Option FieldTarget :=
  match b.toNat with
  | 0 => some .startEpoch | 1 => some .startClock | 2 => some .duration | 3 => some .calling | 4 => some .called
  | 5 => some .trunkIn | 6 => some .trunkOut | 7 => some .cause | 8 => some .service | 9 => some .ignore | _ => none

def readRounding (b : Byte) : Option Rounding :=
  match b.toNat with
  | 0 => some .truncate | 1 => some .up | 2 => some .nearest | _ => none

def readOverflow (b : Byte) : Option OverflowKey :=
  match b.toNat with
  | 0 => some .reject | 1 => some .clamp | _ => none

def readByteOrder (b : Byte) : Option ByteOrder :=
  match b.toNat with
  | 0 => some .little | 1 => some .big | _ => none

/-- A role set: the sum of INGEST 1, RETRIEVE 2, AUDIT 4, ADMIN 8; above 15 it is out of range (R168). -/
def readRoles (b : Byte) : Option RoleSet :=
  if b.toNat ≤ 15 then some ⟨b.getLsbD 0, b.getLsbD 1, b.getLsbD 2, b.getLsbD 3⟩ else none

/-- A non-empty state set of LIST FILES: the sum of INGESTING 1, ACCEPTED 2, DISPUTED 4, EXPIRING 8 (R19). -/
def readStates (b : Byte) : Option (List FileState) :=
  if b = 0 ∨ 15 < b.toNat then none
  else some ((if b.getLsbD 0 then [.ingesting] else []) ++ (if b.getLsbD 1 then [.accepted] else [])
    ++ (if b.getLsbD 2 then [.disputed] else []) ++ (if b.getLsbD 3 then [.expiring] else []))

/-- A class entry: kind, include in check, next mode, hold (R47, R32). -/
def readClassEntry (kind includeInCheck nextMode hold : Byte) : Option ClassEntry :=
  match readClassKind kind, readYesNo includeInCheck, readUpTo 7 nextMode, readYesNo hold with
  | some k, some i, some m, some h => some ⟨k, i, m, h⟩
  | _, _, _, _ => none

/-- A list of class entries, out of range if one of them is. -/
def readClassEntries : List WireClassEntry → Option (List ClassEntry)
  | [] => some []
  | w :: rest =>
    match readClassEntry w.kind w.includeInCheck w.nextMode w.hold, readClassEntries rest with
    | some e, some es => some (e :: es)
    | _, _ => none

/-- A list of field targets, out of range if one of them is. -/
def readTargets : List Byte → Option (List FieldTarget)
  | [] => some []
  | b :: rest =>
    match readTarget b, readTargets rest with
    | some t, some ts => some (t :: ts)
    | _, _ => none

/-- A switch selector: 65,535 is ALL (`none`), otherwise a switch id 0–1,023 (12.1, R19, R93). -/
def readSelector (n : Nat) : Option (Option Nat) :=
  if n = 65535 then some none else if n ≤ Config.lastSwitch then some (some n) else none

/-- An optional reference label: presence, length, 16 label bytes (R93). Label bytes beyond the length are neither examined
nor kept, and nothing is of an absent label: DESIGN CHOICE, the spec is silent on these bytes (log entry 7). -/
def readLabel (present length : Byte) (label : List Byte) : Option (Option (List Byte)) :=
  match readYesNo present with
  | none => none
  | some false => some none
  | some true =>
    let text := label.take length.toNat
    if length.toNat ≤ 16 ∧ text.all (fun b => 32 ≤ b.toNat ∧ b.toNat ≤ 126) then some (some text) else none

/-! ## Field maps (R24, R48) -/

/-- How many columns carry a target. -/
def targetCount (t : FieldTarget) (map : List FieldTarget) : Nat := (map.filter (· = t)).length

/-- A field map maps exactly one of START_EPOCH and START_CLOCK, exactly one DURATION and exactly one CALLED (R24,
condition 2). -/
def mapsRequired (map : List FieldTarget) : Bool :=
  targetCount .startEpoch map + targetCount .startClock map = 1
    && targetCount .duration map = 1 && targetCount .called map = 1

/-- No target other than IGNORE appears for more than one column (R48). -/
def mapsOnce (map : List FieldTarget) : Bool :=
  [FieldTarget.startEpoch, .startClock, .duration, .calling, .called, .trunkIn, .trunkOut, .cause, .service].all
    (fun t => targetCount t map ≤ 1)

end Sys2Proof.Machine
end

