-- ==== Sys2Proof/Machine/TrailUnit.lean ====
section
/-! DEFINITION. The Trail Unit (chapter 7): the canonical form of an entry, its chain value, the append every producer's
step makes, and the removal of ACK TRAIL. A producer tests for room (`State.trailRoom`) in the step in which it appends
(R128). -/

namespace Sys2Proof.Machine

/-- The kind codes of 7.2. -/
def TrailKind.code : TrailKind → Nat
  | .fileAccepted => 1 | .fileExpired => 2 | .holdPlaced => 3 | .holdReleased => 4 | .disputeCleared => 5
  | .quarantineSet => 6 | .quarantineCleared => 7 | .lossAccepted => 8 | .clockSet => 9 | .retentionChanged => 10
  | .rolesChanged => 11

/-- The reason byte (R127, 12.1). -/
def DisputeReasons.code (r : DisputeReasons) : Nat :=
  r.count.toNat + 2 * r.duration.toNat + 4 * r.check.toNat + 8 * r.noTrailer.toNat + 16 * r.trailerBad.toNat
    + 32 * r.rejects.toNat

/-- The role set byte (12.1). -/
def RoleSet.code (r : RoleSet) : Nat :=
  r.ingest.toNat + 2 * r.retrieve.toNat + 4 * r.audit.toNat + 8 * r.admin.toNat

/-- The ten subject bytes (R127). -/
def Subject.bytes : Subject → List Byte
  | .file w q i r => beBytes 2 w ++ beBytes 2 q ++ beBytes 4 i ++ [0, BitVec.ofNat 8 r.code]
  | .index n => BitVec.ofNat 8 n :: List.replicate 9 0
  | .clock old new => beBytes 4 old ++ beBytes 4 new ++ [0, 0]
  | .roles p r => BitVec.ofNat 8 p.val :: BitVec.ofNat 8 r.code :: List.replicate 8 0

/-- The port byte, 255 for "controller" (R127). -/
def trailPortByte : Option PortId → Byte
  | some p => BitVec.ofNat 8 p.val
  | none => 255

/-- The 24-byte canonical form of an entry (R127, 12.5). -/
def canonicalForm (sequence clock : Nat) (kind : TrailKind) (port : Option PortId) (subject : Subject)
    (value : Nat) : List Byte :=
  beBytes 4 sequence ++ beBytes 4 clock ++ [BitVec.ofNat 8 kind.code, trailPortByte port] ++ subject.bytes
    ++ beBytes 4 value

/-- The canonical form of an entry held. -/
def TrailEntry.canonical (e : TrailEntry) : List Byte :=
  canonicalForm e.sequence e.clock e.kind e.port e.subject e.value

/-- The chain value of a canonical form that follows a chain value (R127). -/
def chainValue (last : Nat) (form : List Byte) : Nat := (DualSum.feedAll (DualSum.restore last) form).value

/-- The entry an append makes (R126). -/
def Trail.entryFor (t : Trail) (clock : Nat) (kind : TrailKind) (port : Option PortId) (subject : Subject)
    (value : Nat) : TrailEntry :=
  { sequence := t.nextSequence, clock, kind, port, subject, value,
    chain := chainValue t.lastChain (canonicalForm t.nextSequence clock kind port subject value) }

/-- Append an entry (R126): next sequence raised modulo 2^32, the new chain value the last one. -/
def Trail.append (t : Trail) (clock : Nat) (kind : TrailKind) (port : Option PortId) (subject : Subject)
    (value : Nat) : Trail :=
  let e := t.entryFor clock kind port subject value
  { t with entries := t.entries ++ [e], nextSequence := (t.nextSequence + 1) % 4294967296, lastChain := e.chain }

/-- Append an entry stamped with the archive clock (R126, 7.2). -/
def State.record (s : State) (kind : TrailKind) (port : Option PortId) (subject : Subject) (value : Nat) : State :=
  { s with trail := s.trail.append s.stamp kind port subject value }

/-- A file as the subject of an entry, with no detail (7.2). -/
def File.subject (f : File) (i : Nat) : Subject := .file f.switchId f.sequence i {}

/-- How many entries an acknowledgement of a sequence removes: its place in the trail, from the oldest (R131). -/
def Trail.placeOf (t : Trail) (sequence : Nat) : Option Nat :=
  (t.entries.findIdx? (fun e => e.sequence = sequence)).map (· + 1)

/-- Remove the `n` oldest entries; the base chain value is that of the last one removed (R131). -/
def Trail.removeOldest (t : Trail) (n : Nat) : Trail :=
  { t with
    entries := t.entries.drop n
    baseChain := match (t.entries.take n).getLast? with | some e => e.chain | none => t.baseChain }

end Sys2Proof.Machine
end

