-- ==== Sys2Proof/Machine/Catalogue.lean ====
section
/-! DEFINITION. The Catalogue Controller (chapter 1): the internal catalogue requests, each taken whole (R1). A request
that answers STALE is `none` here, and the catalogue is then as it was. -/

namespace Sys2Proof.Machine

/-! ## Files -/

/-- The lowest number, from `n` on, that is no key of a list of rising keys. -/
def firstGap (n : Nat) : List Nat → Nat
  | [] => n
  | k :: rest => if k = n then firstGap (n + 1) rest else n

/-- The lowest free file index (R2). -/
def State.lowestFreeFile (s : State) : Nat := firstGap 0 (s.heldFiles.map Prod.fst)

/-- The answers to a new-entry request (R2). -/
inductive NewEntry where
  | duplicate
  | full
  | done (fileIndex : Nat)
  deriving DecidableEq, Repr

/-- How a new-entry request is answered (R2): DUPLICATE before FULL, else the lowest free index. -/
def State.newEntryAnswer (s : State) (switchId sequence : Nat) : NewEntry :=
  if (s.findFile switchId sequence).isSome then .duplicate
  else if Config.fileEntries ≤ s.heldFiles.length then .full
  else .done s.lowestFreeFile

/-- Raise or lower the file count of a switch (R17). -/
def State.countFile (s : State) (w : Nat) (change : Nat → Nat) : State :=
  let e := s.switch w
  s.setSwitch w { e with fileCount := change e.fileCount }

/-- The entry a new file takes (1.2): rounding mode and overflow key are the profile's, copied now. -/
def newFile (s : State) (switchId sequence fileDay retentionClass : Nat) (profile : Fin 4) (port : PortId) : File :=
  { switchId, sequence, fileDay, retentionClass, profile := profile.val,
    rounding := s.settings.profiles[profile].rounding, overflow := s.settings.profiles[profile].overflow,
    state := .ingesting, openingPort := port }

/-- Create an entry at an index and raise the switch's file count (R2). -/
def State.createFile (s : State) (i : Nat) (f : File) : State := (s.setFile i f).countFile f.switchId (· + 1)

/-- The sequence that follows (R3, R17). -/
def nextSequence (q : Nat) : Nat := (q + 1) % 65536

/-- Acceptance of an INGESTING file (R3). -/
def State.acceptFile (s : State) (i recordCount rejectedCount duration : Nat) (reasons : DisputeReasons)
    (trailer : Option Trailer) (clock : Nat) : Option State :=
  match s.file i with
  | some f =>
    if f.state = .ingesting then
      let s := s.setFile i { f with
        state := if reasons = {} then .accepted else .disputed
        recordCount, rejectedCount, durationTotal := min duration Config.durationLimit
        reasons, trailer, acceptedAt := some clock }
      let e := s.switch f.switchId
      some (s.setSwitch f.switchId { e with expected := some (nextSequence f.sequence) })
    else none
  | none => none

/-! ## Chains -/

/-- The segment numbers of a chain, first to last, at most `n` of them (1.3.1). -/
def walkChain (segments : Sparse Segment) : Nat → Option Nat → List Nat
  | 0, _ => []
  | _, none => []
  | n + 1, some k => k :: walkChain segments n (Sparse.get {} k segments).next

/-- The chain of a file (1.3.1). -/
def State.chain (s : State) (f : File) : List Nat := walkChain s.segments f.segmentCount f.firstSegment

/-- Return one segment to the tail of the Free Segment List: FREE, everything cleared but the allocation count (R7). -/
def State.freeSegment (s : State) (n : Nat) : State :=
  { s.setSegment n { allocation := (s.segment n).allocation } with freeList := Runs.push n s.freeList }

/-- Return segments in order (R4, R14). -/
def State.freeSegments (s : State) (ns : List Nat) : State := ns.foldl State.freeSegment s

/-- Free a file's entry with its chain, and lower its switch's file count (R4, R14, R17). -/
def State.releaseFile (s : State) (i : Nat) (f : File) : State :=
  ((s.freeSegments (s.chain f)).dropFile i).countFile f.switchId (· - 1)

/-- Removal of an INGESTING file (R4), no store write being in flight for it. -/
def State.removeFile (s : State) (i : Nat) : Option State :=
  match s.file i with
  | some f => if f.state = .ingesting then some (s.releaseFile i f) else none
  | none => none

/-- Reclaim of an EXPIRING file with no pins (R14). -/
def State.reclaimFile (s : State) (i : Nat) : Option State :=
  match s.file i with
  | some f => if f.state = .expiring ∧ f.pinCount = 0 then some (s.releaseFile i f) else none
  | none => none

/-- The answers to a segment allocation (R6). -/
inductive Allocation where
  | stale
  | empty
  | chainFull
  | done (filling : Filling) (s : State)
  deriving DecidableEq, Repr

/-- Segment allocation for a file (R6): the head of the Free Segment List becomes its FILLING last segment. -/
def State.allocate (s : State) (i : Nat) : Allocation :=
  match s.file i with
  | none => .stale
  | some f =>
    if f.state ≠ .ingesting then .stale
    else match Runs.pop s.freeList with
    | none => .empty
    | some (n, rest) =>
      if f.segmentCount = Config.chainLimit then .chainFull
      else
        let allocation := ((s.segment n).allocation + 1) % 65536
        let s := { s with freeList := rest }
        let s := match f.lastSegment with
          | some k => s.setSegment k { s.segment k with next := some n }
          | none => s
        let s := s.setSegment n { state := .filling, allocation, fileIndex := i, ordinal := f.segmentCount }
        let s := s.setFile i { f with
          firstSegment := match f.firstSegment with | some k => some k | none => some n
          lastSegment := some n
          segmentCount := f.segmentCount + 1 }
        .done ⟨n, allocation, f.segmentCount⟩ s

/-! ## Segment standing -/

/-- Change a file's suspect count. -/
def State.countSuspect (s : State) (i : Nat) (change : Nat → Nat) : State :=
  match s.file i with
  | some f => s.setFile i { f with suspectCount := change f.suspectCount }
  | none => s

/-- The suspect count of a file, 0 if the entry is free. -/
def State.suspectCount (s : State) (i : Nat) : Nat :=
  match s.file i with
  | some f => f.suspectCount
  | none => 0

/-- Finish of a written segment (R8). -/
def State.finishStored (s : State) (n : Nat) (figures : Figures) : Option State :=
  let e := s.segment n
  if e.state = .filling then some (s.setSegment n { e with state := .stored, figures, unreported := false }) else none

/-- Failed finish (R9). -/
def State.finishFailed (s : State) (n : Nat) (figures : Figures) (unreported : Bool) : Option State :=
  let e := s.segment n
  if e.state = .filling then
    some ((s.setSegment n { e with state := .suspect, figures, unreported }).countSuspect e.fileIndex (· + 1))
  else none

/-- SUSPECT marking with the noted allocation count and file index (R10). -/
def State.markSuspect (s : State) (n allocation fileIndex : Nat) (unreported : Bool) : Option State :=
  let e := s.segment n
  if e.allocation ≠ allocation ∨ e.fileIndex ≠ fileIndex then none
  else match e.state with
  | .stored => some ((s.setSegment n { e with state := .suspect, unreported }).countSuspect fileIndex (· + 1))
  | .suspect => some (if unreported then s.setSegment n { e with unreported := true } else s)
  | _ => none

/-- Return of a SUSPECT segment to STORED (R11). -/
def State.returnStored (s : State) (n allocation fileIndex : Nat) : Option State :=
  let e := s.segment n
  if e.state = .suspect ∧ e.allocation = allocation ∧ e.fileIndex = fileIndex then
    some ((s.setSegment n { e with state := .stored, unreported := false }).countSuspect fileIndex (· - 1))
  else none

/-- Clear of the unreported flag (R12). -/
def State.clearUnreported (s : State) (n allocation : Nat) : Option State :=
  let e := s.segment n
  if e.state = .suspect ∧ e.allocation = allocation then some (s.setSegment n { e with unreported := false }) else none

/-- Every SUSPECT segment marked unreported, in one request (R12). -/
def State.markAllUnreported (s : State) : State :=
  { s with segments := s.segments.map (fun e =>
      if e.2.state = .suspect then (e.1, { e.2 with unreported := true }) else e) }

/-! ## Expiry, disputes, losses and pins -/

/-- Mark an ACCEPTED file EXPIRING (R13). -/
def State.markExpiring (s : State) (i : Nat) : Option State :=
  match s.file i with
  | some f => if f.state = .accepted then some (s.setFile i { f with state := .expiring }) else none
  | none => none

/-- Return an EXPIRING file to ACCEPTED (R13). -/
def State.returnAccepted (s : State) (i : Nat) : Option State :=
  match s.file i with
  | some f => if f.state = .expiring then some (s.setFile i { f with state := .accepted }) else none
  | none => none

/-- Clear of a dispute (R15). -/
def State.clearDispute (s : State) (i : Nat) : Option State :=
  match s.file i with
  | some f =>
    if f.state = .disputed then some (s.setFile i { f with state := .accepted, reasons := {} }) else none
  | none => none

/-- Acceptance of a loss (R15). -/
def State.acceptLoss (s : State) (i : Nat) : Option State :=
  match s.file i with
  | some f => if f.state = .ingesting then none else some (s.setFile i { f with lossAccepted := true })
  | none => none

/-- The refusals of a pin request (R16) and its DONE. -/
inductive PinAnswer where
  | absent
  | notReady
  | expiring
  | done (fileIndex : Nat) (file : File)
  deriving DecidableEq, Repr

/-- How a pin request that names a pair is answered (R16). -/
def State.pinAnswer (s : State) (switchId sequence : Nat) : PinAnswer :=
  match s.findFile switchId sequence with
  | none => .absent
  | some (i, f) =>
    match f.state with
    | .ingesting => .notReady
    | .expiring => .expiring
    | _ => .done i f

/-- Raise a file's pin count (R16). -/
def State.pin (s : State) (i : Nat) : State :=
  match s.file i with
  | some f => s.setFile i { f with pinCount := f.pinCount + 1 }
  | none => s

/-- Lower a file's pin count (R16): the new count with the state of the file; STALE if it was 0 already. -/
def State.unpin (s : State) (i : Nat) : Option (Nat × FileState × State) :=
  match s.file i with
  | some f =>
    if f.pinCount = 0 then none
    else some (f.pinCount - 1, f.state, s.setFile i { f with pinCount := f.pinCount - 1 })
  | none => none

/-- Every pin count set to 0, with the freeing of every cursor at a reset (R21). -/
def State.clearPins (s : State) : State :=
  { s with files := s.files.map (fun e => (e.1, e.2.map (fun f => { f with pinCount := 0 }))) }

end Sys2Proof.Machine
end

