-- ==== Sys2Proof/Machine/Formats.lean ====
section
/-! DEFINITION. The byte layouts stations see (chapter 12): reply frames, reply records, completion entries, findings,
trail entries and the bodies of the other replies, in the byte order that stood when the reply was formed (R155,
R169). The extent's layout is in Machine/Codec.lean, the canonical trail form in Machine/TrailUnit.lean. -/

namespace Sys2Proof.Machine

/-- The `n` bytes of an integer in a byte order (R155). -/
def orderedBytes (o : ByteOrder) (n v : Nat) : List Byte :=
  match o with
  | .big => beBytes n v
  | .little => (beBytes n v).reverse

/-- A one-byte quantity. -/
def oneByte (v : Nat) : List Byte := [BitVec.ofNat 8 v]

/-- A yes/no field (12.1). -/
def yesNo (b : Bool) : List Byte := oneByte b.toNat

/-- Zero bytes. -/
def zeros (n : Nat) : List Byte := List.replicate n 0

/-- An optional integer: a presence byte, and zeros when absent (12.1). -/
def optionalBytes (o : ByteOrder) (n : Nat) : Option Nat → List Byte
  | some v => 1 :: orderedBytes o n v
  | none => 0 :: zeros n

/-- Bytes filled up with zeros to a width. -/
def padTo (n : Nat) (bytes : List Byte) : List Byte := (bytes ++ zeros n).take n

/-! ## Codes (12.1) -/

def Status.code : Status → Nat
  | .ok => 0 | .atEnd => 1 | .segmentDamaged => 2 | .portBusy => 16 | .badRequest => 17 | .notReady => 18
  | .notPermitted => 19 | .wrongState => 20 | .clockUnset => 32 | .fileDayFuture => 33 | .alreadyExpired => 34
  | .duplicateFile => 35 | .tableFull => 36 | .noFreeStream => 37 | .noStream => 38 | .notOwner => 39
  | .afterFinal => 40 | .buffersFull => 41 | .noFile => 48 | .fileNotReady => 49 | .fileExpiring => 50
  | .noFreeCursor => 51 | .noCursor => 52 | .noFreeHold => 56 | .trailFull => 57 | .logFull => 58
  | .badSequence => 59 | .lastAdmin => 60

def FileState.code : FileState → Nat
  | .ingesting => 1 | .accepted => 2 | .disputed => 4 | .expiring => 8

def SegmentState.code : SegmentState → Nat
  | .free => 0 | .filling => 1 | .stored => 2 | .suspect => 3

def ByteOrder.code : ByteOrder → Nat
  | .little => 0 | .big => 1

def Rounding.code : Rounding → Nat
  | .truncate => 0 | .up => 1 | .nearest => 2

def OverflowKey.code : OverflowKey → Nat
  | .reject => 0 | .clamp => 1

def ClassKind.code : ClassKind → Nat
  | .data => 0 | .separator => 1 | .recordEnd => 2 | .skip => 3 | .trailerStart => 4 | .illegal => 5

def RejectReason.code : RejectReason → Nat
  | .format => 1 | .overflow => 2 | .illegalByte => 3 | .missingField => 4 | .truncated => 5 | .fileLimit => 6

def CompletionDetail.code : CompletionDetail → Nat
  | .sequenceGap .. => 1 | .mark .. => 2 | .recordRejected .. => 3 | .storeFull => 4 | .closedClean .. => 5
  | .closedDisputed .. => 6 | .timeout => 7 | .aborted _ => 8

def FindingKind.code : FindingKind → Nat
  | .checkMismatch => 1 | .countMismatch => 2 | .durationMismatch => 3 | .malformed => 4 | .readError => 5
  | .writeError => 6

def FindingSource.code : FindingSource → Nat
  | .sweep => 1 | .retrieval => 2 | .encoder => 3

def ClockState.code : ClockState → Nat
  | .unset => 0 | .reference => 1 | .holdover => 2

def PassState.code : PassState → Nat
  | .idle => 0 | .walking => 1 | .paused => 2 | .waitingTrail => 3

def SweepState.code : SweepState → Nat
  | .stopped => 0 | .active => 1 | .resting => 2 | .frozen => 3 | .waitingLog => 4

def StepOutcome.code : StepOutcome → Nat
  | .none => 0 | .clean => 1 | .damaged => 2 | .discarded => 3

def ControllerState.code : ControllerState → Nat
  | .starting => 0 | .ready => 1

/-! ## Entries -/

/-- A digit string in ASCII, first digit first, in a field of `n` bytes (R169). -/
def asciiDigits (n : Nat) (digits : List Nat) : List Byte :=
  padTo n (digits.map (fun d => BitVec.ofNat 8 (48 + d)))

/-- A 72-byte reply record (12.3.1). -/
def Delivered.bytes (o : ByteOrder) (d : Delivered) : List Byte :=
  let r := d.record
  orderedBytes o 4 d.ordinal ++ orderedBytes o 4 r.start ++ orderedBytes o 4 r.duration
    ++ orderedBytes o 4 d.billable ++ oneByte r.calling.length ++ oneByte r.called.length
    ++ asciiDigits 20 r.calling ++ asciiDigits 24 r.called
    ++ orderedBytes o 2 (r.trunkIn.getD 0) ++ orderedBytes o 2 (r.trunkOut.getD 0)
    ++ oneByte (r.cause.getD 0) ++ oneByte r.service
    ++ oneByte (r.trunkIn.isSome.toNat + 2 * r.trunkOut.isSome.toNat + 4 * r.cause.isSome.toNat)
    ++ oneByte (r.clamped.toNat + 2 * d.suspect.toNat + 4 * d.billableClamped.toNat) ++ zeros 2

/-- The detail of a completion entry (12.3.2), before the zeros that fill it up. -/
def CompletionDetail.bytes (o : ByteOrder) : CompletionDetail → List Byte
  | .sequenceGap e r => orderedBytes o 2 e ++ orderedBytes o 2 r
  | .mark v m e =>
    [v] ++ oneByte m ++ oneByte e.kind.code ++ yesNo e.includeInCheck ++ oneByte e.nextMode ++ yesNo e.hold
  | .recordRejected n r => orderedBytes o 4 n ++ oneByte r.code
  | .storeFull => []
  | .timeout => []
  | .aborted portReset => oneByte (if portReset then 2 else 1)
  | .closedClean a r d =>
    zeros 4 ++ orderedBytes o 4 a ++ orderedBytes o 4 r ++ orderedBytes o 8 d
  | .closedDisputed w a r d t =>
    oneByte w.code ++ yesNo t.isSome ++ zeros 2 ++ orderedBytes o 4 a ++ orderedBytes o 4 r ++ orderedBytes o 8 d
      ++ (match t with
        | some t => orderedBytes o 4 t.count ++ orderedBytes o 4 t.check ++ orderedBytes o 8 t.duration
        | none => zeros 16)

/-- A 48-byte completion entry (12.3.2). -/
def Completion.bytes (o : ByteOrder) (e : Completion) : List Byte :=
  padTo 48 (oneByte e.port.val ++ oneByte e.stream.val ++ oneByte e.detail.code ++ zeros 1
    ++ orderedBytes o 2 e.switchId ++ orderedBytes o 2 e.sequence ++ e.detail.bytes o)

/-- A 40-byte finding (12.3.3). -/
def Finding.bytes (o : ByteOrder) (f : Finding) : List Byte :=
  oneByte f.kind.code ++ oneByte f.source.code ++ zeros 2 ++ orderedBytes o 4 f.segment
    ++ orderedBytes o 4 f.fileIndex ++ orderedBytes o 2 f.switchId ++ orderedBytes o 2 f.sequence
    ++ orderedBytes o 4 f.clock ++ yesNo f.values.isSome ++ zeros 3
    ++ (match f.values with
      | some (x, y) => orderedBytes o 8 x ++ orderedBytes o 8 y
      | none => zeros 16)

/-- A trail entry of a FETCH TRAIL reply: the canonical form in its fixed order, then the chain value in the port's
byte order (R169). -/
def TrailEntry.bytes (o : ByteOrder) (e : TrailEntry) : List Byte := e.canonical ++ orderedBytes o 4 e.chain

/-- A 12-byte file reference of a LIST FILES reply (12.3). -/
def FileReference.bytes (o : ByteOrder) (r : FileReference) : List Byte :=
  orderedBytes o 4 r.fileIndex ++ orderedBytes o 2 r.switchId ++ orderedBytes o 2 r.sequence
    ++ orderedBytes o 2 r.fileDay ++ oneByte r.state.code ++ zeros 1

/-- An optional trailer: presence, count, duration, check (12.1, R169). -/
def trailerBytes (o : ByteOrder) : Option Trailer → List Byte
  | some t => 1 :: (orderedBytes o 4 t.count ++ orderedBytes o 8 t.duration ++ orderedBytes o 4 t.check)
  | none => zeros 17

/-- The fields of a File Table entry in the order of the table of 1.2 (R18, R169). -/
def File.bytes (o : ByteOrder) (i : Nat) (f : File) : List Byte :=
  orderedBytes o 4 i ++ orderedBytes o 2 f.switchId ++ orderedBytes o 2 f.sequence ++ orderedBytes o 2 f.fileDay
    ++ oneByte f.retentionClass ++ oneByte f.profile ++ oneByte f.rounding.code ++ oneByte f.overflow.code
    ++ oneByte f.state.code ++ optionalBytes o 4 f.firstSegment ++ optionalBytes o 4 f.lastSegment
    ++ orderedBytes o 2 f.segmentCount ++ orderedBytes o 4 f.recordCount ++ orderedBytes o 4 f.rejectedCount
    ++ orderedBytes o 8 f.durationTotal ++ trailerBytes o f.trailer ++ oneByte f.reasons.code
    ++ orderedBytes o 2 f.suspectCount ++ yesNo f.lossAccepted ++ oneByte f.pinCount ++ oneByte f.openingPort.val
    ++ optionalBytes o 4 f.acceptedAt

/-- A switch selector (12.1). -/
def selectorBytes (o : ByteOrder) : Option Nat → List Byte
  | some w => orderedBytes o 2 w
  | none => orderedBytes o 2 65535

/-- An optional reference label, 18 bytes, an absent one as zeros (12.1). The label bytes beyond the label length are zeros,
whatever PLACE HOLD carried there: DESIGN CHOICE, the spec gives them no value (log entry 7). -/
def labelBytes : Option (List Byte) → List Byte
  | some l => [1] ++ oneByte l.length ++ padTo 16 l
  | none => zeros 18

/-- A Hold Table entry of a PART STATUS reply (R162); FREE is 0 and ACTIVE 1, DESIGN CHOICE (log entry 7). -/
def Hold.bytes (o : ByteOrder) (h : Hold) : List Byte :=
  yesNo h.active ++ selectorBytes o h.selector ++ orderedBytes o 2 h.firstDay ++ orderedBytes o 2 h.lastDay
    ++ oneByte h.placingPort.val ++ labelBytes h.label

/-- The settings of one port with its link state (R162). -/
def portBytes (e : Bool × PortSettings) : List Byte :=
  yesNo e.1 ++ oneByte e.2.roles.code ++ oneByte e.2.byteOrder.code ++ oneByte e.2.streamTimeout
    ++ oneByte e.2.cursorTimeout

/-- The snapshot of PART STATUS in the order of its table (R162, R169). -/
def PartStatus.bytes (o : ByteOrder) (t : PartStatus) : List Byte :=
  orderedBytes o 2 t.partCode ++ [t.revision] ++ oneByte t.controller.code
    ++ t.ports.flatMap portBytes ++ oneByte t.requester.val
    ++ yesNo t.alarms.storeFull ++ yesNo t.alarms.clockUnset ++ yesNo t.alarms.holdover ++ yesNo t.alarms.atLimit
    ++ orderedBytes o 4 t.clock.value ++ oneByte t.clock.state.code ++ yesNo t.clock.referencePresent
    ++ yesNo t.clock.atLimit
    ++ orderedBytes o 4 t.filesHeld ++ orderedBytes o 4 t.freeSegments
    ++ oneByte t.streamsBusy ++ orderedBytes o 2 t.stagingRecords ++ oneByte t.completions
    ++ oneByte t.completionsOfPort
    ++ t.retention.flatMap (orderedBytes o 2) ++ oneByte t.activeHolds ++ t.holds.flatMap (Hold.bytes o)
    ++ oneByte t.pass.state.code ++ orderedBytes o 4 t.pass.position ++ yesNo t.pass.paused ++ yesNo t.pass.again
    ++ oneByte t.sweepState.code ++ orderedBytes o 4 t.sweepPosition ++ orderedBytes o 4 t.cycles
    ++ optionalBytes o 4 t.visit ++ oneByte t.findings ++ orderedBytes o 2 t.window ++ orderedBytes o 2 t.rest
    ++ yesNo t.freeze
    ++ oneByte t.trailHeld ++ orderedBytes o 4 t.trailNext ++ oneByte t.openCursors

/-- A Segment Catalogue entry of a SEGMENT INFO reply (R20): what a FREE segment does not carry is left out, and the
unreported flag is carried for a SUSPECT one. DESIGN CHOICE (log entry 7). -/
def segmentBytes (o : ByteOrder) (e : Segment) (switchId sequence : Nat) : List Byte :=
  oneByte e.state.code ++ orderedBytes o 2 e.allocation
    ++ (if e.state = .free then []
      else orderedBytes o 4 e.fileIndex ++ orderedBytes o 2 switchId ++ orderedBytes o 2 sequence
        ++ orderedBytes o 2 e.ordinal ++ optionalBytes o 4 e.next
        ++ orderedBytes o 4 e.figures.recordCount ++ orderedBytes o 8 e.figures.durationSum
        ++ orderedBytes o 4 e.figures.encodedLength ++ orderedBytes o 4 e.figures.check
        ++ orderedBytes o 4 e.figures.baseTime)
    ++ (if e.state = .suspect then yesNo e.unreported else [])

/-! ## Bodies and frames -/

/-- The body of a reply (12.3, R169). -/
def ReplyBody.bytes (o : ByteOrder) : ReplyBody → List Byte
  | .empty => []
  | .opened x i => oneByte x.val ++ zeros 3 ++ orderedBytes o 4 i
  | .cursorOpened c st r i n k =>
    oneByte c.val ++ oneByte st.code ++ oneByte r.code ++ zeros 1 ++ orderedBytes o 4 i ++ orderedBytes o 4 n
      ++ orderedBytes o 4 k
  | .records ds skipped next =>
    oneByte ds.length ++ zeros 3 ++ orderedBytes o 4 skipped ++ orderedBytes o 4 next
      ++ ds.flatMap (Delivered.bytes o)
  | .completions es n => oneByte es.length ++ oneByte n ++ es.flatMap (Completion.bytes o)
  | .findings es n => oneByte es.length ++ oneByte n ++ es.flatMap (Finding.bytes o)
  | .trail es held base =>
    oneByte es.length ++ oneByte held ++ zeros 2 ++ orderedBytes o 4 base ++ es.flatMap (TrailEntry.bytes o)
  | .acknowledged removed held => oneByte removed ++ oneByte held
  | .stepped out n seg => oneByte out.code ++ oneByte n ++ zeros 2 ++ orderedBytes o 4 seg
  | .files rs c => oneByte rs.length ++ optionalBytes o 4 c ++ rs.flatMap (FileReference.bytes o)
  | .fileInfo i f n e d =>
    f.bytes o i ++ orderedBytes o 4 n ++ optionalBytes o 2 e ++ optionalBytes o 4 d
  | .segmentInfo e w q => segmentBytes o e w q
  | .sweepSettings w r f => orderedBytes o 2 w ++ orderedBytes o 2 r ++ yesNo f
  | .retentionSet d => orderedBytes o 2 d
  | .holdPlaced h => oneByte h
  | .expireOutcome again => yesNo again
  | .clockSet old new st => orderedBytes o 4 old ++ orderedBytes o 4 new ++ oneByte st.code
  | .status t => t.bytes o

/-- A reply frame (10.2, 12.2): tag, status, body length, body. -/
def Reply.frame (r : Reply) : List Byte :=
  let body := r.body.bytes r.order
  [r.tag] ++ oneByte r.status.code ++ orderedBytes r.order 2 body.length ++ body

end Sys2Proof.Machine
end

