-- ==== Sys2Proof/WellFormed.lean ====
section
/-! DEFINITION. What a command must satisfy to be one the part can be sent: the form of its frame (12.2), and the bounds
of what the Store Port reports. -/

namespace Sys2Proof

/-- The body lengths the table of 12.2 allows for a kind code; no length for a code outside it. -/
def bodyLengthOk (kind n : Nat) : Bool :=
  match kind with
  | 1 => n = 8 | 2 => 3 ≤ n ∧ n ≤ 16387 | 3 => n = 6 | 4 => n = 1
  | 8 => n = 9 | 9 => n = 3 | 10 => n = 1
  | 16 => n = 0 | 17 => n = 0 | 18 => n = 4 | 19 => n = 5 | 20 => n = 0 | 21 => n = 0 | 22 => n = 0 | 23 => n = 0
  | 32 => 9 ≤ n ∧ n ≤ 1029 ∧ n % 4 = 1
  | 33 => n = 19 | 34 => n = 3 | 35 => n = 24 | 36 => n = 1 | 37 => n = 0 | 38 => n = 0 | 39 => n = 0
  | 40 => n = 4 | 41 => n = 4 | 42 => n = 4 | 43 => n = 2 | 44 => n = 4 | 45 => n = 0
  | 48 => n = 4 | 49 => n = 12 | 50 => n = 4 | 51 => n = 0 | 52 => n = 0
  | _ => false

/-- The form test of a frame (R168), its length field read in the given way. -/
def frameFormOk (kind : Byte) (length : Nat) (body : List Byte) : Bool :=
  length = body.length && bodyLengthOk kind.toNat body.length

/-- The altered bytes of a read lie in the extent. -/
def ReadReport.wf : ReadReport → Bool
  | .error => true
  | .complete altered => altered.all (fun e => e.1 < 1048576)

/-- Whether a command has the form of its row: a request's body has a length its kind allows (another is
UNKNOWN_REQUEST_FRAME), an unknown frame fails the form test in one of the byte orders, and what a read or a failed write
reports stays within the extent. -/
def Instr.wf : Instr → Bool
  | .ingestChunk _ _ _ _ _ chunk => chunk.length ≤ 16384
  | .loadClassEntries _ _ _ _ _ _ entries => 1 ≤ entries.length ∧ entries.length ≤ 256
  | .loadFieldMap _ _ _ targets _ _ => targets.length = 16
  | .placeHold _ _ _ _ _ _ _ label => label.length = 16
  | .unknownRequestFrame _ _ kind length body =>
    !(frameFormOk kind (length.first.toNat + 256 * length.second.toNat) body
      && frameFormOk kind (256 * length.first.toNat + length.second.toNat) body)
  | .storeWriteError left => left.length ≤ 1048576
  | .sweepReadComplete report => report.wf
  | .retrievalReadComplete report => report.wf
  | _ => true

end Sys2Proof
end

