-- ==== Sys2Proof/Decode.lean ====
section
/-! DEFINITION. From bytes to commands. No row of spec/opcode_table.json has bits, so a table word spells no command. A
request does have a frame (12.2): `readFrame` reads one as a Station Link Unit does (R168), and `writeFrame` is a
station's writing of it. -/

namespace Sys2Proof

/-- The command a table word spells: none, as the table gives its rows no bits. -/
def decodeTableWord (_nbits _w : Nat) : Option Instr := none

/-! ## Writing a frame -/

def Wire16.bytes (w : Wire16) : List Byte := [w.first, w.second]
def Wire32.bytes (w : Wire32) : List Byte := [w.first, w.second, w.third, w.fourth]
def WireClassEntry.bytes (e : WireClassEntry) : List Byte := [e.kind, e.includeInCheck, e.nextMode, e.hold]

/-- The port, tag, kind code and body of a request (12.2); none for a command that is no request of the table. -/
def Instr.request : Instr → Option (PortId × Byte × Byte × List Byte)
  | .openFile p t w q d c f => some (p, t, 1, w.bytes ++ q.bytes ++ d.bytes ++ [c, f])
  | .ingestChunk p t x f m chunk => some (p, t, 2, [x, f, m] ++ chunk)
  | .resumeStream p t x a k i m h => some (p, t, 3, [x, a, k, i, m, h])
  | .abortStream p t x => some (p, t, 4, [x])
  | .openCursor p t w q a k => some (p, t, 8, w.bytes ++ q.bytes ++ [a] ++ k.bytes)
  | .fetchRecords p t c n => some (p, t, 9, [c] ++ n.bytes)
  | .closeCursor p t c => some (p, t, 10, [c])
  | .fetchFindings p t => some (p, t, 16, [])
  | .fetchTrail p t => some (p, t, 17, [])
  | .ackTrail p t q => some (p, t, 18, q.bytes)
  | .setSweepSettings p t w r f => some (p, t, 19, w.bytes ++ r.bytes ++ [f])
  | .startSweep p t => some (p, t, 20, [])
  | .stopSweep p t => some (p, t, 21, [])
  | .stepSweep p t => some (p, t, 22, [])
  | .restartSweep p t => some (p, t, 23, [])
  | .loadClassEntries p t f m b n es => some (p, t, 32, [f, m, b] ++ n.bytes ++ es.flatMap WireClassEntry.bytes)
  | .loadFieldMap p t f ts r k => some (p, t, 33, [f] ++ ts ++ [r, k])
  | .setRetention p t c d => some (p, t, 34, [c] ++ d.bytes)
  | .placeHold p t w a b lp ll l => some (p, t, 35, w.bytes ++ a.bytes ++ b.bytes ++ [lp, ll] ++ l)
  | .releaseHold p t h => some (p, t, 36, [h])
  | .expireNow p t => some (p, t, 37, [])
  | .pauseExpiry p t => some (p, t, 38, [])
  | .resumeExpiry p t => some (p, t, 39, [])
  | .clearDispute p t w q => some (p, t, 40, w.bytes ++ q.bytes)
  | .acceptLoss p t w q => some (p, t, 41, w.bytes ++ q.bytes)
  | .setClock p t v => some (p, t, 42, v.bytes)
  | .setRoles p t x r => some (p, t, 43, [x, r])
  | .setPortSettings p t x o a b => some (p, t, 44, [x, o, a, b])
  | .moduleReset p t => some (p, t, 45, [])
  | .fileInfo p t w q => some (p, t, 48, w.bytes ++ q.bytes)
  | .listFiles p t w a b st k n => some (p, t, 49, w.bytes ++ a.bytes ++ b.bytes ++ [st] ++ k.bytes ++ [n])
  | .segmentInfo p t n => some (p, t, 50, n.bytes)
  | .fetchCompletions p t => some (p, t, 51, [])
  | .partStatus p t => some (p, t, 52, [])
  | .unknownRequestFrame .. | .damagedFrameDiscarded .. | .linkLoss _ | .linkReset _ | .linkEstablished _
  | .resetInputAsserted _ | .resetInputReleased | .powerOn | .startupCleanup | .referencePulse _ | .internalSecond
  | .streamCountdownExpiry _ | .cursorIdleExpiry _ | .sweepRestExpiry | .streamByte _ | .blockedStreamResumed
  | .completionWaitServed | .encoderTakeHead | .storeFullWaitRetry | .imageWaitEnd | .storeWriteComplete
  | .storeWriteError _ | .closeAcknowledgement _ | .closingStreamTrailRetry _ | .abortReached _ | .sweepLook
  | .sweepLogRoom | .sweepReadComplete _ | .retrievalReadComplete _ | .passVisit | .passTrailRetry | .powerLoss => none

/-- The frame of a request on a port of a byte order (12.2, R155): tag, kind, body length, body. -/
def writeFrame (o : Machine.ByteOrder) (i : Instr) : Option (List Byte) :=
  i.request.map (fun (_, tag, kind, body) => [tag, kind] ++ Machine.orderedBytes o 2 body.length ++ body)

/-! ## Reading a frame -/

/-- Class entries of four bytes each. -/
def readWireEntries : List Byte → Option (List WireClassEntry)
  | [] => some []
  | a :: b :: c :: d :: rest => (readWireEntries rest).map (fun es => ⟨a, b, c, d⟩ :: es)
  | _ => none

/-- The body of LOAD FIELD MAP after the profile: 16 targets, rounding mode, overflow key. -/
def readMapBody (p : PortId) (t f : Byte) (rest : List Byte) : Option Instr :=
  match rest.drop 16 with
  | [r, k] => some (.loadFieldMap p t f (rest.take 16) r k)
  | _ => none

/-- The request a kind code and a body spell; none fails the form test (12.2, R168). -/
def readBody (p : PortId) (t : Byte) (kind : Byte) (body : List Byte) : Option Instr :=
  match kind.toNat with
  | 1 => match body with
    | [a, b, c, d, e, f, g, h] => some (.openFile p t ⟨a, b⟩ ⟨c, d⟩ ⟨e, f⟩ g h) | _ => none
  | 2 => match body with
    | x :: f :: m :: chunk => if chunk.length ≤ 16384 then some (.ingestChunk p t x f m chunk) else none | _ => none
  | 3 => match body with | [x, a, k, i, m, h] => some (.resumeStream p t x a k i m h) | _ => none
  | 4 => match body with | [x] => some (.abortStream p t x) | _ => none
  | 8 => match body with
    | [a, b, c, d, e, f, g, h, i] => some (.openCursor p t ⟨a, b⟩ ⟨c, d⟩ e ⟨f, g, h, i⟩) | _ => none
  | 9 => match body with | [c, a, b] => some (.fetchRecords p t c ⟨a, b⟩) | _ => none
  | 10 => match body with | [c] => some (.closeCursor p t c) | _ => none
  | 16 => match body with | [] => some (.fetchFindings p t) | _ => none
  | 17 => match body with | [] => some (.fetchTrail p t) | _ => none
  | 18 => match body with | [a, b, c, d] => some (.ackTrail p t ⟨a, b, c, d⟩) | _ => none
  | 19 => match body with | [a, b, c, d, f] => some (.setSweepSettings p t ⟨a, b⟩ ⟨c, d⟩ f) | _ => none
  | 20 => match body with | [] => some (.startSweep p t) | _ => none
  | 21 => match body with | [] => some (.stopSweep p t) | _ => none
  | 22 => match body with | [] => some (.stepSweep p t) | _ => none
  | 23 => match body with | [] => some (.restartSweep p t) | _ => none
  | 32 => match body with
    | f :: m :: b :: x :: y :: rest =>
      match readWireEntries rest with
      | some es =>
        if 1 ≤ es.length ∧ es.length ≤ 256 then some (.loadClassEntries p t f m b ⟨x, y⟩ es) else none
      | none => none
    | _ => none
  | 33 => match body with | f :: rest => readMapBody p t f rest | _ => none
  | 34 => match body with | [c, a, b] => some (.setRetention p t c ⟨a, b⟩) | _ => none
  | 35 => match body with
    | a :: b :: c :: d :: e :: f :: lp :: ll :: l =>
      if l.length = 16 then some (.placeHold p t ⟨a, b⟩ ⟨c, d⟩ ⟨e, f⟩ lp ll l) else none
    | _ => none
  | 36 => match body with | [h] => some (.releaseHold p t h) | _ => none
  | 37 => match body with | [] => some (.expireNow p t) | _ => none
  | 38 => match body with | [] => some (.pauseExpiry p t) | _ => none
  | 39 => match body with | [] => some (.resumeExpiry p t) | _ => none
  | 40 => match body with | [a, b, c, d] => some (.clearDispute p t ⟨a, b⟩ ⟨c, d⟩) | _ => none
  | 41 => match body with | [a, b, c, d] => some (.acceptLoss p t ⟨a, b⟩ ⟨c, d⟩) | _ => none
  | 42 => match body with | [a, b, c, d] => some (.setClock p t ⟨a, b, c, d⟩) | _ => none
  | 43 => match body with | [x, r] => some (.setRoles p t x r) | _ => none
  | 44 => match body with | [x, o, a, b] => some (.setPortSettings p t x o a b) | _ => none
  | 45 => match body with | [] => some (.moduleReset p t) | _ => none
  | 48 => match body with | [a, b, c, d] => some (.fileInfo p t ⟨a, b⟩ ⟨c, d⟩) | _ => none
  | 49 => match body with
    | [a, b, c, d, e, f, st, g, h, i, j, n] =>
      some (.listFiles p t ⟨a, b⟩ ⟨c, d⟩ ⟨e, f⟩ st ⟨g, h, i, j⟩ n)
    | _ => none
  | 50 => match body with | [a, b, c, d] => some (.segmentInfo p t ⟨a, b, c, d⟩) | _ => none
  | 51 => match body with | [] => some (.fetchCompletions p t) | _ => none
  | 52 => match body with | [] => some (.partStatus p t) | _ => none
  | _ => none

/-- A frame as the Station Link Unit reads it (R168): a length field that differs from the body, a length or a kind
outside the table gives UNKNOWN_REQUEST_FRAME. Fewer than four bytes carry no tag to refuse under: such a frame is taken
as damaged, DESIGN CHOICE (log entry 21). -/
def readFrame (o : Machine.ByteOrder) (p : PortId) (frame : List Byte) : Instr :=
  match frame with
  | t :: kind :: x :: y :: body =>
    if Machine.wire16 o ⟨x, y⟩ = body.length then
      (readBody p t kind body).getD (.unknownRequestFrame p t kind ⟨x, y⟩ body)
    else .unknownRequestFrame p t kind ⟨x, y⟩ body
  | short => .damagedFrameDiscarded p short

end Sys2Proof
end

