-- ==== Sys2Proof/Machine/Codec.lean ====
section
/-! DEFINITION. The record encoding of a segment's payload and its decoding (R78 to R83), and the 64-byte segment
header (R170). -/

namespace Sys2Proof.Machine

/-! ## Encoding -/

/-- The signed start delta mapped onto an unsigned number (R78). -/
def zigzag (d : Int) : Nat := if 0 ≤ d then 2 * d.toNat else 2 * (-d).toNat - 1

/-- The delta recovered from its unsigned number (R83). -/
def unzigzag (z : Nat) : Int := if z % 2 = 0 then Int.ofNat (z / 2) else -Int.ofNat (z / 2 + 1)

/-- A varint of at most `n + 1` bytes (R79): seven-bit groups, least significant first, 128 added while more follow.
Five bytes hold every number the Encoder writes. -/
def varint : Nat → Nat → List Byte
  | 0, v => [BitVec.ofNat 8 v]
  | n + 1, v => if v < 128 then [BitVec.ofNat 8 v] else BitVec.ofNat 8 (v % 128 + 128) :: varint n (v / 128)

/-- A varint of at most five bytes. -/
def varintBytes (v : Nat) : List Byte := varint 4 v

/-- How many leading digits two numbers share (R80). -/
def sharedDigits : List Nat → List Nat → Nat
  | a :: as, b :: bs => if a = b then sharedDigits as bs + 1 else 0
  | _, _ => 0

/-- Digits packed two to a byte, an odd last one paired with 15 (R80). -/
def packDigits : List Nat → List Byte
  | [] => []
  | [d] => [BitVec.ofNat 8 (d * 16 + 15)]
  | d :: e :: rest => BitVec.ofNat 8 (d * 16 + e) :: packDigits rest

/-- A calling or called number against the previous record's (R80). -/
def encodeNumber (previous number : List Nat) : List Byte :=
  let p := sharedDigits previous number
  let tail := number.drop p
  oneByte p ++ oneByte tail.length ++ packDigits tail

/-- The lead byte (R78). -/
def leadByte (r : CallRecord) : Nat :=
  r.trunkIn.isSome.toNat + 2 * r.trunkOut.isSome.toNat + 4 * r.cause.isSome.toNat + 8 * r.clamped.toNat
    + 16 * r.service

/-- An optional trunk (R81). -/
def encodeTrunk : Option Nat → List Byte
  | some t => varintBytes t
  | none => []

/-- The encoding of a record against a previous one (4.4, R78 to R81). -/
def encodeRecord (previous : Previous) (r : CallRecord) : List Byte :=
  oneByte (leadByte r)
    ++ varintBytes (zigzag (Int.ofNat r.start - Int.ofNat previous.start))
    ++ varintBytes r.duration
    ++ encodeNumber previous.calling r.calling
    ++ encodeNumber previous.called r.called
    ++ encodeTrunk r.trunkIn ++ encodeTrunk r.trunkOut
    ++ (match r.cause with | some c => oneByte c | none => [])

/-- What the first record of a segment is encoded against: its own start time and empty numbers (4.4). -/
def firstPrevious (start : Nat) : Previous := { start }

/-- A record as the previous one of the next. -/
def CallRecord.asPrevious (r : CallRecord) : Previous := ⟨r.start, r.calling, r.called⟩

/-- The encodings of records one after another (4.4). -/
def encodeRecords (previous : Previous) : List CallRecord → List Byte
  | [] => []
  | r :: rest => encodeRecord previous r ++ encodeRecords r.asPrevious rest

/-! ## Decoding (R83); `none` is a malformed payload -/

/-- A varint of at most `n` bytes. -/
def decodeVarint : Nat → List Byte → Option (Nat × List Byte)
  | 0, _ => none
  | _, [] => none
  | n + 1, b :: rest =>
    if b.toNat < 128 then some (b.toNat, rest)
    else match decodeVarint n rest with
      | some (v, left) => some (b.toNat - 128 + 128 * v, left)
      | none => none

/-- `r` digits unpacked from the front of the bytes. A packed digit above 9 is malformed, but for 15 as the second
digit of the last byte of an odd tail. -/
def unpackDigits : Nat → List Byte → Option (List Nat × List Byte)
  | 0, bytes => some ([], bytes)
  | _ + 1, [] => none
  | 1, b :: rest =>
    let d := b.toNat / 16
    let e := b.toNat % 16
    if d ≤ 9 ∧ (e ≤ 9 ∨ e = 15) then some ([d], rest) else none
  | r + 2, b :: rest =>
    let d := b.toNat / 16
    let e := b.toNat % 16
    if d ≤ 9 ∧ e ≤ 9 then
      match unpackDigits r rest with
      | some (ds, left) => some (d :: e :: ds, left)
      | none => none
    else none

/-- A calling or called number against the previous one, of `low` to `high` digits. -/
def decodeNumber (previous : List Nat) (low high : Nat) : List Byte → Option (List Nat × List Byte)
  | p :: r :: rest =>
    if p.toNat ≤ previous.length ∧ low ≤ p.toNat + r.toNat ∧ p.toNat + r.toNat ≤ high then
      match unpackDigits r.toNat rest with
      | some (ds, left) => some (previous.take p.toNat ++ ds, left)
      | none => none
    else none
  | _ => none

/-- An optional trunk, at most 65,535. -/
def decodeTrunk (present : Bool) (bytes : List Byte) : Option (Option Nat × List Byte) :=
  if present then
    match decodeVarint 5 bytes with
    | some (t, left) => if t ≤ 65535 then some (some t, left) else none
    | none => none
  else some (none, bytes)

/-- An optional cause. -/
def decodeCause (present : Bool) : List Byte → Option (Option Nat × List Byte)
  | [] => if present then none else some (none, [])
  | b :: rest => if present then some (some b.toNat, rest) else some (none, b :: rest)

/-- A start time from the previous one and a delta, within the clock range. -/
def decodeStart (previous z : Nat) : Option Nat :=
  let t := Int.ofNat previous + unzigzag z
  if 0 ≤ t ∧ t ≤ Int.ofNat Config.clockLimit then some t.toNat else none

/-- One record against the previous one, with the bytes that remain. -/
def decodeRecord (previous : Previous) (bytes : List Byte) : Option (CallRecord × List Byte) := do
  let lead ← bytes.head?
  let (z, bytes) ← decodeVarint 5 bytes.tail
  let start ← decodeStart previous.start z
  let (duration, bytes) ← decodeVarint 5 bytes
  let duration ← upTo Config.recordDurationLimit duration
  let (calling, bytes) ← decodeNumber previous.calling 0 20 bytes
  let (called, bytes) ← decodeNumber previous.called 1 24 bytes
  let (trunkIn, bytes) ← decodeTrunk (lead.getLsbD 0) bytes
  let (trunkOut, bytes) ← decodeTrunk (lead.getLsbD 1) bytes
  let (cause, bytes) ← decodeCause (lead.getLsbD 2) bytes
  some (⟨start, duration, calling, called, trunkIn, trunkOut, cause, lead.toNat / 16, lead.getLsbD 3⟩, bytes)

/-- Records until the bytes are consumed, at most `n` of them. -/
def decodeRecords : Nat → Previous → List Byte → Option (List CallRecord)
  | _, _, [] => some []
  | 0, _, _ :: _ => none
  | n + 1, previous, b :: bytes =>
    match decodeRecord previous (b :: bytes) with
    | some (r, left) =>
      match decodeRecords n r.asPrevious left with
      | some rs => some (r :: rs)
      | none => none
    | none => none

/-- The decode of a payload against its figures (R83): exactly the record count of the catalogue. -/
def decodePayload (figures : Figures) (payload : List Byte) : Option (List CallRecord) :=
  match decodeRecords payload.length (firstPrevious figures.baseTime) payload with
  | some rs => if rs.length = figures.recordCount then some rs else none
  | none => none

/-- The sum of records' duration tenths. -/
def durationSumOf (rs : List CallRecord) : Nat := (rs.map CallRecord.duration).sum

/-! ## The segment header (R170), every number most significant byte first -/

/-- What a header names and carries. -/
structure Header where
  segment : Nat
  allocation : Nat
  ordinal : Nat
  fileIndex : Nat
  switchId : Nat
  sequence : Nat
  figures : Figures
  deriving DecidableEq, Repr

/-- The 64 header bytes. -/
def Header.bytes (h : Header) : List Byte :=
  beBytes 4 h.segment ++ beBytes 2 h.allocation ++ beBytes 2 h.ordinal ++ beBytes 4 h.fileIndex
    ++ beBytes 2 h.switchId ++ beBytes 2 h.sequence ++ beBytes 4 h.figures.recordCount
    ++ beBytes 4 h.figures.encodedLength ++ beBytes 8 h.figures.durationSum ++ beBytes 4 h.figures.check
    ++ beBytes 4 h.figures.baseTime ++ zeros 24

/-- The header that 64 bytes spell. -/
def readHeader (bytes : List Byte) : Header :=
  let field (offset n : Nat) := beNat ((bytes.drop offset).take n)
  { segment := field 0 4, allocation := field 4 2, ordinal := field 6 2, fileIndex := field 8 4,
    switchId := field 12 2, sequence := field 14 2,
    figures := { recordCount := field 16 4, encodedLength := field 20 4, durationSum := field 24 8,
                 check := field 32 4, baseTime := field 36 4 } }

end Sys2Proof.Machine
end

