-- ==== Sys2Proof/Machine/Conversion.lean ====
section
/-! DEFINITION. Field conversion (R60 to R65): field texts into a normalised call record under a field map, and the
judgement of a closed trailer (R59). -/

namespace Sys2Proof.Machine

/-- The digit a byte value is, '0'–'9' being 48–57 (3.5). -/
def digitOf (b : Byte) : Option Nat := if 48 ≤ b.toNat ∧ b.toNat ≤ 57 then some (b.toNat - 48) else none

/-- The digits of a text, none if it holds a non-digit. -/
def digitsOf : List Byte → Option (List Nat)
  | [] => some []
  | b :: rest =>
    match digitOf b, digitsOf rest with
    | some d, some ds => some (d :: ds)
    | _, _ => none

/-- The decimal number that digits spell, leading zeros allowed (R61). -/
def decimal (digits : List Nat) : Nat := digits.foldl (fun acc d => acc * 10 + d) 0

/-- The result of one column (R60): the record with the value put in, the record with the clamped value an OVERFLOW
states, or a reason that always rejects. -/
inductive Converted where
  | value (r : CallRecord)
  | overflow (clampedTo : CallRecord)
  | bad (reason : RejectReason)
  deriving DecidableEq, Repr

/-- A decimal text against a maximum: absent if empty, none for a non-digit, otherwise its value, or an overflow (also
when its long flag is set, R65). -/
inductive Number where
  | absent
  | format
  | value (n : Nat)
  | overflow
  deriving DecidableEq, Repr

/-- A decimal text read (R61, R65). -/
def readNumber (maximum : Nat) (t : FieldText) : Number :=
  if t.bytes.isEmpty then .absent
  else match digitsOf t.bytes with
  | none => .format
  | some ds => if t.long ∨ maximum < decimal ds then .overflow else .value (decimal ds)

/-- TRUNK_IN, TRUNK_OUT, CAUSE and SERVICE (R61): `put` is how the record takes the value, `absent` what an empty text
gives. -/
def convertDecimal (maximum : Nat) (put : Nat → CallRecord) (absent : CallRecord) (t : FieldText) : Converted :=
  match readNumber maximum t with
  | .absent => .value absent
  | .format => .bad .format
  | .value n => .value (put n)
  | .overflow => .overflow (put maximum)

/-- START_EPOCH (R61). -/
def convertEpoch (r : CallRecord) (t : FieldText) : Converted :=
  match readNumber Config.clockLimit t with
  | .absent => .bad .missingField
  | .format => .bad .format
  | .value n => .value { r with start := n }
  | .overflow => .overflow { r with start := Config.clockLimit }

/-- START_CLOCK (R62): exactly six digits HHMMSS of the file day. -/
def convertClock (fileDay : Nat) (r : CallRecord) (t : FieldText) : Converted :=
  if t.bytes.isEmpty then .bad .missingField
  else if t.long then .bad .format
  else match digitsOf t.bytes with
  | some [h, i, m, n, u, v] =>
    let hour := h * 10 + i
    let minute := m * 10 + n
    let second := u * 10 + v
    if hour ≤ 23 ∧ minute ≤ 59 ∧ second ≤ 59 then
      .value { r with start := fileDay * Config.daySeconds + hour * 3600 + minute * 60 + second }
    else .bad .format
  | _ => .bad .format

/-- The bytes before the first point, and those after it if there is one. -/
def splitPoint : List Byte → List Byte × Option (List Byte)
  | [] => ([], none)
  | b :: rest => if b.toNat = 46 then ([], some rest) else ((b :: (splitPoint rest).1), (splitPoint rest).2)

/-- The tenths a DURATION text spells, if it has the form of R63. -/
def durationOf (bytes : List Byte) : Option Nat :=
  match splitPoint bytes with
  | (whole, none) =>
    match digitsOf whole with
    | some ds => if ds.isEmpty then none else some (decimal ds * 10)
    | none => none
  | (whole, some fraction) =>
    match digitsOf whole, digitsOf fraction with
    | some ds, some fs => if ds.isEmpty ∧ fs.isEmpty then none else some (decimal ds * 10 + fs.headD 0)
    | _, _ => none

/-- DURATION (R63, R65). -/
def convertDuration (r : CallRecord) (t : FieldText) : Converted :=
  if t.bytes.isEmpty then .bad .missingField
  else match durationOf t.bytes with
  | none => .bad .format
  | some d =>
    if t.long ∨ Config.recordDurationLimit < d then .overflow { r with duration := Config.recordDurationLimit }
    else .value { r with duration := d }

/-- CALLING (R64, R65): 0–20 digits. -/
def convertCalling (r : CallRecord) (t : FieldText) : Converted :=
  match digitsOf t.bytes with
  | none => .bad .format
  | some ds =>
    if t.long ∨ 20 < ds.length then .overflow { r with calling := ds.take 20 } else .value { r with calling := ds }

/-- CALLED (R64, R65): 1–24 digits. -/
def convertCalled (r : CallRecord) (t : FieldText) : Converted :=
  if t.bytes.isEmpty then .bad .missingField
  else match digitsOf t.bytes with
  | none => .bad .format
  | some ds =>
    if t.long ∨ 24 < ds.length then .overflow { r with called := ds.take 24 } else .value { r with called := ds }

/-- One column under its target (R60 to R65). -/
def convertColumn (fileDay : Nat) (target : FieldTarget) (t : FieldText) (r : CallRecord) : Converted :=
  match target with
  | .startEpoch => convertEpoch r t
  | .startClock => convertClock fileDay r t
  | .duration => convertDuration r t
  | .calling => convertCalling r t
  | .called => convertCalled r t
  | .trunkIn => convertDecimal 65535 (fun n => { r with trunkIn := some n }) { r with trunkIn := none } t
  | .trunkOut => convertDecimal 65535 (fun n => { r with trunkOut := some n }) { r with trunkOut := none } t
  | .cause => convertDecimal 255 (fun n => { r with cause := some n }) { r with cause := none } t
  | .service => convertDecimal 15 (fun n => { r with service := n }) { r with service := 0 } t
  | .ignore => .value r

/-- Columns in ascending order; the first result that rejects gives the reason, and the rest is not converted (R60). -/
def convertColumns (fileDay : Nat) (key : OverflowKey) :
    List (FieldTarget × FieldText) → CallRecord → Except RejectReason CallRecord
  | [], r => .ok r
  | (target, t) :: rest, r =>
    match convertColumn fileDay target t r with
    | .value r => convertColumns fileDay key rest r
    | .overflow r =>
      match key with
      | .reject => .error .overflow
      | .clamp => convertColumns fileDay key rest { r with clamped := true }
    | .bad reason => .error reason

/-- Conversion of the record under construction under a field map (R60). -/
def convertRecord (fileDay : Nat) (key : OverflowKey) (map : Vector FieldTarget 16) (b : RecordBuild) :
    Except RejectReason CallRecord :=
  convertColumns fileDay key (map.toList.zip b.texts.toList) {}

/-- A trailer field as a number, if it is non-empty and all digits (R59). -/
def trailerNumber (bytes : List Byte) (limit : Nat) : Option Nat :=
  match digitsOf bytes with
  | some ds => if bytes.isEmpty then none else upTo limit (decimal ds)
  | none => none

/-- The values of a trailer that closes, if it is well-formed (R59). -/
def TrailerBuild.judge (t : TrailerBuild) : Option Trailer :=
  if t.bad ∨ t.field ≠ 3 then none
  else match trailerNumber t.text1 4294967295, trailerNumber t.text2 Config.durationLimit,
      trailerNumber t.text3 Config.checkLimit with
  | some count, some duration, some check => some ⟨count, duration, check⟩
  | _, _, _ => none

end Sys2Proof.Machine
end

