-- ==== Sys2Proof/Machine/Streams.lean ====
section
/-! DEFINITION. The Ingest Engine (chapters 2 and 3): the Completion Queue and its wait list, the work done for one
byte, buffers, end of input, reconciliation, acceptance and abort. The commands that cause them are in
Machine/IngestCommands.lean. -/

namespace Sys2Proof.Machine

/-- The port that owns a stream; a stream that has no owner has no work to do for one. -/
def Stream.port (st : Stream) : PortId := st.owner.getD 0

/-- Change one stream context. -/
def State.updateStream (s : State) (x : StreamId) (f : Stream → Stream) : State := s.setStream x (f s.streams[x])

/-! ## The Completion Queue (2.9) -/

/-- Add an entry of a stream at the tail (R41). -/
def State.post (s : State) (x : StreamId) (d : CompletionDetail) : State :=
  let st := s.streams[x]
  { s with completions := s.completions ++ [⟨st.port, x, st.switchId.getD 0, st.sequence.getD 0, d⟩] }

/-- Post STORE_FULL for a stream whose notice is set, if there is room; posting it clears the notice (R43). -/
def State.postNotice (s : State) (x : StreamId) : State :=
  let st := s.streams[x]
  if st.storeFullNotice && s.completionRoom st.port then
    { (s.post x .storeFull).updateStream x (fun st => { st with storeFullNotice := false }) with
      waiting := s.waiting.filter (· ≠ WaitItem.notice x) }
  else s

/-- Post an entry if there is room, STORE_FULL before it while the notice is set (R41, R43). The answer says whether the
entry was posted. -/
def State.tryPost (s : State) (x : StreamId) (d : CompletionDetail) : State × Bool :=
  let s := s.postNotice x
  let st := s.streams[x]
  if !st.storeFullNotice && s.completionRoom st.port then (s.post x d, true) else (s, false)

/-- Keep an entry as the pending post and enter POSTING, behind the wait list (R41, R42). -/
def State.waitPost (s : State) (x : StreamId) (d : CompletionDetail) (after : AfterPost) : State :=
  { s.updateStream x (fun st =>
      { st with state := .posting, pending := some ⟨d, after⟩, countdown := .stopped }) with
    waiting := s.waiting ++ [.post x] }

/-- Take a stream off the lists on which it may wait (R33, R35). -/
def State.leaveLists (s : State) (x : StreamId) : State :=
  { s with waiting := s.waiting.filter (fun i => i ≠ WaitItem.post x ∧ i ≠ WaitItem.notice x),
           blocked := s.blocked.filter (· ≠ x) }

/-- A stream becomes IDLE and takes the values of the IDLE table (R22). -/
def State.streamIdle (s : State) (x : StreamId) : State := (s.leaveLists x).setStream x {}

/-! ## Countdown loads (R29) -/

/-- The seconds a stream's inactivity countdown is loaded with: the owning port's stream timeout, read now (R29). -/
def State.streamSeconds (s : State) (x : StreamId) : Nat :=
  timeoutSeconds s.settings.ports[s.streams[x].port].streamTimeout

/-- Enter STARVED or HELD, loading the countdown anew (R29). -/
def State.enterWaiting (s : State) (x : StreamId) (state : StreamState) : State :=
  s.updateStream x (fun st => { st with state, countdown := .load (s.streamSeconds x) })

/-! ## Buffers (2.3) -/

/-- A buffer is free when its fill count is 0 (2.3). -/
def Buffer.isFree (b : Buffer) : Bool := b.bytes.isEmpty

def Stream.buffer (st : Stream) : BufferName → Buffer
  | .principal => st.principal
  | .alternate => st.alternate

def Stream.setBuffer (st : Stream) (n : BufferName) (b : Buffer) : Stream :=
  match n with
  | .principal => { st with principal := b }
  | .alternate => { st with alternate := b }

def BufferName.other : BufferName → BufferName
  | .principal => .alternate
  | .alternate => .principal

/-- The buffer a stream consumes from (R28). -/
def Stream.current (st : Stream) : Buffer := st.buffer st.consumeNext

/-- The next byte to be consumed, if the buffer holds one. -/
def Stream.nextByte (st : Stream) : Option Byte := st.current.bytes[st.current.consumed]?

/-- Raise the consumed count (R28). -/
def Stream.advance (st : Stream) : Stream :=
  st.setBuffer st.consumeNext { st.current with consumed := st.current.consumed + 1 }

/-! ## Reconciliation and acceptance (R39, R40) -/

/-- The dispute reasons of a stream's figures (R39). Whether a TRAILER_START byte was met is read from the parse phase: one
that acted as SKIP under skip-to-record-end (R57) opens no trailer and counts as not met, so the reason is NO_TRAILER.
DEDUCED (log entry 33). -/
def Stream.reasons (st : Stream) : DisputeReasons where
  count := match st.trailer with | some t => t.count ≠ st.accepted + st.rejected | none => false
  duration := match st.trailer with | some t => st.rejected = 0 ∧ t.duration ≠ st.duration | none => false
  check := match st.trailer with | some t => t.check ≠ st.dualSum.value | none => false
  noTrailer := st.phase = .record
  trailerBad := st.phase ≠ .record ∧ st.trailer = none
  rejects := 0 < st.rejected

/-- The closing entry of a verdict (R40). -/
def Stream.closingEntry (st : Stream) (reasons : DisputeReasons) : CompletionDetail :=
  if reasons = {} then .closedClean st.accepted st.rejected st.duration
  else .closedDisputed reasons st.accepted st.rejected st.duration st.trailer

/-- With a verdict formed, append FILE_ACCEPTED and ask for the acceptance in one step, then post the closing entry
(R40); with the trail full, stay CLOSING and wait for room. -/
def State.acceptStream (s : State) (x : StreamId) (reasons : DisputeReasons) : State :=
  let st := s.streams[x]
  if s.trailRoom then
    let i := st.fileIndex.getD 0
    let s := s.record .fileAccepted st.owner
      (.file (st.switchId.getD 0) (st.sequence.getD 0) i reasons) st.accepted
    let s := (s.acceptFile i st.accepted st.rejected st.duration reasons st.trailer s.stamp).getD s
    let s := s.updateStream x (fun st => { st with verdict := none })
    match s.tryPost x (st.closingEntry reasons) with
    | (s, true) => s.streamIdle x
    | (s, false) => s.waitPost x (st.closingEntry reasons) .idle
  else s.updateStream x (fun st => { st with state := .closing, verdict := some reasons })

/-- Reconcile the file and go on to its acceptance (R39, R40). -/
def State.reconcile (s : State) (x : StreamId) : State := s.acceptStream x s.streams[x].reasons

/-! ## Rejection (R66) -/

/-- Reject a record: count it, post RECORD_REJECTED for the file's first reject, and return the record under
construction to its empty form. The answer says whether the stream may go on; if not it is POSTING, with `after` to
follow. -/
def State.rejectRecord (s : State) (x : StreamId) (reason : RejectReason) (after : AfterPost) : State × Bool :=
  let st := s.streams[x]
  let s := s.updateStream x (fun st =>
    { st with rejected := min (st.rejected + 1) Config.rejectedLimit, firstRejectPosted := true,
              record := {}, skip := false })
  if st.firstRejectPosted then (s, true)
  else
    let d := CompletionDetail.recordRejected (st.accepted + st.rejected) reason
    match s.tryPost x d with
    | (s, true) => (s, true)
    | (s, false) => (s.waitPost x d after, false)

/-! ## End of input and exhausted buffers (R28, R38) -/

/-- The rest of the end of input (R38, steps 2 and 3): close an open trailer, place the CLOSE marker, enter CLOSING. -/
def State.closeInput (s : State) (x : StreamId) : State :=
  let s := s.updateStream x (fun st =>
    if st.phase = .trailer then { st with trailer := st.trailerBuild.judge, phase := .afterTrailer } else st)
  { s.updateStream x (fun st => { st with state := .closing }) with staging := s.staging ++ [.close x] }

/-- The end of input (R38): an open record is rejected TRUNCATED first. -/
def State.endOfInput (s : State) (x : StreamId) : State :=
  let st := s.streams[x]
  if st.phase = .record ∧ st.record.begun ∧ !st.skip then
    match s.rejectRecord x .truncated .endOfInput with
    | (s, true) => s.closeInput x
    | (s, false) => s
  else s.closeInput x

/-- What a RUNNING stream does when its buffer is exhausted (R28); nothing before that. -/
def State.exhaust (s : State) (x : StreamId) : State :=
  let st := s.streams[x]
  let b := st.current
  if st.state = .running ∧ !b.isFree ∧ b.bytes.length ≤ b.consumed then
    let s := s.updateStream x (fun st => { st with mode := b.nextMode.getD st.mode })
    if b.final then s.endOfInput x
    else
      let s := s.updateStream x (fun st =>
        { st.setBuffer st.consumeNext {} with consumeNext := st.consumeNext.other })
      if s.streams[x].nextByte.isSome then s else s.enterWaiting x .starved
  else s

/-- Go on after a post was made (R41): the state carried with the post, or the continuation that waited on it. A byte that
is next when the stream runs again, a hold byte too, is left to a later STREAM_BYTE: DEDUCED (log entry 5). -/
def State.afterPost (s : State) (x : StreamId) (after : AfterPost) : State :=
  match after with
  | .running => (s.updateStream x (fun st => { st with state := .running })).exhaust x
  | .starved => s.enterWaiting x .starved
  | .held => s.enterWaiting x .held
  | .idle => s.streamIdle x
  | .endOfInput => s.closeInput x
  | .reconcile => s.reconcile x

/-- Post an entry and go on, or wait for room with what follows (R41). -/
def State.postThen (s : State) (x : StreamId) (d : CompletionDetail) (after : AfterPost) : State :=
  match s.tryPost x d with
  | (s, true) => s.afterPost x after
  | (s, false) => s.waitPost x d after

/-! ## The wait list (R42) -/

/-- Serve one member of the wait list: with room for its port it posts and leaves the list, otherwise it keeps its
place. -/
def State.serveWaiting (s : State) (i : WaitItem) : State :=
  match i with
  | .notice x => s.postNotice x
  | .post x =>
    let st := s.streams[x]
    match st.pending with
    | none => s
    | some q =>
      match s.tryPost x q.detail with
      | (s, true) =>
        let s := { s.updateStream x (fun st => { st with pending := none }) with
                   waiting := s.waiting.filter (· ≠ WaitItem.post x) }
        s.afterPost x q.after
      | (s, false) => s

/-- Walk the wait list from its oldest member (R42). -/
def State.serveWaitList (s : State) : State := s.waiting.foldl State.serveWaiting s

/-- Entries leave the Completion Queue, which then holds `kept`: their removal serves the wait list in the same step
(R42, R44, R45). -/
def State.removeCompletions (s : State) (kept : List Completion) : State :=
  if kept.length < s.completions.length then ({ s with completions := kept }).serveWaitList else s

/-! ## Records (R53 to R57, R67) -/

/-- Append to a text of at most 32 bytes. -/
def FieldText.add (t : FieldText) (b : Byte) : FieldText :=
  if t.bytes.length < 32 then { t with bytes := t.bytes ++ [b] } else { t with long := true }

/-- A DATA byte in the RECORD phase (R53). -/
def RecordBuild.addData (r : RecordBuild) (b : Byte) : RecordBuild :=
  match r.column with
  | some c => { r with begun := true, texts := r.texts.set c (r.texts[c].add b) }
  | none => { r with begun := true }

/-- A SEPARATOR in the RECORD phase (R54): column 15 is followed by BEYOND, which stays BEYOND. -/
def RecordBuild.nextColumn (r : RecordBuild) : RecordBuild :=
  { r with column := match r.column with
      | some c => if h : c.val + 1 < 16 then some ⟨c.val + 1, h⟩ else none
      | none => none }

/-- Append a record to the Staging Queue, raising the stream's counts (R37). -/
def State.stageRecord (s : State) (x : StreamId) (r : CallRecord) : State :=
  { s.updateStream x (fun st =>
      { st with accepted := st.accepted + 1, duration := min (st.duration + r.duration) Config.durationLimit }) with
    staging := s.staging ++ [.record x r] }

/-- Hand an accepted record to the Staging Queue, or keep it as the ready record and enter BLOCKED (R37, R67). -/
def State.handRecord (s : State) (x : StreamId) (r : CallRecord) : State :=
  if s.stagingRoom then s.stageRecord x r
  else { s.updateStream x (fun st => { st with state := .blocked, ready := some r }) with
         blocked := s.blocked ++ [x] }

/-- A RECORD_END byte in the RECORD phase (R55, R60, R66, R67). -/
def State.endRecord (s : State) (x : StreamId) : State :=
  let st := s.streams[x]
  if st.skip ∨ !st.record.begun then s.updateStream x (fun st => { st with record := {}, skip := false })
  else
    let map := s.settings.profiles[st.profile.getD 0].map
    let (day, key) := match s.file (st.fileIndex.getD 0) with
      | some f => (f.fileDay, f.overflow)
      | none => (0, .reject)
    match convertRecord day key map st.record with
    | .error reason => (s.rejectRecord x reason .running).1
    | .ok r =>
      if Config.fileRecordLimit ≤ st.accepted then (s.rejectRecord x .fileLimit .running).1
      else (s.updateStream x (fun st => { st with record := {} })).handRecord x r

/-- A TRAILER_START byte in the RECORD phase (R57). -/
def State.startTrailer (s : State) (x : StreamId) : State :=
  let s := if s.streams[x].record.begun then (s.rejectRecord x .truncated .running).1 else s
  s.updateStream x (fun st => { st with record := {}, phase := .trailer, trailerBuild := {} })

/-- What a byte of an effective kind does in the RECORD phase (R53 to R57). -/
def State.recordByte (s : State) (x : StreamId) (kind : ClassKind) (b : Byte) : State :=
  match kind with
  | .data => s.updateStream x (fun st => { st with record := st.record.addData b })
  | .separator => s.updateStream x (fun st => { st with record := st.record.nextColumn })
  | .recordEnd => s.endRecord x
  | .skip => s
  | .trailerStart => s.startTrailer x
  | .illegal =>
    (s.rejectRecord x .illegalByte .running).1.updateStream x (fun st => { st with record := {}, skip := true })

/-! ## The trailer (R58) -/

/-- A DATA byte in a trailer. -/
def TrailerBuild.addData (t : TrailerBuild) (b : Byte) : TrailerBuild :=
  match t.field with
  | 1 => if t.text1.length < 32 then { t with text1 := t.text1 ++ [b] } else { t with bad := true }
  | 2 => if t.text2.length < 32 then { t with text2 := t.text2 ++ [b] } else { t with bad := true }
  | 3 => if t.text3.length < 32 then { t with text3 := t.text3 ++ [b] } else { t with bad := true }
  | _ => t

/-- A SEPARATOR in a trailer: the field number rises to 4 at most, and at 4 the trailer is bad. -/
def TrailerBuild.nextField (t : TrailerBuild) : TrailerBuild :=
  if t.field < 4 then { t with field := t.field + 1 } else { t with bad := true }

/-- What a byte of a kind does in the TRAILER phase (R58). -/
def Stream.trailerByte (st : Stream) (kind : ClassKind) (b : Byte) : Stream :=
  match kind with
  | .data => { st with trailerBuild := st.trailerBuild.addData b }
  | .separator => { st with trailerBuild := st.trailerBuild.nextField }
  | .recordEnd => { st with trailer := st.trailerBuild.judge, phase := .afterTrailer }
  | .skip => st
  | .illegal => { st with trailerBuild := { st.trailerBuild with bad := true } }
  | .trailerStart => { st with trailerBuild := { st.trailerBuild with bad := true } }

/-! ## One byte (R51) -/

/-- The class entry at a mode and byte value in a stream's profile, read now (R49). -/
def State.classEntry (s : State) (x : StreamId) (b : Byte) : ClassEntry :=
  let st := s.streams[x]
  Sparse.get {} (st.mode * 256 + b.toNat) s.settings.profiles[st.profile.getD 0].classes

/-- The effective kind (R51): under skip-to-record-end every kind but RECORD_END acts as SKIP. -/
def Stream.effectiveKind (st : Stream) (e : ClassEntry) : ClassKind :=
  if st.phase = .record ∧ st.skip ∧ e.kind ≠ .recordEnd then .skip else e.kind

/-- Take one byte under a class entry whose hold is disregarded (R51): the dual-sum, the next mode and the consumed
count, and the work of its kind, all in one step. -/
def State.takeByte (s : State) (x : StreamId) (e : ClassEntry) (b : Byte) : State :=
  let st := s.streams[x]
  let kind := st.effectiveKind e
  let s := s.updateStream x (fun st =>
    { st.advance with
      dualSum := if st.phase = .record ∧ e.includeInCheck ∧ kind ≠ .trailerStart then st.dualSum.feed b
                 else st.dualSum
      mode := e.nextMode })
  if st.phase = .record then s.recordByte x kind b
  else s.updateStream x (fun st => st.trailerByte kind b)

/-- A hold byte stops the stream before it (R31). -/
def State.holdByte (s : State) (x : StreamId) (e : ClassEntry) (b : Byte) : State :=
  let mode := s.streams[x].mode
  let s := s.updateStream x (fun st => { st with heldByte := some ⟨b, none⟩ })
  s.postThen x (.mark b mode e) .held

/-- A RUNNING stream takes its next byte (R51), with what its buffer's exhaustion brings (R28). -/
def State.streamByte (s : State) (x : StreamId) : State :=
  let st := s.streams[x]
  if st.state ≠ .running then s
  else match st.nextByte with
  | none => s
  | some b =>
    if st.phase = .afterTrailer then (s.updateStream x Stream.advance).exhaust x
    else
      let e := s.classEntry x b
      if e.hold then s.holdByte x e b else (s.takeByte x e b).exhaust x

/-! ## Blocking (R37, R69) -/

/-- A freed place goes to the oldest BLOCKED stream: it appends its ready record, raises its counts and becomes RUNNING
(R37, R69). Its next byte, a hold byte too (R31), is left to a later STREAM_BYTE: DEDUCED (log entry 5). -/
def State.resumeBlocked (s : State) : State :=
  match s.blocked with
  | [] => s
  | x :: rest =>
    if s.stagingRecords < Config.stagingRecords then
      match s.streams[x].ready with
      | none => { s with blocked := rest }
      | some r =>
        let s := ({ s with blocked := rest }).stageRecord x r
        (s.updateStream x (fun st => { st with state := .running, ready := none })).exhaust x
    else s

/-! ## Abort (R33 to R36) -/

/-- Place an ABORT marker and enter ABORTING. -/
def State.placeAbort (s : State) (x : StreamId) : State :=
  { s.updateStream x (fun st => { st with state := .aborting, verdict := none, abortAfterClose := false }) with
    staging := s.staging ++ [.abort x] }

/-- A record of the stream that waits at the head of the Staging Queue becomes discardable (R71). That the Encoder's next
look discards it is DEDUCED (log entry 10). -/
def State.abandonHead (s : State) (x : StreamId) : State :=
  match s.headWait, s.staging with
  | some _, .record y _ :: _ => if y = x then { s with headWait := some .abandoned } else s
  | _, _ => s

/-- An abort takes a cause: the stream leaves the lists on which it waits, a store-full notice of it is cleared without being
posted, and the cause is recorded (R33, R34, R43). -/
def State.recordCause (s : State) (x : StreamId) (cause : AbortCause) : State :=
  (s.leaveLists x).updateStream x (fun st => { st with abortCause := some cause, storeFullNotice := false })

/-- Begin an abort for a cause (R33, R34). -/
def State.beginAbort (s : State) (x : StreamId) (cause : AbortCause) : State :=
  let st := s.streams[x]
  let s := s.recordCause x cause
  if st.state = .closing ∧ st.verdict = none then
    (s.updateStream x (fun st => { st with abortAfterClose := true })).abandonHead x
  else
    (s.updateStream x (fun st =>
      { st with countdown := .stopped, principal := {}, alternate := {}, heldByte := none, ready := none,
                pending := none, record := {}, skip := false, trailerBuild := {}, trailer := none })).placeAbort x

/-- How a port reset reaches a stream the port owns (R35). A stream whose abort has begun and whose close is not yet
acknowledged may have a store-full notice that waits: it leaves the wait list unposted, since the reset posts no completion
entry (R157; that the notice is cleared, and not only kept off this walk, is DEDUCED, log entry 19). -/
def State.resetStream (s : State) (x : StreamId) : State :=
  let st := s.streams[x]
  if st.abortable then s.beginAbort x .portReset
  else if st.abortBegun then s.recordCause x .portReset
  else if st.settled then s.streamIdle x
  else s

/-- How the withdrawal of INGEST reaches a stream the port owns (R35). -/
def State.withdrawStream (s : State) (x : StreamId) : State :=
  if s.streams[x].abortable then s.beginAbort x .roleWithdrawn else s

/-- The streams a port owns, in ascending order: the order in which a port reset or a withdrawn role reaches them, and so
that of their ABORT markers, is DESIGN CHOICE (log entry 32). -/
def State.streamsOf (s : State) (p : PortId) : List StreamId :=
  (List.finRange 12).filter (fun x => s.streams[x].owner = some p)

/-- A stream closes out its abort by cause (R36). -/
def State.closeAbort (s : State) (x : StreamId) : State :=
  match s.streams[x].abortCause with
  | some .portReset => s.streamIdle x
  | some .timeout => s.postThen x .timeout .idle
  | some .request => s.postThen x (.aborted false) .idle
  | some .roleWithdrawn => s.postThen x (.aborted true) .idle
  | none => s.streamIdle x

/-! ## The close acknowledgement (R75, R76) -/

/-- Adjust a stream's figures by what the Encoder discarded (R75). -/
def Stream.adjust (st : Stream) (count duration : Nat) : Stream :=
  { st with
    accepted := st.accepted - count
    duration := if st.duration = Config.durationLimit then st.duration else st.duration - duration
    rejected := min (st.rejected + count) Config.rejectedLimit
    firstRejectPosted := true }

/-- A store-full notice still waiting is cleared without being posted (R43). That an abort after close does so at its ABORT
marker is DEDUCED (log entry 19). -/
def State.dropNotice (s : State) (x : StreamId) : State :=
  { s.updateStream x (fun st => { st with storeFullNotice := false }) with
    waiting := s.waiting.filter (· ≠ WaitItem.notice x) }

/-- The stream takes the close acknowledgement with the discarded counts: abort after close (R34), or the adjustment of
R75 and the reconciliation. -/
def State.takeCloseAck (s : State) (x : StreamId) (count duration : Nat) : State :=
  let st := s.streams[x]
  if st.abortAfterClose then (s.dropNotice x).placeAbort x
  else if count = 0 then s.reconcile x
  else
    let s := s.updateStream x (fun st => st.adjust count duration)
    if st.firstRejectPosted then s.reconcile x
    else s.postThen x (.recordRejected s.streams[x].accepted .fileLimit) .reconcile

/-- The store-full notice reaches a stream (R43): STORE_FULL at once if there is room, else the notice waits. A notice of a
later episode that finds the stream's earlier one still waiting keeps the earlier one's place in the wait list, and the
two are one STORE_FULL: DESIGN CHOICE, the spec is silent on it (log entry 39). -/
def State.takeNotice (s : State) (x : StreamId) : State :=
  let s := (s.updateStream x (fun st => { st with storeFullNotice := true })).postNotice x
  if s.streams[x].storeFullNotice ∧ WaitItem.notice x ∉ s.waiting then { s with waiting := s.waiting ++ [.notice x] }
  else s

end Sys2Proof.Machine
end

