-- ==== Sys2Proof/Machine/StorePort.lean ====
section
/-! DEFINITION. The Store Port (R87, R88): the arbiter over the one segment store. -/

namespace Sys2Proof.Machine

/-- A stream's write image becomes WRITING as its write starts (R87). -/
def State.imageWriting (s : State) (x : StreamId) : State :=
  let c := s.encodings[x]
  s.setEncoding x { c with image := c.image.map (fun i => { i with writing := true }) }

/-- A cursor's read becomes READING as it starts (8.1, R87). -/
def State.readReading (s : State) (c : CursorId) : State :=
  let u := s.cursors[c]
  s.setCursor c { u with read := u.read.map (fun r => { r with reading := true }) }

/-- With the store idle, start a waiting operation: the oldest write, else the oldest retrieval read, else the sweep
read (R87). -/
def State.startStore (s : State) : State :=
  let q := s.storePort
  match q.current with
  | some _ => s
  | none =>
    match q.writes with
    | (x, n) :: rest => ({ s with storePort := { q with current := some (.write x n), writes := rest } }).imageWriting x
    | [] =>
      match q.reads with
      | (c, n) :: rest =>
        ({ s with storePort := { q with current := some (.read c n true), reads := rest } }).readReading c
      | [] =>
        match q.sweep with
        | some n => { s with storePort := { q with current := some (.sweep n), sweep := none } }
        | none => s

/-- The operation in progress has ended: start the next one (R87). It ends with the step that takes its report, so a
read asked for in that step is among the waiting ones. DESIGN CHOICE (log entry 9). -/
def State.endStore (s : State) : State :=
  ({ s with storePort := { s.storePort with current := none } }).startStore

/-- Ask for the write of a stream's image (R84, R87). -/
def State.askWrite (s : State) (x : StreamId) (n : Nat) : State :=
  ({ s with storePort := { s.storePort with writes := s.storePort.writes ++ [(x, n)] } }).startStore

/-- Ask for a cursor's read (R138, R87). -/
def State.askRead (s : State) (c : CursorId) (n : Nat) : State :=
  ({ s with storePort := { s.storePort with reads := s.storePort.reads ++ [(c, n)] } }).startStore

/-- Ask for the sweep's read (R110, R87). -/
def State.askSweep (s : State) (n : Nat) : State :=
  ({ s with storePort := { s.storePort with sweep := some n } }).startStore

/-- Withdraw a WAITING write (R77, R87). -/
def State.withdrawWrite (s : State) (x : StreamId) : State :=
  { s with storePort := { s.storePort with writes := s.storePort.writes.filter (fun w => w.1 ≠ x) } }

/-- Abandon a cursor's read: a waiting one is withdrawn, the report of one in progress will be discarded (R144). -/
def State.abandonRead (s : State) (c : CursorId) : State :=
  { s with storePort :=
    { s.storePort with
      reads := s.storePort.reads.filter (fun r => r.1 ≠ c)
      current := match s.storePort.current with
        | some (.read d n live) => some (.read d n (live && d ≠ c))
        | other => other } }

/-- Whether an extent exists (1.1). -/
def extentExists (n : Nat) : Bool := n < Config.segmentNumbers

end Sys2Proof.Machine
end

