-- ==== Sys2Proof/Machine/Encoder.lean ====
section
/-! DEFINITION. The Segment Encoder (chapter 4): the head of the Staging Queue, placing and discarding records,
finishing segments, markers, and the ends of store writes. -/

namespace Sys2Proof.Machine

/-- Change one encoding context. -/
def State.updateEncoding (s : State) (x : StreamId) (f : Encoding → Encoding) : State :=
  s.setEncoding x (f s.encodings[x])

/-- The head entry leaves the Staging Queue, and no wait stands (4.3). -/
def State.leaveHead (s : State) : State := { s with staging := s.staging.tail, headWait := none }

/-! ## Placing records (R72) -/

/-- Append a record to a stream's filling segment (R72, step 3). -/
def Encoding.append (c : Encoding) (r : CallRecord) : Encoding :=
  let bytes := encodeRecord (c.previous.getD (firstPrevious r.start)) r
  { c with
    payload := c.payload ++ bytes
    dualSum := c.dualSum.feedAll bytes
    recordCount := c.recordCount + 1
    durationSum := c.durationSum + r.duration
    baseTime := if c.recordCount = 0 then r.start else c.baseTime
    previous := some r.asPrevious }

/-- The fill test (R82): a segment that holds records is full at 32,768 of them, or if the next one would exceed the
payload limit. -/
def Encoding.fits (c : Encoding) (r : CallRecord) : Bool :=
  c.recordCount = 0 ||
    (c.recordCount < Config.segmentRecordLimit
      && c.payload.length + (encodeRecord (c.previous.getD (firstPrevious r.start)) r).length ≤ Config.payloadLimit)

/-- The running figures as a segment's figures (R84). -/
def Encoding.figures (c : Encoding) : Figures :=
  { recordCount := c.recordCount, durationSum := c.durationSum, encodedLength := c.payload.length,
    check := c.dualSum.value, baseTime := c.baseTime }

/-- Finish a stream's filling segment, if it has one (R84): it moves into the write image and its write is asked for.
None while the image still holds an earlier segment. -/
def State.finishSegment (s : State) (x : StreamId) : Option State :=
  let c := s.encodings[x]
  match c.filling, c.image with
  | none, _ => some s
  | some _, some _ => none
  | some g, none =>
    let st := s.streams[x]
    let header : Header :=
      { segment := g.segment, allocation := g.allocation, ordinal := g.ordinal,
        fileIndex := st.fileIndex.getD 0, switchId := st.switchId.getD 0, sequence := st.sequence.getD 0,
        figures := c.figures }
    let image : WriteImage :=
      { segment := g.segment, allocation := g.allocation, header := header.bytes, payload := c.payload,
        figures := c.figures, writing := false }
    some ((s.setEncoding x
      { c with filling := none, previous := none, recordCount := 0, durationSum := 0, dualSum := {}, baseTime := 0,
               payload := [], image := some image }).askWrite x g.segment)

/-- Discard and count a record for the adjustment at close (R75). -/
def State.discardCounted (s : State) (x : StreamId) (r : CallRecord) : State :=
  (s.updateEncoding x (fun c =>
    { c with chainFull := true, discardedCount := c.discardedCount + 1,
             discardedDuration := c.discardedDuration + r.duration })).leaveHead

/-- The end of a store-full episode (R73). -/
def State.endEpisode (s : State) : State :=
  if s.storeFullEpisode then
    { s with storeFullEpisode := false,
             encodings := mapVector (fun c : Encoding => { c with storeFullNotified := false }) s.encodings }
  else s

/-- An allocation answered EMPTY (R73): the episode begins if none stands, and at the beginning of a wait the stream
gets its notice once per episode. -/
def State.waitStoreFull (s : State) (x : StreamId) : State :=
  let s := { s with storeFullEpisode := true }
  if s.headWait = some .storeFull then s
  else
    let s := { s with headWait := some .storeFull }
    if s.encodings[x].storeFullNotified then s
    else (s.updateEncoding x (fun c => { c with storeFullNotified := true })).takeNotice x

/-- Ask for a segment and place the record as its first one (R72, step 2). -/
def State.placeFirst (s : State) (x : StreamId) (r : CallRecord) : State :=
  match s.allocate (s.streams[x].fileIndex.getD 0) with
  | .stale => s.leaveHead
  | .empty => s.waitStoreFull x
  | .chainFull => s.discardCounted x r
  | .done g s =>
    let fresh (c : Encoding) : Encoding :=
      { c with filling := some g, previous := none, recordCount := 0, durationSum := 0, dualSum := {},
               baseTime := 0, payload := [] }
    (s.endEpisode.updateEncoding x (fun c => (fresh c).append r)).leaveHead

/-- Place the record at the head (R72). -/
def State.placeRecord (s : State) (x : StreamId) (r : CallRecord) : State :=
  let c := s.encodings[x]
  if c.filling.isSome ∧ c.fits r then (s.updateEncoding x (fun c => c.append r)).leaveHead
  else match s.finishSegment x with
  | none => { s with headWait := some .image }
  | some s => s.placeFirst x r

/-! ## Markers (R76, R77) -/

/-- A CLOSE marker at the head (R76). -/
def State.takeCloseMarker (s : State) (x : StreamId) : State :=
  if s.encodings[x].filling.isNone then (s.updateEncoding x (fun c => { c with closePending := true })).leaveHead
  else match s.finishSegment x with
  | none => { s with headWait := some .image }
  | some s => (s.updateEncoding x (fun c => { c with closePending := true })).leaveHead

/-- Carry out the removal of a stream's file (R4); answered DONE, the stream is told by ABORT_REACHED. -/
def State.carryRemoval (s : State) (x : StreamId) : State :=
  match s.removeFile (s.streams[x].fileIndex.getD 0) with
  | some s => s.updateEncoding x (fun c => { c with removal := .done })
  | none => s.updateEncoding x (fun c => { c with removal := .none })

/-- An ABORT marker at the head (R77): it leaves at once, the assembly area is dropped, a WAITING write is withdrawn,
and the removal is asked for; the Catalogue Controller holds it while a write is in flight (R4). -/
def State.takeAbortMarker (s : State) (x : StreamId) : State :=
  let c := s.encodings[x]
  let dropped : Encoding :=
    { c with filling := none, previous := none, recordCount := 0, durationSum := 0, dualSum := {}, baseTime := 0,
             payload := [] }
  let s := s.leaveHead
  match c.image with
  | some i =>
    if i.writing then s.setEncoding x { dropped with removal := .held }
    else ((s.setEncoding x { dropped with image := none }).withdrawWrite x).carryRemoval x
  | none => (s.setEncoding x dropped).carryRemoval x

/-! ## The head entry (R71) -/

/-- Whether the record at the head is discarded without being counted: its stream is ABORTING, or began an abort while
the record waits at the head (R71, R74). A record of a stream that had set abort after close before is placed, or waits,
as any other. -/
def State.discardable (s : State) (x : StreamId) : Bool :=
  s.streams[x].state = .aborting || s.headWait = some .abandoned

/-- Deal with the head entry (R71). -/
def State.dealHead (s : State) : State :=
  match s.staging with
  | [] => s
  | .record x r :: _ =>
    if s.discardable x then s.leaveHead
    else if s.encodings[x].chainFull then s.discardCounted x r
    else s.placeRecord x r
  | .close x :: _ => s.takeCloseMarker x
  | .abort x :: _ => s.takeAbortMarker x

/-- The Encoder looks at the head (R71). While the head waits, only a record whose stream has begun an abort can be
finished with. -/
def State.takeHead (s : State) : State :=
  match s.headWait with
  | none => s.dealHead
  | some _ =>
    match s.staging with
    | .record x _ :: _ => if s.discardable x then s.leaveHead else s
    | _ => s

/-- After numbers were appended to the Free Segment List the Encoder asks again for the waiting record's segment
(R73). -/
def State.retryStoreFull (s : State) : State := if s.headWait = some .storeFull then s.dealHead else s

/-- The stream of the head entry. -/
def State.headStream (s : State) : Option StreamId :=
  match s.staging with
  | .record x _ :: _ => some x
  | .close x :: _ => some x
  | .abort x :: _ => some x
  | [] => none

/-- The image wait ends once the stream's write image is free (4.3, R84). -/
def State.endImageWait (s : State) : State :=
  match s.headWait, s.headStream with
  | some .image, some x => if s.encodings[x].image.isNone then s.dealHead else s
  | _, _ => s

/-! ## The ends of a store write (R85, R86) -/

/-- Drop a stream's write image. -/
def State.dropImage (s : State) (x : StreamId) : State := s.updateEncoding x (fun c => { c with image := none })

/-- A write ended without error (R85, R88): the extent holds header and payload; the segment becomes STORED, or the
removal held for the write is carried out in place of the finish. -/
def State.writeDone (s : State) (x : StreamId) (n : Nat) : State :=
  let c := s.encodings[x]
  match c.image with
  | none => s
  | some i =>
    let s := { s with store := writeBytes (storeAddress n 0) (i.header ++ i.payload) s.store }
    let s := s.dropImage x
    if c.removal = .held then s.carryRemoval x else (s.finishStored n i.figures).getD s

/-- Whether a QUARANTINE_SET naming a file is owed: its suspect count is 0 (R86, R113, R139). -/
def State.quarantineOwed (s : State) (i : Nat) : Bool := s.suspectCount i = 0

/-- Append a quarantine entry naming a file, port "controller", value the file's record count (7.2). -/
def State.recordQuarantine (s : State) (kind : TrailKind) (i : Nat) : State :=
  match s.file i with
  | some f => s.record kind none (f.subject i) f.recordCount
  | none => s

/-- A finding about a segment of a file, stamped now (6.6). -/
def State.findingFor (s : State) (kind : FindingKind) (source : FindingSource) (n i : Nat)
    (values : Option (Nat × Nat)) : Finding :=
  { kind, source, segment := n, fileIndex := i,
    switchId := match s.file i with | some f => f.switchId | none => 0,
    sequence := match s.file i with | some f => f.sequence | none => 0,
    clock := s.stamp, values }

/-- The reports of the Encoder or the Retrieval Unit on a segment: a finding if an unreserved place is free, and the
QUARANTINE_SET if it is owed and the trail has room. The answer says whether a report stays owed (R86, R139). -/
def State.reportDamage (s : State) (f : Finding) : State × Bool :=
  let (s, owedFinding) :=
    if 0 < s.findingPlaces then ({ s with findings := s.findings ++ [f] }, false) else (s, true)
  let owed := s.quarantineOwed f.fileIndex
  if owed ∧ s.trailRoom then (s.recordQuarantine .quarantineSet f.fileIndex, owedFinding)
  else (s, owedFinding || owed)

/-- A write ended with an error (R86): the extent holds what the failed write left at its start; the segment becomes
SUSPECT with its reports, or the removal held for the write is carried out instead. -/
def State.writeFailed (s : State) (x : StreamId) (n : Nat) (left : List Byte) : State :=
  let c := s.encodings[x]
  match c.image with
  | none => s
  | some i =>
    let s := { s with
      store := writeBytes (storeAddress n 0) (left.take (i.header.length + i.payload.length)) s.store }
    let s := s.dropImage x
    if c.removal = .held then s.carryRemoval x
    else
      let (s, unreported) :=
        s.reportDamage (s.findingFor .writeError .encoder n (s.segment n).fileIndex none)
      (s.finishFailed n i.figures unreported).getD s

/-- The close acknowledgement (R76): with close pending and no write image held, the stream takes the discarded counts
and the encoding context returns to its reset values (R70). -/
def State.acknowledgeClose (s : State) (x : StreamId) : State :=
  let c := s.encodings[x]
  if c.closePending ∧ c.image.isNone then
    (s.setEncoding x {}).takeCloseAck x c.discardedCount c.discardedDuration
  else s

/-- The Encoder tells a stream that its abort has been reached (R77, R36). -/
def State.tellAbort (s : State) (x : StreamId) : State :=
  if s.encodings[x].removal = .done then (s.setEncoding x {}).closeAbort x else s

end Sys2Proof.Machine
end

