-- ==== Sys2Proof/Machine/Retention.lean ====
section
/-! DEFINITION. The Retention Unit (chapter 5): eligibility, holds, the expiry pass, the reclaim step and the
pin-release reclaim. -/

namespace Sys2Proof.Machine

/-- The retention of a class, read now (R89). -/
def State.retentionOf (s : State) (c : Nat) : Nat := s.settings.retention[c]?.getD 0

/-- Whether a Hold Table entry matches a switch and a file day (R92). -/
def Hold.covers (h : Hold) (switchId day : Nat) : Bool :=
  h.active && (match h.selector with | none => true | some w => w = switchId) && h.firstDay ≤ day && day ≤ h.lastDay

/-- Whether an ACTIVE hold matches a file (R92). -/
def State.isHeld (s : State) (f : File) : Bool := s.holds.toList.any (fun h => h.covers f.switchId f.fileDay)

/-- Eligibility for expiry but for the file's state (R91). -/
def State.dueToExpire (s : State) (f : File) : Bool :=
  s.clockIsSet && s.retentionOf f.retentionClass ≠ 0
    && f.fileDay + s.retentionOf f.retentionClass ≤ s.today && !s.isHeld f && (f.suspectCount = 0 || f.lossAccepted)

/-- What a reclaim step came to (R98). -/
inductive Reclaim where
  | returned
  | reclaimed
  | trailFull
  deriving DecidableEq, Repr

/-- The reclaim step for an EXPIRING file with no pins (R98): re-check, then FILE_EXPIRED and the reclaim in one step,
or the return to ACCEPTED, or nothing on a full trail. -/
def State.reclaimStep (s : State) (i : Nat) (f : File) : Reclaim × State :=
  if !s.dueToExpire f then (.returned, (s.returnAccepted i).getD s)
  else if s.trailRoom then
    (.reclaimed, ((s.record .fileExpired none (f.subject i) f.recordCount).reclaimFile i).getD s)
  else (.trailFull, s)

/-- The pin-release reclaim (R104): an unpin has brought an EXPIRING file's pin count to 0. -/
def State.pinReleased (s : State) (i : Nat) : State :=
  if s.pass.paused then s
  else match s.file i with
  | some f => if f.state = .expiring ∧ f.pinCount = 0 then (s.reclaimStep i f).2 else s
  | none => s

/-! ## The expiry pass (R95 to R100) -/

/-- Begin a pass at position 0 (R95). -/
def Pass.begin (p : Pass) : Pass :=
  { p with state := if p.paused then .paused else .walking, position := 0, again := false }

/-- A start cause (R95): a pass begins if none is in progress and the clock is set, otherwise pass-again is set. -/
def State.startCause (s : State) : State :=
  if s.pass.state = .idle ∧ s.clockIsSet then { s with pass := s.pass.begin }
  else { s with pass := { s.pass with again := true } }

/-- The visit at an index is done: the position rises, or the pass ends after 131,071 (R97, R100). -/
def Pass.visited (p : Pass) : Pass :=
  if p.position + 1 < Config.fileEntries then { p with position := p.position + 1 }
  else if p.again then p.begin
  else { p with state := .idle, position := 0 }

/-- The visit is done, in State. -/
def State.passVisited (s : State) : State := { s with pass := s.pass.visited }

/-- What a visit does with an EXPIRING file (R97): the reclaim step if it has no pins; on a full trail the pass waits at
its index (R99). -/
def State.visitExpiring (s : State) (i : Nat) (f : File) : State :=
  if f.pinCount = 0 then
    match s.reclaimStep i f with
    | (.trailFull, s) => { s with pass := { s.pass with state := .waitingTrail } }
    | (_, s) => s.passVisited
  else s.passVisited

/-- One visit, at the pass's position (R97). -/
def State.visit (s : State) : State :=
  let i := s.pass.position
  match s.file i with
  | none => s.passVisited
  | some f =>
    match f.state with
    | .ingesting => s.passVisited
    | .disputed => s.passVisited
    | .expiring => s.visitExpiring i f
    | .accepted =>
      if s.dueToExpire f then
        ((s.markExpiring i).getD s).visitExpiring i { f with state := .expiring }
      else s.passVisited

/-- The pass becomes WALKING and visits its index anew (R99, R102). -/
def State.walkAgain (s : State) : State := ({ s with pass := { s.pass with state := .walking } }).visit

/-! ## Holds -/

/-- The lowest FREE Hold Table entry (R93). -/
def State.freeHold (s : State) : Option (Fin 32) := (List.finRange 32).find? (fun i => !s.holds[i].active)

/-- Every EXPIRING file that a hold matches returns to ACCEPTED, whatever its pin count (R93, step 3). -/
def State.returnHeld (s : State) (h : Hold) : State :=
  (s.heldFiles.filter (fun e => e.2.state = .expiring ∧ h.covers e.2.switchId e.2.fileDay)).foldl
    (fun s e => (s.returnAccepted e.1).getD s) s

end Sys2Proof.Machine
end

