-- ==== Sys2Proof/Machine/Retrieval.lean ====
section
/-! DEFINITION. The Retrieval Unit (chapter 8): the position of an ordinal, gathering records, verifying a segment,
damage, and the freeing of a cursor. -/

namespace Sys2Proof.Machine

/-- Change one cursor. -/
def State.updateCursor (s : State) (c : CursorId) (f : Cursor → Cursor) : State := s.setCursor c (f s.cursors[c])

/-- The place of an ordinal in a chain: its segment and its ordinal within, by the record counts of the catalogue; none
if it lies at or beyond the end (R136). -/
def locate (segments : Sparse Segment) : List Nat → Nat → Option (Nat × Nat)
  | [], _ => none
  | k :: rest, n =>
    let count := (Sparse.get {} k segments).figures.recordCount
    if n < count then some (k, n) else locate segments rest (n - count)

/-- Whether an OPEN CURSOR whose pin request is outstanding has reserved a cursor (R135). -/
def State.cursorReserved (s : State) (c : CursorId) : Bool :=
  s.openings.any (fun o => match o.request with | .cursor b => b.cursor = c | .file _ => false)

/-- The lowest cursor FREE and unreserved (R135). -/
def State.freeCursor (s : State) : Option CursorId :=
  (List.finRange 16).find? (fun c => !s.cursors[c].isOpen && !s.cursorReserved c)

/-- The seconds a cursor's idle countdown is loaded with: the owning port's cursor idle timeout, read now (R142). -/
def State.cursorSeconds (s : State) (p : PortId) : Nat := timeoutSeconds s.settings.ports[p].cursorTimeout

/-- The cursor that opens on a file at a starting ordinal (R136). -/
def State.openedCursor (s : State) (p : PortId) (i : Nat) (f : File) (start : Nat) : Cursor :=
  let place := locate s.segments (s.chain f) start
  { isOpen := true, owner := some p, fileIndex := some i,
    segment := place.map Prod.fst,
    within := match place with | some (_, k) => k | none => 0,
    nextOrdinal := if place.isSome then start else f.recordCount,
    idle := .load (s.cursorSeconds p) }

/-! ## Reply records (R141) -/

/-- Billable seconds before the clamp (R141). -/
def billableSeconds (mode : Rounding) (tenths : Nat) : Nat :=
  match mode with
  | .truncate => tenths / 10
  | .up => (tenths + 9) / 10
  | .nearest => (tenths + 5) / 10

/-- A record delivered at an ordinal (R140, R141). -/
def deliver (mode : Rounding) (ordinal : Nat) (suspect : Bool) (r : CallRecord) : Delivered :=
  { ordinal, record := r, suspect,
    billable := min (billableSeconds mode r.duration) Config.billableLimit,
    billableClamped := Config.billableLimit < billableSeconds mode r.duration }

/-! ## Gathering (R137) -/

/-- Move a cursor to the next segment of the chain (R137). -/
def State.nextSegment (s : State) (u : Cursor) : Cursor :=
  { u with segment := match u.segment with | some n => (s.segment n).next | none => none,
           within := 0, loaded := none }

/-- Pass one record (R137): at the segment's record count the cursor moves to the next segment. -/
def State.passRecord (s : State) (u : Cursor) (n : Nat) : Cursor :=
  let u := { u with within := u.within + 1, nextOrdinal := u.nextOrdinal + 1 }
  if (s.segment n).figures.recordCount ≤ u.within then s.nextSegment u else u

/-- The rounding mode of a cursor's file (R141). -/
def State.cursorRounding (s : State) (u : Cursor) : Rounding :=
  match u.fileIndex.bind s.file with
  | some f => f.rounding
  | none => .truncate

/-- What gathering from the loaded segment came to. -/
inductive Gathered where
  | finished (status : Status) (cursor : Cursor) (records : List Delivered)
  | enter (segment : Nat) (cursor : Cursor) (records : List Delivered)
  deriving DecidableEq, Repr

/-- Gather up to `room` further records in file order (R137): until the limit is reached, the cursor is at end, or a
segment must be entered that is not loaded. -/
def State.gather (s : State) : Nat → Cursor → List Delivered → Gathered
  | 0, u, ds => .finished (if u.segment.isNone then .atEnd else .ok) u ds
  | room + 1, u, ds =>
    match u.segment, u.loaded with
    | none, _ => .finished .atEnd u ds
    | some n, none => .enter n u ds
    | some n, some rs =>
      match rs[u.within]? with
      | some r =>
        let d := deliver (s.cursorRounding u) u.nextOrdinal ((s.segment n).state = .suspect) r
        s.gather room (s.passRecord u n) (ds ++ [d])
      | none => s.gather room (s.nextSegment u) ds

/-- The reply of a cursor's fetch is sent (R137): the fetch is no longer in progress, and the idle countdown is loaded
anew with the owning port's timeout as it stands now (R142). -/
def State.endFetch (s : State) (p : PortId) (c : CursorId) : State :=
  s.updateCursor c (fun u => { u with fetch := none, idle := .load (s.cursorSeconds p) })

/-- A cursor's fetch has gathered its records and its reply is formed (R137). On a free line the reply is sent at once,
which ends the fetch; on a busy one the fetch stays in progress, its countdown stopped, until the reply is sent (8.3). -/
def State.answerFetch (s : State) (c : CursorId) (status : Status) (skipped : Nat) : State :=
  let u := s.cursors[c]
  match u.owner, u.fetch with
  | some p, some q =>
    let body := ReplyBody.records q.gathered skipped u.nextOrdinal
    if s.ports[p].lineBusy then (s.setStanding p q.tag (.delivering c)).form p q.tag status body []
    else (s.endFetch p c).answer p q.tag status body
  | _, _ => s

/-- Serve the fetch of a cursor as far as its loaded segment reaches (R137, R138). The answer says whether the reply was
formed. -/
def State.serveFetch (s : State) (c : CursorId) : State × Bool :=
  let u := s.cursors[c]
  match u.fetch with
  | none => (s, true)
  | some q =>
    match s.gather (q.limit - q.gathered.length) u q.gathered with
    | .finished status u ds =>
      ((s.setCursor c { u with fetch := some { q with gathered := ds } }).answerFetch c status 0, true)
    | .enter n u ds =>
      let read : CursorRead := { segment := n, allocation := (s.segment n).allocation, reading := false }
      ((s.setCursor c { u with fetch := some { q with gathered := ds }, read := some read }).askRead c n, false)

/-- Take a FETCH RECORDS for a cursor of its port (R137): the idle countdown stops, the fetch is recorded with its limit
and its outstanding entry, and gathering begins. -/
def State.takeFetch (s : State) (p : PortId) (tag : Byte) (c : CursorId) (count : Nat) : State × Bool :=
  let s := s.updateCursor c (fun u => { u with idle := .stopped, fetch := some { tag, limit := min count 64 } })
  let port := s.ports[p]
  let s := s.setPort p { port with outstanding := port.outstanding ++ [⟨tag, .fetching c⟩] }
  s.serveFetch c

/-! ## Freeing a cursor (R143, R144) -/

/-- Free a cursor (R143): its reads are abandoned (R144), its file is unpinned, and the last unpin of an EXPIRING file
leads to the pin-release reclaim (R104). -/
def State.freeCursorOf (s : State) (c : CursorId) : State :=
  let u := s.cursors[c]
  let s := (s.abandonRead c).setCursor c {}
  match u.fileIndex with
  | none => s
  | some i =>
    match s.unpin i with
    | some (0, .expiring, s) => s.pinReleased i
    | some (_, _, s) => s
    | none => s

/-- The cursors a port owns, in ascending order: the order in which a port reset or a withdrawn role frees them is DESIGN
CHOICE (log entry 32). -/
def State.cursorsOf (s : State) (p : PortId) : List CursorId :=
  (List.finRange 16).filter (fun c => s.cursors[c].isOpen ∧ s.cursors[c].owner = some p)

/-- Whether a cursor is OPEN for a port (R137, R143). -/
def State.ownsCursor (s : State) (p : PortId) (c : CursorId) : Bool :=
  s.cursors[c].isOpen && s.cursors[c].owner = some p

/-! ## Requests held behind a fetch (R156) -/

/-- The cursor an outstanding request names. -/
def Standing.cursor : Standing → Option CursorId
  | .fetching c | .delivering c => some c
  | .heldFetch c _ => some c
  | .heldClose c => some c
  | .stepping | .opening | .answered => none

/-- The cursor whose fetch's reply waits to be sent (8.3). -/
def Standing.delivers : Standing → Option CursorId
  | .delivering c => some c
  | .fetching _ | .heldFetch _ _ | .heldClose _ | .stepping | .opening | .answered => none

/-- Whether an outstanding request's reply is formed, so that its entry is freed when the reply leaves (R154). -/
def Standing.formed : Standing → Bool
  | .delivering _ | .answered => true
  | .fetching _ | .heldFetch _ _ | .heldClose _ | .stepping | .opening => false

/-- Whether an outstanding request is held untaken (R156). -/
def Standing.held : Standing → Bool
  | .heldFetch _ _ | .heldClose _ => true
  | .fetching _ | .delivering _ | .stepping | .opening | .answered => false

/-- Whether an unanswered request of a port names a cursor (R156). A fetch counts as answered when its reply is sent, as it
is in progress until then (R137), and any other request when its reply is formed: DEDUCED (log entry 36). -/
def State.cursorBusy (s : State) (p : PortId) (c : CursorId) : Bool :=
  s.ports[p].outstanding.any (fun o => o.standing.cursor = some c)

/-- Whether an unanswered request of a port that names a cursor has been taken. -/
def State.cursorTaken (s : State) (p : PortId) (c : CursorId) : Bool :=
  s.ports[p].outstanding.any (fun o => o.standing.cursor = some c && !o.standing.held)

/-- The oldest request of a port held behind a cursor. -/
def State.firstHeld (s : State) (p : PortId) (c : CursorId) : Option Outstanding :=
  s.ports[p].outstanding.find? (fun o => o.standing.cursor = some c && o.standing.held)

/-- Take one request held behind a cursor, judged against the role set that stands now (R154, R156). -/
def State.takeHeldRequest (s : State) (p : PortId) (o : Outstanding) : State :=
  let s := s.freeTag p o.tag
  if !(s.roles p).retrieve then s.refuse p o.tag .notPermitted
  else match o.standing with
  | .heldFetch c n => if s.ownsCursor p c then (s.takeFetch p o.tag c n).1 else s.refuse p o.tag .noCursor
  | .heldClose c =>
    if s.ownsCursor p c then (s.freeCursorOf c).reply p o.tag .ok .empty else s.refuse p o.tag .noCursor
  | _ => s

/-- Take the requests of a port held behind a cursor, oldest first, until one of them goes on waiting on the store
(R156). A port has at most eight. -/
def State.takeHeld (p : PortId) (c : CursorId) : Nat → State → State
  | 0, s => s
  | n + 1, s =>
    if s.cursorTaken p c then s
    else match s.firstHeld p c with
    | none => s
    | some o => State.takeHeld p c n (s.takeHeldRequest p o)

/-! ## Verification and damage (R138, R139) -/

/-- What a retrieval read came to (R138). -/
inductive Verified where
  | clean (records : List CallRecord)
  | damage (kind : FindingKind) (values : Option (Nat × Nat))
  deriving DecidableEq, Repr

/-- Judge an extent at retrieval (R138): read error, check, decode; the header is not judged. -/
def State.verify (s : State) (n : Nat) (report : ReadReport) : Verified :=
  let g := (s.segment n).figures
  match report with
  | .error => .damage .readError none
  | .complete altered =>
    let payload := s.deliveredBytes n altered Config.headerBytes g.encodedLength
    if dualSumOf payload ≠ g.check then .damage .checkMismatch (some (g.check, dualSumOf payload))
    else match decodePayload g payload with
    | some rs => .clean rs
    | none => .damage .malformed none

/-- Damage is taken as one step (R139): a STORED segment gets its reports and the SUSPECT marking; a SUSPECT one keeps
its standing. -/
def State.takeDamage (s : State) (n allocation i : Nat) (kind : FindingKind) (values : Option (Nat × Nat)) : State :=
  if (s.segment n).state = .stored then
    let (s, unreported) := s.reportDamage (s.findingFor kind .retrieval n i values)
    (s.markSuspect n allocation i unreported).getD s
  else s

/-- A live retrieval read ends (R138, R139): gathering goes on, or the damaged segment's records are skipped and the
reply is formed. The answer says whether it was. -/
def State.retrievalRead (s : State) (c : CursorId) (report : ReadReport) : State × Bool :=
  let u := s.cursors[c]
  match u.read, u.fileIndex with
  | some read, some i =>
    match s.verify read.segment report with
    | .clean rs => (s.setCursor c { u with read := none, loaded := some rs }).serveFetch c
    | .damage kind values =>
      let skipped := (s.segment read.segment).figures.recordCount - u.within
      let s := s.takeDamage read.segment read.allocation i kind values
      let u := { s.nextSegment u with read := none, nextOrdinal := u.nextOrdinal + skipped }
      ((s.setCursor c u).answerFetch c .segmentDamaged skipped, true)
  | _, _ => (s, false)

end Sys2Proof.Machine
end

