-- ==== Sys2Proof/Machine/SweepUnit.lean ====
section
/-! DEFINITION. The Audit Sweep Unit (chapter 6): the walk, visits, their judgement and what they change, pacing and
freeze. -/

namespace Sys2Proof.Machine

/-- The segment number after one, with the cycle count it leaves (R109). -/
def advancePosition (n cycles : Nat) : Nat × Nat :=
  if n + 1 < Config.segmentNumbers then (n + 1, cycles) else (0, (cycles + 1) % 4294967296)

/-- Whether the sweep visits a segment (R109). -/
def Segment.visitable (e : Segment) : Bool := e.state = .stored || e.state = .suspect

/-- Move the sweep's position past a segment (R109, R117). -/
def Sweep.advance (w : Sweep) (n : Nat) : Sweep :=
  let (position, cycles) := advancePosition n w.cycles
  { w with position, cycles }

/-- Begin a visit of a segment (R110): reserve 3 places, note the segment, ask for the read. -/
def State.beginVisit (s : State) (n : Nat) (kind : VisitKind) : State :=
  let e := s.segment n
  ({ s with sweep := { s.sweep with
      reserved := Config.visitPlaces
      visit := some { segment := n, allocation := e.allocation, fileIndex := e.fileIndex, kind } } }).askSweep n

/-- Look at the segment at the position (R109, R110): pass it over, begin a paced visit, or wait for log room. -/
def State.lookSegment (s : State) : State :=
  let n := s.sweep.position
  if !(s.segment n).visitable then { s with sweep := s.sweep.advance n }
  else if Config.visitPlaces ≤ s.findingPlaces then
    ({ s with sweep := { s.sweep with visitsLeft := s.sweep.visitsLeft - 1 } }).beginVisit n .paced
  else { s with sweep := { s.sweep with state := .waitingLog } }

/-- An ACTIVE sweep with no visit in flight and visits left in its window looks (R109). -/
def State.sweepLooks (s : State) : State :=
  if s.sweep.state = .active ∧ s.sweep.visit.isNone ∧ 0 < s.sweep.visitsLeft then s.lookSegment else s

/-- Findings have left the log (R110): with 3 places free a WAITING_LOG sweep returns to ACTIVE and looks anew. -/
def State.logRoom (s : State) : State :=
  if s.sweep.state = .waitingLog ∧ Config.visitPlaces ≤ s.findingPlaces then
    ({ s with sweep := { s.sweep with state := .active } }).sweepLooks
  else s

/-! ## Judgement (R112) -/

/-- The header a segment should carry, by the catalogue and the file entry (R112). -/
def State.expectedHeader (s : State) (n : Nat) : Header :=
  let e := s.segment n
  { segment := n, allocation := e.allocation, ordinal := e.ordinal, fileIndex := e.fileIndex,
    switchId := match s.file e.fileIndex with | some f => f.switchId | none => 0,
    sequence := match s.file e.fileIndex with | some f => f.sequence | none => 0,
    figures := e.figures }

/-- Whether the fields of a header that name the segment agree; its record count and duration sum are judged apart
(R112). -/
def Header.names (h expected : Header) : Bool :=
  { h with figures := { h.figures with recordCount := expected.figures.recordCount,
                                       durationSum := expected.figures.durationSum } } = expected

/-- The findings of a completed read, in the order of R112, each with its stored and found value. A damaged header's
duration sum above the bound that 6.6 gives a found value is carried whole: DESIGN CHOICE (log entry 38). -/
def judgeExtent (expected : Header) (header : Header) (payload : List Byte) :
    List (FindingKind × Option (Nat × Nat)) :=
  let g := expected.figures
  let check := dualSumOf payload
  (if check ≠ g.check then [(FindingKind.checkMismatch, some (g.check, check))] else [])
    ++ match decodePayload g payload with
      | none => [(.malformed, none)]
      | some rs =>
        if !header.names expected then [(.malformed, none)]
        else
          (if header.figures.recordCount ≠ g.recordCount then
            [(.countMismatch, some (g.recordCount, header.figures.recordCount))] else [])
          ++ (if durationSumOf rs ≠ g.durationSum then
              [(.durationMismatch, some (g.durationSum, durationSumOf rs))]
            else if header.figures.durationSum ≠ g.durationSum then
              [(.durationMismatch, some (g.durationSum, header.figures.durationSum))]
            else [])

/-- The findings a read's report yields on a segment as the catalogue stands (R112). -/
def State.judge (s : State) (n : Nat) (report : ReadReport) : List (FindingKind × Option (Nat × Nat)) :=
  match report with
  | .error => [(.readError, none)]
  | .complete altered =>
    judgeExtent (s.expectedHeader n) (readHeader (s.deliveredBytes n altered 0 Config.headerBytes))
      (s.deliveredBytes n altered Config.headerBytes (s.segment n).figures.encodedLength)

/-- A result is stale when the segment is not the one the visit noted (R111). -/
def State.visitStale (s : State) (v : Visit) : Bool :=
  let e := s.segment v.segment
  !e.visitable || e.allocation ≠ v.allocation || e.fileIndex ≠ v.fileIndex

/-- What a visit came to: its outcome and the number of findings appended (R121). -/
structure VisitResult where
  outcome : StepOutcome
  appended : Nat
  deriving DecidableEq, Repr

/-- The findings as the sweep appends them (R113). -/
def State.sweepFindings (s : State) (v : Visit) (found : List (FindingKind × Option (Nat × Nat))) : List Finding :=
  found.map (fun k => s.findingFor k.1 .sweep v.segment v.fileIndex k.2)

/-- A damaged STORED segment (R113). -/
def State.damageStored (s : State) (v : Visit) (found : List (FindingKind × Option (Nat × Nat))) :
    State × VisitResult :=
  let s := { s with findings := s.findings ++ s.sweepFindings v found }
  let owed := s.quarantineOwed v.fileIndex
  let appended := owed && s.trailRoom
  let s := if appended then s.recordQuarantine .quarantineSet v.fileIndex else s
  ((s.markSuspect v.segment v.allocation v.fileIndex (owed && !appended)).getD s, ⟨.damaged, found.length⟩)

/-- A damaged SUSPECT segment (R114): an owed report is made whole if the trail has room. -/
def State.damageSuspect (s : State) (v : Visit) (found : List (FindingKind × Option (Nat × Nat))) :
    State × VisitResult :=
  if (s.segment v.segment).unreported ∧ s.trailRoom then
    let s := { s with findings := s.findings ++ s.sweepFindings v found }
    let s := s.recordQuarantine .quarantineSet v.fileIndex
    ((s.clearUnreported v.segment v.allocation).getD s, ⟨.damaged, found.length⟩)
  else (s, ⟨.damaged, 0⟩)

/-- A clean SUSPECT segment (R115): it returns to STORED, with QUARANTINE_CLEARED where its file's suspect count falls
to 0, for which the trail must have room. -/
def State.cleanSuspect (s : State) (v : Visit) : State :=
  if 1 < s.suspectCount v.fileIndex then (s.returnStored v.segment v.allocation v.fileIndex).getD s
  else if s.trailRoom then
    let s := s.recordQuarantine .quarantineCleared v.fileIndex
    (s.returnStored v.segment v.allocation v.fileIndex).getD s
  else s

/-- Judge a visit's report and act on it (R111 to R115). -/
def State.completeVisit (s : State) (v : Visit) (report : ReadReport) : State × VisitResult :=
  if s.visitStale v then (s, ⟨.discarded, 0⟩)
  else
    let found := s.judge v.segment report
    let suspect := (s.segment v.segment).state = .suspect
    if found = [] then (if suspect then s.cleanSuspect v else s, ⟨.clean, 0⟩)
    else if suspect then s.damageSuspect v found
    else s.damageStored v found

/-! ## The end of a visit (R117) -/

/-- Pacing and freeze after a paced visit (R117, steps 3 to 6). -/
def State.paceSweep (s : State) (appended : Nat) : State :=
  let w := s.sweep
  if w.state ≠ .active then s
  else if s.settings.freeze ∧ 0 < appended then { s with sweep := { w with state := .frozen } }
  else if w.visitsLeft = 0 then
    if s.settings.rest = 0 then { s with sweep := { w with visitsLeft := s.settings.window } }
    else { s with sweep := { w with state := .resting, rest := .load s.settings.rest } }
  else s

/-- Answer the STEP SWEEP that asked for a visit, if it is still outstanding (R121, R157). -/
def State.answerStep (s : State) (p : PortId) (tag : Byte) (n : Nat) (r : VisitResult) : State :=
  if s.ports[p].outstanding.any (fun o => o.tag = tag ∧ o.standing = .stepping) then
    s.answer p tag .ok (.stepped r.outcome r.appended n)
  else s

/-- End a visit (R111, R117): the reservation is released, the position advances, and pacing or the STEP's reply
follows. -/
def State.endVisit (s : State) (v : Visit) (r : VisitResult) : State :=
  let w := { s.sweep with visit := none, reserved := 0 }
  let s := { s with sweep := if v.restarted then w else w.advance v.segment }
  match v.kind with
  | .step p tag => s.answerStep p tag v.segment r
  | .paced => s.paceSweep r.appended

/-- The sweep's read reports (R111). -/
def State.sweepRead (s : State) (report : ReadReport) : State :=
  match s.sweep.visit with
  | none => s
  | some v =>
    let (s, r) := s.completeVisit v report
    s.endVisit v r

/-! ## STEP SWEEP (R121) -/

/-- The lowest listed key from `n` on, below `limit`, whose segment the sweep visits. -/
def nextVisitable (segments : Sparse Segment) (n limit : Nat) : Option Nat :=
  (segments.filter (fun e => n ≤ e.1 ∧ e.1 < limit ∧ e.2.visitable)).head?.map Prod.fst

/-- The first STORED or SUSPECT segment from a position round to it again, with whether the walk returned to 0 on the
way (R109, R121). -/
def State.findVisitable (s : State) (n : Nat) : Option (Nat × Bool) :=
  match nextVisitable s.segments n Config.segmentNumbers with
  | some k => some (k, false)
  | none => (nextVisitable s.segments 0 n).map (fun k => (k, true))

/-- The walk of a STEP SWEEP (R121): a visit of kind STEP at the segment found, or none, with the cycle count raised at
the return to 0. The answer says whether a visit began. -/
def State.stepWalk (s : State) (p : PortId) (tag : Byte) : State × Bool :=
  let w := s.sweep
  match s.findVisitable w.position with
  | some (n, wrapped) =>
    let cycles := if wrapped then (w.cycles + 1) % 4294967296 else w.cycles
    (({ s with sweep := { w with position := n, cycles } }).beginVisit n (.step p tag), true)
  | none => ({ s with sweep := { w with cycles := (w.cycles + 1) % 4294967296 } }, false)

end Sys2Proof.Machine
end

