-- ==== Sys2Proof/Machine/DayClock.lean ====
section
/-! DEFINITION. The Day Clock (chapter 9): ticks, the advance with its rollover and limit, the countdown service, pulses
and internal seconds. -/

namespace Sys2Proof.Machine

/-- The advance of a tick (R148): only while the clock is set and at limit is no; a rollover gives one start cause. -/
def State.advanceClock (s : State) : State :=
  let c := s.clock
  if c.state = .unset ∨ c.atLimit then s
  else
    let v := c.value + 1
    let s := { s with clock := { c with value := v, atLimit := Config.clockLimit ≤ v } }
    if v % Config.daySeconds = 0 then s.startCause else s

/-- The countdown step of a tick (R151): every running countdown falls by 1. -/
def State.tickCountdowns (s : State) : State :=
  { s with
    streams := mapVector (fun st : Stream => { st with countdown := st.countdown.tick }) s.streams
    cursors := mapVector (fun u : Cursor => { u with idle := u.idle.tick }) s.cursors
    sweep := { s.sweep with rest := s.sweep.rest.tick } }

/-- A second tick (R147, R148, R151): the clock advances, the countdowns fall. -/
def State.tick (s : State) : State := s.advanceClock.tickCountdowns

/-- A pulse on the reference input (R147); `half`: at least half an internal second has passed since the last tick. -/
def State.pulse (s : State) (half : Bool) : State :=
  let c := s.clock
  if c.state = .reference ∨ (c.state = .unset ∧ c.referencePresent) then
    if half then ({ s with clock := { c with referencePresent := true, internalSeconds := 0 } }).tick else s
  else
    let state := if c.state = .holdover then ClockState.reference else c.state
    let s := { s with clock := { c with state, referencePresent := true, internalSeconds := 0 } }
    if half then s.tick else s

/-- An internal second elapses without a pulse (R147): in REFERENCE or UNSET the first is a period of grace; at the second
the reference is lost, a set clock enters HOLDOVER and two ticks are taken; from then on each second is one tick. How
the count goes on after the loss, and in a HOLDOVER that SET CLOCK entered, is DEDUCED (log entry 11). -/
def State.elapse (s : State) : State :=
  let c := s.clock
  if c.state ≠ .holdover ∧ c.internalSeconds = 0 then { s with clock := { c with internalSeconds := 1 } }
  else if c.internalSeconds = 1 then
    let state := if c.state = .unset then ClockState.unset else .holdover
    ({ s with clock := { c with state, referencePresent := false, internalSeconds := 2 } }).tick.tick
  else s.tick

/-- Whether a SET CLOCK gives a start cause (R150). -/
def State.setGivesCause (s : State) (value : Nat) : Bool :=
  if s.clockIsSet then s.clock.value / Config.daySeconds < value / Config.daySeconds
  else (s.pass.state = .idle && s.pass.again) || Config.daySeconds ≤ value

/-- The clock after a SET CLOCK (R149): the internal measure is not touched. -/
def Clock.setTo (c : Clock) (value : Nat) : Clock :=
  { c with
    value
    atLimit := value = Config.clockLimit
    state := match c.state with
      | .unset => if c.referencePresent then .reference else .holdover
      | other => other }

/-- The SET CLOCK step with the trail having room (R149): the CLOCK_SET entry, stamped with the new value, the set, and
the start cause if there is one. -/
def State.setClockTo (s : State) (p : PortId) (value : Nat) : State :=
  let old := s.stamp
  let cause := s.setGivesCause value
  let s := { s with
    trail := s.trail.append value .clockSet (some p) (.clock old value) 0
    clock := s.clock.setTo value }
  if cause then s.startCause else s

end Sys2Proof.Machine
end

