-- ==== Sys2Proof/Machine/Links.lean ====
section
/-! DEFINITION. The Station Link Units (chapter 10): the tests of an arriving request frame, the outstanding-request
table, the port reset, the reach of a withdrawn role, and the snapshot of PART STATUS. -/

namespace Sys2Proof.Machine

/-! ## Requests (R154) -/

/-- How an owning block answers a request: the status, the body of the reply and the state it leaves. -/
structure Answer where
  status : Status
  body : ReplyBody
  state : State
  deriving DecidableEq, Repr

/-- A refusal: an empty body, and no state changed (R154, R168). -/
def Answer.refusal (status : Status) (s : State) : Answer := ⟨status, .empty, s⟩

/-- An OK reply. -/
def Answer.ok (body : ReplyBody) (s : State) : Answer := ⟨.ok, body, s⟩

/-- The reply of an answer, formed in the byte order that stands after the request's effect (R155). -/
def Answer.send (a : Answer) (p : PortId) (tag : Byte) : State := a.state.reply p tag a.status a.body

/-- The reply of an answer to a request that an earlier step took. -/
def Answer.sendLate (a : Answer) (p : PortId) (tag : Byte) : State := a.state.answer p tag a.status a.body

/-- Whether frames arrive on a port: the part has its supply and the link is UP (R153). -/
def State.hears (s : State) (p : PortId) : Bool := s.powered && s.ports[p].up

/-- Whether a tag is held by an outstanding request of a port (R154, order 2). -/
def State.tagInUse (s : State) (p : PortId) (tag : Byte) : Bool := s.ports[p].outstanding.any (fun o => o.tag = tag)

/-- The tests made before an entry is taken (R154, orders 1 and 2): the refusal, if one of them gives it. -/
def State.entryBar (s : State) (p : PortId) (tag : Byte) : Option Status :=
  if Config.outstandingRequests ≤ s.ports[p].outstanding.length then some .portBusy
  else if s.tagInUse p tag then some .badRequest
  else none

/-- The tests of the frame (R154, orders 3 and 4). `formOk`: the kind is known and the body length allowed; `always`: the
request is PART STATUS. -/
def State.frameBar (s : State) (formOk always : Bool) : Option Status :=
  if !formOk then some .badRequest else if s.isStarting && !always then some .notReady else none

/-- A request frame arrives (R154): on a port that hears nothing there is no frame; a refusal is answered at once;
otherwise the request goes on to `k`. -/
def State.receive (s : State) (p : PortId) (tag : Byte) (formOk always : Bool) (k : State → State) : State :=
  if s.hears p then
    match s.entryBar p tag, s.frameBar formOk always with
    | some status, _ => s.turnAway p tag status
    | none, some status => s.refuse p tag status
    | none, none => k s
  else s

/-- The role test (R154, order 5), made when the request is taken. -/
def State.permit (s : State) (p : PortId) (tag : Byte) (need : RoleSet → Bool) (k : State → State) : State :=
  if need (s.roles p) then k s else s.refuse p tag .notPermitted

/-- A request that its owning block answers as soon as it is taken (R154, R156). -/
def State.request (s : State) (p : PortId) (tag : Byte) (formOk : Bool) (need : RoleSet → Bool)
    (answer : State → Answer) : State :=
  s.receive p tag formOk false (fun s => s.permit p tag need (fun s => (answer s).send p tag))

/-- Take an outstanding entry (R154). -/
def State.takeEntry (s : State) (p : PortId) (tag : Byte) (standing : Standing) : State :=
  let port := s.ports[p]
  s.setPort p { port with outstanding := port.outstanding ++ [⟨tag, standing⟩] }

/-- A request is left outstanding in the catalogue, behind those asked before it. -/
def State.askCatalogue (s : State) (p : PortId) (tag : Byte) (request : OpeningRequest) : State :=
  { s.takeEntry p tag .opening with openings := s.openings ++ [⟨p, some tag, request⟩] }

/-- Whether the catalogue answers a new-entry or pin request in the step that asks it: not while it is busy (DESIGN
CHOICE, log entry 31), and not before one asked earlier is answered. That such requests are answered in the order they
were asked, of whatever port, is what R24 says of two OPEN FILEs of one pair; DEDUCED for the rest (log entry 31). -/
def State.catalogueFree (s : State) : Bool := !s.catalogueBusy && s.openings.isEmpty

/-- A request that asks the catalogue (R24, R135): refused, or answered within the step, or left outstanding with what it
has reserved (R158). -/
def State.opening {α : Type} (s : State) (p : PortId) (tag : Byte) (need : RoleSet → Bool)
    (ask : State → Except Status α) (request : α → OpeningRequest) (answer : α → State → Answer) : State :=
  s.receive p tag true false (fun s => s.permit p tag need (fun s =>
    match ask s with
    | .error status => s.refuse p tag status
    | .ok b => if s.catalogueFree then (answer b s).send p tag else s.askCatalogue p tag (request b)))

/-! ## Role requirements (10.2) -/

def RoleSet.anyRole (r : RoleSet) : Bool := r.ingest || r.retrieve || r.audit || r.admin
def RoleSet.auditOrAdmin (r : RoleSet) : Bool := r.audit || r.admin

/-! ## Port reset (R157, R158) -/

/-- Every outstanding request of a port is discarded, and the replies that had not left with them (R157). What such a
request had asked of the catalogue runs on, its reply lost (R158). -/
def State.discardRequests (s : State) (p : PortId) : State :=
  let port := s.ports[p]
  { s.setPort p { port with outstanding := [], unsent := [] } with
    openings := s.openings.map (fun o => if o.port = p then { o with tag := none } else o) }

/-- Every Completion Queue entry of a port is removed, and the removal serves the wait list (R45). -/
def State.dropCompletions (s : State) (p : PortId) : State :=
  s.removeCompletions (s.completions.filter (fun e => e.port ≠ p))

/-- A port reset (R157): requests discarded, streams reached (R35), cursors freed (R144), completions removed, all one
step. Within it the streams and then the cursors are reached in ascending number, and the completions are removed, which
serves the wait list, after the cursors are freed. That decides the order of the ABORT markers, which EXPIRING file takes
the last trail place, and that a FILE_EXPIRED of a freed cursor takes it before the FILE_ACCEPTED of a stream the wait
list serves: DESIGN CHOICE, the spec gives no order within the step (log entry 32). -/
def State.portReset (s : State) (p : PortId) : State :=
  let s := s.discardRequests p
  let s := (s.streamsOf p).foldl State.resetStream s
  let s := (s.cursorsOf p).foldl State.freeCursorOf s
  s.dropCompletions p

/-- Set a port's link state. -/
def State.setLink (s : State) (p : PortId) (up : Bool) : State :=
  let port := s.ports[p]
  s.setPort p { port with up }

/-! ## Roles and settings of a port (R160, R161) -/

/-- Write the settings of a port to the Settings Area. -/
def State.setPortSettings (s : State) (p : PortId) (t : PortSettings) : State :=
  { s with settings := { s.settings with ports := s.settings.ports.set p t } }

/-- Write a role set (R160). -/
def State.writeRoles (s : State) (p : PortId) (roles : RoleSet) : State :=
  s.setPortSettings p { s.settings.ports[p] with roles }

/-- Whether some port would hold ADMIN with a new role set in place (R160, order 2). -/
def State.adminRemains (s : State) (target : PortId) (roles : RoleSet) : Bool :=
  roles.admin || (List.finRange 4).any (fun q => q ≠ target && (s.roles q).admin)

/-- The reply of a fetch that is formed and not sent is dropped (R144). -/
def State.dropFetched (s : State) (p : PortId) (tag : Byte) : State :=
  let port := s.ports[p]
  s.setPort p { port with unsent := port.unsent.filter (fun r => !r.fetched tag) }

/-- RETRIEVE withdrawn reaches a cursor (R144, R160): a fetch in progress, its reply not sent, is answered NOT_PERMITTED
with no records, the cursor is freed, and the requests held behind the fetch are taken. -/
def State.withdrawCursor (s : State) (p : PortId) (c : CursorId) : State :=
  match s.cursors[c].fetch with
  | some q =>
    State.takeHeld p c Config.outstandingRequests
      (((s.dropFetched p q.tag).answer p q.tag .notPermitted .empty).freeCursorOf c)
  | none => s.freeCursorOf c

/-- The withdrawal of roles reaches a port's work (R160), in ascending number: DESIGN CHOICE (log entry 32). A SET ROLES
that leaves the port without INGEST reaches its streams (R35). That one that leaves it without RETRIEVE frees its cursors
though the old set lacked RETRIEVE too is DESIGN CHOICE (log entry 37). -/
def State.withdrawRoles (s : State) (p : PortId) (roles : RoleSet) : State :=
  let s := if roles.ingest then s else (s.streamsOf p).foldl State.withdrawStream s
  if roles.retrieve then s else (s.cursorsOf p).foldl (fun s c => s.withdrawCursor p c) s

/-! ## PART STATUS (R162) -/

/-- The snapshot of the controller. -/
def State.snapshot (s : State) (p : PortId) : PartStatus where
  partCode := Config.partCode
  revision := Config.revisionNumber
  controller := if s.isStarting then .starting else .ready
  ports := (List.finRange 4).map (fun q => (s.ports[q].up, s.settings.ports[q]))
  requester := p
  alarms := s.alarms
  clock := s.clock
  filesHeld := s.heldFiles.length
  freeSegments := Runs.count s.freeList
  streamsBusy := (s.streams.toList.filter (fun st => st.state ≠ .idle)).length
  stagingRecords := s.stagingRecords
  completions := s.completions.length
  completionsOfPort := (s.completionsOf p).length
  retention := s.settings.retention.toList
  activeHolds := (s.holds.toList.filter (fun h => h.active)).length
  holds := s.holds.toList
  pass := s.pass
  sweepState := s.sweep.state
  sweepPosition := s.sweep.position
  cycles := s.sweep.cycles
  visit := s.sweep.visit.map Visit.segment
  findings := s.findings.length
  window := s.settings.window
  rest := s.settings.rest
  freeze := s.settings.freeze
  trailHeld := s.trail.entries.length
  trailNext := s.trail.nextSequence
  openCursors := (s.cursors.toList.filter (fun u => u.isOpen)).length

end Sys2Proof.Machine
end

