-- ==== Sys2Proof/Machine/Startup.lean ====
section
/-! DEFINITION. Resets and start-up (chapter 11): the first-ever initialisation, the taking of a module reset, power-on
and the start-up clean-up. -/

namespace Sys2Proof.Machine

/-- The first-ever contents of every stored part (R163, R21, R92, R125). -/
def State.firstEver (s : State) : State :=
  { s with
    settings := {}, files := [], segments := [], freeList := [(0, Config.segmentNumbers)], switches := [],
    holds := Vector.replicate 32 {}, trail := {} }

/-- The first act of STARTING: the whole first-ever initialisation, if it is not yet complete (R163). -/
def State.initialise (s : State) : State := if s.initialised then s else s.firstEver

/-- Every outstanding request of every port is discarded, and every reply that had not left (R153, R165). -/
def State.discardAllRequests (s : State) : State :=
  { s with ports := mapVector (fun q : PortState => { q with outstanding := [], unsent := [] }) s.ports, openings := [] }

/-- The working state returns to its reset values, but for the Day Clock and the links (R165, R22, R70, R87, R107, R134).
-/
def State.clearWork (s : State) : State :=
  { s with
    streams := Vector.replicate 12 {}, staging := [], blocked := [], completions := [], waiting := [],
    encodings := Vector.replicate 12 {}, headWait := none, storeFullEpisode := false, storePort := {},
    pass := {}, passWoken := false, sweep := {}, findings := [], cursors := Vector.replicate 16 {} }

/-- A module reset is taken (R165): every volatile block at its reset values, every pin count 0 (R21), every outstanding
request discarded, STARTING entered. -/
def State.takeReset (s : State) : State :=
  { (s.clearWork.clearPins.discardAllRequests.initialise) with controller := .starting, resetLow := false }

/-- Power-on (R165, R146, R153): as a module reset, with the clock UNSET at 0 and every link DOWN; the model's own free
values stand (log entry 31). -/
def State.powerUp (s : State) : State :=
  { s.takeReset with powered := true, clock := {}, ports := mapVector (fun q : PortState => { lineBusy := q.lineBusy }) s.ports }

/-! ## The clean-up (R166, R167) -/

/-- Step 1: every INGESTING file is removed, in ascending file index. -/
def State.removeIngesting (s : State) : State :=
  ((s.heldFiles.filter (fun e => e.2.state = .ingesting)).map Prod.fst).foldl
    (fun s i => (s.removeFile i).getD s) s

/-- The segments that are FILLING, in ascending order. -/
def State.fillingSegments (s : State) : List Nat :=
  (s.segments.filter (fun e => e.2.state = .filling)).map Prod.fst

/-- Step 2: every segment still FILLING is freed alone. -/
def State.freeFilling (s : State) : State := s.freeSegments s.fillingSegments

/-- The clean-up in its order, then the start-up cause and READY (R166, R167); the initialisation that precedes it is
then complete (R163). -/
def State.cleanUp (s : State) : State :=
  let s := { s with initialised := true }
  { s.removeIngesting.freeFilling.markAllUnreported.startCause with controller := .ready }

end Sys2Proof.Machine
end

