-- ==== Sys2Proof/Machine/IngestCommands.lean ====
section
/-! DEFINITION. The commands of the Ingest Engine: OPEN FILE, INGEST CHUNK, RESUME STREAM, ABORT STREAM, FETCH
COMPLETIONS, and the steps of a stream and of the Completion Queue's wait list. -/

namespace Sys2Proof.Machine

/-- An event of the part: nothing happens without supply (R165). -/
def State.event (s : State) (f : State → State) : State := if s.powered then f s else s

/-! ## OPEN FILE (R24, R25) -/

/-- Whether an OPEN FILE whose new-entry request is outstanding has reserved a stream (R24). -/
def State.streamReserved (s : State) (x : StreamId) : Bool :=
  s.openings.any (fun o => match o.request with | .file b => b.stream = x | .cursor _ => false)

/-- The lowest stream IDLE and unreserved (R24). -/
def State.freeStream (s : State) : Option StreamId :=
  (List.finRange 12).find? (fun x => s.streams[x].state = .idle && !s.streamReserved x)

/-- Orders 2 to 5 of R24. -/
def State.openFileBar (s : State) (fileDay retentionClass : Nat) (profile : Fin 4) : Option Status :=
  if !mapsRequired s.settings.profiles[profile].map.toList then some .badRequest
  else if !s.clockIsSet then some .clockUnset
  else if s.today < fileDay then some .fileDayFuture
  else if s.retentionOf retentionClass ≠ 0 ∧ fileDay + s.retentionOf retentionClass ≤ s.today then some .alreadyExpired
  else none

/-- The stream context a file opens on (R25). -/
def openedStream (p : PortId) (i switchId sequence : Nat) (profile : Fin 4) : Stream :=
  { owner := some p, fileIndex := some i, switchId := some switchId, sequence := some sequence,
    profile := some profile }

/-- The stream starts (R25): SEQUENCE_GAP first if the expected sequence is present and differs, then STARVED. -/
def State.startStream (s : State) (x : StreamId) (switchId sequence : Nat) : State :=
  match (s.switch switchId).expected with
  | some e => if e = sequence then s.enterWaiting x .starved else s.postThen x (.sequenceGap e sequence) .starved
  | none => s.enterWaiting x .starved

/-- A DONE new-entry request: the entry is created and the reserved stream set up, no step further (R2, R25). -/
def State.createOpened (s : State) (p : PortId) (i : Nat) (b : OpeningFile) : State :=
  (s.createFile i (newFile s b.switchId b.sequence b.fileDay b.retentionClass b.profile p)).setStream b.stream
    (openedStream p i b.switchId b.sequence b.profile)

/-- The new-entry request of an OPEN FILE is answered (R24, orders 6 and 7; R25). -/
def State.openFileAnswer (s : State) (p : PortId) (b : OpeningFile) : Answer :=
  match s.newEntryAnswer b.switchId b.sequence with
  | .duplicate => .refusal .duplicateFile s
  | .full => .refusal .tableFull s
  | .done i => .ok (.opened b.stream i) ((s.createOpened p i b).startStream b.stream b.switchId b.sequence)

/-- With no stream IDLE and unreserved the File Table is only read, as it stands (R24, orders 6 to 8). That an entry
still asked for is not held, though an earlier OPEN FILE of its pair is in progress, is DEDUCED (log entry 23). -/
def State.noStreamStatus (s : State) (switchId sequence : Nat) : Status :=
  match s.newEntryAnswer switchId sequence with
  | .duplicate => .duplicateFile
  | .full => .tableFull
  | .done _ => .noFreeStream

/-- OPEN FILE as its owning block takes it (R24): refused, or its stream reserved and its new-entry request asked. -/
def State.openFile (s : State) (switchId sequence fileDay : Nat) (retentionClass profile : Byte) :
    Except Status OpeningFile :=
  match upTo Config.lastSwitch switchId, upTo Config.lastDay fileDay, readUpTo 7 retentionClass,
      readIndex 4 profile with
  | some w, some d, some c, some f =>
    match s.openFileBar d c f with
    | some status => .error status
    | none =>
      match s.freeStream with
      | some x => .ok ⟨w, sequence, d, c, f, x⟩
      | none => .error (s.noStreamStatus w sequence)
  | _, _, _, _ => .error .badRequest

def execOpenFile (port : PortId) (tag : Byte) (switchId sequence fileDay : Wire16) (retentionClass profile : Byte)
    (s : State) : Host.Outcome State Fault Refusal :=
  .next (s.opening port tag (fun r => r.ingest)
    (fun s =>
      let o := s.byteOrder port
      s.openFile (wire16 o switchId) (wire16 o sequence) (wire16 o fileDay) retentionClass profile)
    .file (fun b s => s.openFileAnswer port b))

/-! ## INGEST CHUNK (R26, R27) -/

/-- The next mode of a chunk: 255 is absent, above 7 out of range (12.1, R26). -/
def readNextMode (b : Byte) : Option (Option Nat) :=
  if b.toNat = 255 then some none else if b.toNat ≤ 7 then some (some b.toNat) else none

/-- Orders 2 to 5 of R26. -/
def Stream.chunkBar (st : Stream) (p : PortId) : Option Status :=
  if st.state = .idle then some .noStream
  else if st.owner ≠ some p then some .notOwner
  else if st.state = .closing ∨ st.state = .aborting ∨ st.settled ∨ st.finalReceived then some .afterFinal
  else if !(st.buffer st.fillNext).isFree then some .buffersFull
  else none

/-- A chunk is stored in the next buffer to fill (R27); a STARVED stream becomes RUNNING. -/
def Stream.storeChunk (st : Stream) (final : Bool) (nextMode : Option Nat) (chunk : List Byte) : Stream :=
  let st := { st.setBuffer st.fillNext { bytes := chunk, consumed := 0, final, nextMode } with
    fillNext := st.fillNext.other
    finalReceived := st.finalReceived || final }
  if st.state = .starved then { st with state := .running, countdown := .stopped } else st

/-- INGEST CHUNK as its owning block takes it (R26, R27). -/
def State.ingestChunk (s : State) (p : PortId) (stream final nextMode : Byte) (chunk : List Byte) : Answer :=
  match readIndex 12 stream, readYesNo final, readNextMode nextMode with
  | some x, some f, some m =>
    if chunk.length = 0 ∨ Config.chunkLimit < chunk.length then .refusal .badRequest s
    else match s.streams[x].chunkBar p with
    | some status => .refusal status s
    | none => .ok .empty (s.updateStream x (fun st => st.storeChunk f m chunk))
  | _, _, _ => .refusal .badRequest s

/-- The body of INGEST CHUNK is 3 to 16,387 bytes (12.2). -/
def chunkFormOk (chunk : List Byte) : Bool := chunk.length ≤ Config.chunkLimit

def execIngestChunk (port : PortId) (tag : Byte) (stream final nextMode : Byte) (chunk : List Byte) (s : State) :
    Host.Outcome State Fault Refusal :=
  .next (s.request port tag (chunkFormOk chunk) (fun r => r.ingest)
    (fun s => s.ingestChunk port stream final nextMode chunk))

/-! ## RESUME STREAM (R32) -/

/-- The substitute of a RESUME STREAM: not examined when its presence byte is 0 (R168). -/
def readSubstitute (present kind includeInCheck nextMode hold : Byte) : Option (Option ClassEntry) :=
  match readYesNo present with
  | none => none
  | some false => some none
  | some true => (readClassEntry kind includeInCheck nextMode hold).map some

/-- Orders 2 to 4 of R32. -/
def Stream.resumeBar (st : Stream) (p : PortId) : Option Status :=
  if st.state = .idle then some .noStream
  else if st.owner ≠ some p then some .notOwner
  else if st.state ≠ .held then some .wrongState
  else none

/-- A HELD stream processes its held byte and becomes RUNNING (R32); what the byte brings follows. -/
def State.resumeHeld (s : State) (x : StreamId) (substitute : Option ClassEntry) : State :=
  match s.streams[x].heldByte with
  | none => s.updateStream x (fun st => { st with state := .running, countdown := .stopped })
  | some h =>
    let h : HeldByte := { h with substitute }
    let e := h.substitute.getD (s.classEntry x h.value)
    let s := s.updateStream x (fun st => { st with state := .running, countdown := .stopped, heldByte := none })
    (s.takeByte x e h.value).exhaust x

/-- RESUME STREAM as its owning block takes it (R32). -/
def State.resumeStream (s : State) (p : PortId) (stream present kind includeInCheck nextMode hold : Byte) : Answer :=
  match readIndex 12 stream, readSubstitute present kind includeInCheck nextMode hold with
  | some x, some substitute =>
    match s.streams[x].resumeBar p with
    | some status => .refusal status s
    | none => .ok .empty (s.resumeHeld x substitute)
  | _, _ => .refusal .badRequest s

def execResumeStream (port : PortId) (tag : Byte) (stream present kind includeInCheck nextMode hold : Byte)
    (s : State) : Host.Outcome State Fault Refusal :=
  .next (s.request port tag true (fun r => r.ingest)
    (fun s => s.resumeStream port stream present kind includeInCheck nextMode hold))

/-! ## ABORT STREAM (R33) -/

/-- The refusals of R33 after the stream number. -/
def Stream.abortBar (st : Stream) (p : PortId) : Option Status :=
  if st.state = .idle then some .noStream
  else if st.owner ≠ some p then some .notOwner
  else if !st.abortable then some .wrongState
  else none

/-- ABORT STREAM as its owning block takes it (R33, R34). -/
def State.abortStream (s : State) (p : PortId) (stream : Byte) : Answer :=
  match readIndex 12 stream with
  | some x =>
    match s.streams[x].abortBar p with
    | some status => .refusal status s
    | none => .ok .empty (s.beginAbort x .request)
  | none => .refusal .badRequest s

def execAbortStream (port : PortId) (tag : Byte) (stream : Byte) (s : State) : Host.Outcome State Fault Refusal :=
  .next (s.request port tag true (fun r => r.ingest) (fun s => s.abortStream port stream))

/-! ## FETCH COMPLETIONS (R44) -/

/-- The Completion Queue without the `n` oldest entries of a port. -/
def dropOf (p : PortId) : Nat → List Completion → List Completion
  | _, [] => []
  | 0, es => es
  | n + 1, e :: es => if e.port = p then dropOf p n es else e :: dropOf p (n + 1) es

/-- FETCH COMPLETIONS (R44): up to 16 of the port's oldest entries leave the queue, and the wait list is served. The
remaining count is that of the removal, before the list is served. DEDUCED (log entry 5). -/
def State.fetchCompletions (s : State) (p : PortId) : Answer :=
  let es := s.completionsOf p
  .ok (.completions (es.take 16) (es.length - 16)) (s.removeCompletions (dropOf p 16 s.completions))

def execFetchCompletions (port : PortId) (tag : Byte) (s : State) : Host.Outcome State Fault Refusal :=
  .next (s.request port tag true (fun _ => true) (fun s => s.fetchCompletions port))

/-! ## Steps of a stream -/

/-- A STARVED or HELD stream whose countdown has reached 0 begins an abort with cause TIMEOUT (R30). -/
def State.streamExpiry (s : State) (x : StreamId) : State :=
  let st := s.streams[x]
  if st.countdown = .due ∧ (st.state = .starved ∨ st.state = .held) then s.beginAbort x .timeout else s

def execStreamCountdownExpiry (stream : StreamId) (s : State) : Host.Outcome State Fault Refusal :=
  .next (s.event (fun s => s.streamExpiry stream))

def execStreamByte (stream : StreamId) (s : State) : Host.Outcome State Fault Refusal :=
  .next (s.event (fun s => s.streamByte stream))

def execBlockedStreamResumed (s : State) : Host.Outcome State Fault Refusal :=
  .next (s.event State.resumeBlocked)

def execCompletionWaitServed (s : State) : Host.Outcome State Fault Refusal :=
  .next (s.event State.serveWaitList)

def execCloseAcknowledgement (stream : StreamId) (s : State) : Host.Outcome State Fault Refusal :=
  .next (s.event (fun s => s.acknowledgeClose stream))

/-- A CLOSING stream that waits for trail room tries again (R40). -/
def State.retryAcceptance (s : State) (x : StreamId) : State :=
  let st := s.streams[x]
  match st.verdict with
  | some reasons => if st.state = .closing then s.acceptStream x reasons else s
  | none => s

def execClosingStreamTrailRetry (stream : StreamId) (s : State) : Host.Outcome State Fault Refusal :=
  .next (s.event (fun s => s.retryAcceptance stream))

def execAbortReached (stream : StreamId) (s : State) : Host.Outcome State Fault Refusal :=
  .next (s.event (fun s => s.tellAbort stream))

end Sys2Proof.Machine
end

