-- ==== Sys2Proof/Machine/EncoderCommands.lean ====
section
/-! DEFINITION. The commands of the Segment Encoder and the reports of store writes. -/

namespace Sys2Proof.Machine

def execEncoderTakeHead (s : State) : Host.Outcome State Fault Refusal := .next (s.event State.takeHead)

def execStoreFullWaitRetry (s : State) : Host.Outcome State Fault Refusal := .next (s.event State.retryStoreFull)

def execImageWaitEnd (s : State) : Host.Outcome State Fault Refusal := .next (s.event State.endImageWait)

/-- The Store Port's report on a write in progress (R87): `effect` is what the Encoder makes of it; the next operation
then starts. With no write in progress there is no report. An extent the store does not have is a fault. -/
def State.writeReport (s : State) (effect : StreamId → Nat → State → State) : Host.Outcome State Fault Refusal :=
  match s.storePort.current with
  | some (.write x n) =>
    if !s.powered then .next s
    else if extentExists n then .next (effect x n s).endStore
    else .fault (.noSuchExtent n)
  | _ => .next s

def execStoreWriteComplete (s : State) : Host.Outcome State Fault Refusal :=
  s.writeReport (fun x n s => s.writeDone x n)

def execStoreWriteError (left : List Byte) (s : State) : Host.Outcome State Fault Refusal :=
  s.writeReport (fun x n s => s.writeFailed x n left)

end Sys2Proof.Machine
end

