-- ==== Sys2Proof/Machine/RetrievalCommands.lean ====
section
/-! DEFINITION. The commands of the Retrieval Unit: OPEN CURSOR, FETCH RECORDS, CLOSE CURSOR, the idle expiry and the
report of a retrieval read. -/

namespace Sys2Proof.Machine

/-! ## OPEN CURSOR (R135, R136) -/

/-- The optional starting ordinal, 0 when absent; not examined when its presence byte is 0 (R135, R168). -/
def readStart (present : Byte) (start : Nat) : Option Nat :=
  match readYesNo present with
  | none => none
  | some false => some 0
  | some true => upTo Config.fileRecordLimit start

/-- What a pin request's answer refuses (R135, orders 2 to 4). -/
def PinAnswer.bar : PinAnswer → Option Status
  | .absent => some .noFile
  | .notReady => some .fileNotReady
  | .expiring => some .fileExpiring
  | .done _ _ => none

/-- A DONE pin request: the file is pinned and the reserved cursor placed (R16, R136). -/
def State.pinOpened (s : State) (p : PortId) (i : Nat) (f : File) (b : OpeningCursor) : State :=
  (s.pin i).setCursor b.cursor (s.openedCursor p i f b.start)

/-- The pin request of an OPEN CURSOR is answered (R135, R136). A reserved cursor is FREE, as no other request can open it.
-/
def State.openCursorAnswer (s : State) (p : PortId) (b : OpeningCursor) : Answer :=
  match s.pinAnswer b.switchId b.sequence with
  | .done i f =>
    if s.cursors[b.cursor].isOpen then .refusal .noFreeCursor s
    else
      .ok (.cursorOpened b.cursor f.state f.rounding i f.recordCount (s.openedCursor p i f b.start).nextOrdinal)
        (s.pinOpened p i f b)
  | other => .refusal (other.bar.getD .noFile) s

/-- OPEN CURSOR as its owning block takes it (R135): refused, or its cursor reserved and its pin request asked. With no
cursor FREE and unreserved the File Table is only read. -/
def State.openCursor (s : State) (switchId sequence : Nat) (present : Byte) (start : Nat) : Except Status OpeningCursor :=
  match upTo Config.lastSwitch switchId, readStart present start with
  | some w, some k =>
    match s.freeCursor with
    | some c => .ok ⟨w, sequence, k, c⟩
    | none => .error ((s.pinAnswer w sequence).bar.getD .noFreeCursor)
  | _, _ => .error .badRequest

def execOpenCursor (port : PortId) (tag : Byte) (switchId sequence : Wire16) (present : Byte) (start : Wire32)
    (s : State) : Host.Outcome State Fault Refusal :=
  .next (s.opening port tag (fun r => r.retrieve)
    (fun s =>
      let o := s.byteOrder port
      s.openCursor (wire16 o switchId) (wire16 o sequence) present (wire32 o start))
    .cursor (fun b s => s.openCursorAnswer port b))

/-! ## FETCH RECORDS and CLOSE CURSOR (R137, R143, R156) -/

/-- A request that names a cursor: held untaken while an earlier request of the port that names it is unanswered (R156),
otherwise judged and taken. -/
def State.nameCursor (s : State) (p : PortId) (tag : Byte) (cursor : Byte) (held : CursorId → Standing)
    (take : CursorId → State → State) : State :=
  match readIndex 16 cursor with
  | none => s.permit p tag (fun r => r.retrieve) (fun s => s.refuse p tag .badRequest)
  | some c =>
    if s.cursorBusy p c then s.takeEntry p tag (held c)
    else s.permit p tag (fun r => r.retrieve) (fun s =>
      if s.ownsCursor p c then take c s else s.refuse p tag .noCursor)

def execFetchRecords (port : PortId) (tag : Byte) (cursor : Byte) (count : Wire16) (s : State) :
    Host.Outcome State Fault Refusal :=
  .next (s.receive port tag true false (fun s =>
    let n := wire16 (s.byteOrder port) count
    s.nameCursor port tag cursor (fun c => .heldFetch c n) (fun c s => (s.takeFetch port tag c n).1)))

def execCloseCursor (port : PortId) (tag : Byte) (cursor : Byte) (s : State) : Host.Outcome State Fault Refusal :=
  .next (s.receive port tag true false (fun s =>
    s.nameCursor port tag cursor .heldClose (fun c s => (s.freeCursorOf c).reply port tag .ok .empty)))

/-! ## Idle expiry and read reports -/

/-- A cursor whose idle countdown has reached 0 is freed (R142). -/
def State.cursorExpiry (s : State) (c : CursorId) : State :=
  let u := s.cursors[c]
  if u.isOpen ∧ u.idle = .due then s.freeCursorOf c else s

def execCursorIdleExpiry (cursor : CursorId) (s : State) : Host.Outcome State Fault Refusal :=
  .next (s.event (fun s => s.cursorExpiry cursor))

/-- A retrieval read ends (R138, R139, R144): a live one is judged, and when the reply of its fetch is sent the requests
held behind it are taken (R156); then the next store operation starts (R87). -/
def State.endRetrievalRead (s : State) (c : CursorId) (live : Bool) (report : ReadReport) : State :=
  if live then
    let owner := s.cursors[c].owner
    match s.retrievalRead c report, owner with
    | (s, true), some p => (State.takeHeld p c Config.outstandingRequests s).endStore
    | (s, _), _ => s.endStore
  else s.endStore

def execRetrievalReadComplete (report : ReadReport) (s : State) : Host.Outcome State Fault Refusal :=
  match s.storePort.current with
  | some (.read c n live) =>
    if !s.powered then .next s
    else if extentExists n then .next (s.endRetrievalRead c live report)
    else .fault (.noSuchExtent n)
  | _ => .next s

end Sys2Proof.Machine
end

