-- ==== Sys2Proof/Machine/SweepCommands.lean ====
section
/-! DEFINITION. The commands of the Audit Sweep Unit: the Finding Log, the sweep's settings and control, and its own
steps. -/

namespace Sys2Proof.Machine

/-! ## FETCH FINDINGS (R124) -/

/-- FETCH FINDINGS: up to 16 of the oldest findings leave the log; a WAITING_LOG sweep that now has room returns to
ACTIVE and looks (R110). -/
def State.fetchFindings (s : State) : Answer :=
  .ok (.findings (s.findings.take 16) (s.findings.length - 16))
    ({ s with findings := s.findings.drop 16 }).logRoom

def execFetchFindings (port : PortId) (tag : Byte) (s : State) : Host.Outcome State Fault Refusal :=
  .next (s.request port tag true (fun r => r.audit) State.fetchFindings)

/-! ## Settings and control (R108, R119 to R122) -/

/-- SET SWEEP SETTINGS (R108). -/
def State.setSweepSettings (s : State) (window rest : Nat) (freeze : Byte) : Answer :=
  match readYesNo freeze with
  | none => .refusal .badRequest s
  | some f =>
    let w := max 1 (min window 4096)
    let r := min rest 3600
    .ok (.sweepSettings w r f) { s with settings := { s.settings with window := w, rest := r, freeze := f } }

def execSetSweepSettings (port : PortId) (tag : Byte) (window rest : Wire16) (freeze : Byte) (s : State) :
    Host.Outcome State Fault Refusal :=
  .next (s.request port tag true (fun r => r.audit) (fun s =>
    let o := s.byteOrder port
    s.setSweepSettings (wire16 o window) (wire16 o rest) freeze))

/-- START SWEEP (R119). -/
def State.startSweep (s : State) : Answer :=
  if s.sweep.state = .stopped ∨ s.sweep.state = .frozen then
    .ok .empty { s with sweep := { s.sweep with state := .active, visitsLeft := s.settings.window } }
  else .refusal .wrongState s

def execStartSweep (port : PortId) (tag : Byte) (s : State) : Host.Outcome State Fault Refusal :=
  .next (s.request port tag true (fun r => r.audit) State.startSweep)

/-- STOP SWEEP (R120). -/
def State.stopSweep (s : State) : Answer :=
  .ok .empty { s with sweep := { s.sweep with state := .stopped, rest := .stopped } }

def execStopSweep (port : PortId) (tag : Byte) (s : State) : Host.Outcome State Fault Refusal :=
  .next (s.request port tag true (fun r => r.audit) State.stopSweep)

/-- The refusals of STEP SWEEP (R121). -/
def State.stepBar (s : State) : Option Status :=
  let w := s.sweep
  if w.state = .active ∨ w.state = .resting ∨ w.state = .waitingLog then some .wrongState
  else if w.visit.isSome then some .wrongState
  else if s.findingPlaces < Config.visitPlaces then some .logFull
  else none

/-- STEP SWEEP (R121): refused, answered NONE at once, or outstanding until its visit ends. -/
def State.stepSweep (s : State) (p : PortId) (tag : Byte) : State :=
  match s.stepBar with
  | some status => s.refuse p tag status
  | none =>
    match s.stepWalk p tag with
    | (s, true) => s.takeEntry p tag .stepping
    | (s, false) => s.reply p tag .ok (.stepped .none 0 0)

def execStepSweep (port : PortId) (tag : Byte) (s : State) : Host.Outcome State Fault Refusal :=
  .next (s.receive port tag true false (fun s =>
    s.permit port tag (fun r => r.audit) (fun s => s.stepSweep port tag)))

/-- RESTART SWEEP (R122). -/
def State.restartSweep (s : State) : Answer :=
  .ok .empty
    ({ s with sweep := { s.sweep with
      position := 0, visit := s.sweep.visit.map (fun v : Visit => { v with restarted := true }) } }).markAllUnreported

def execRestartSweep (port : PortId) (tag : Byte) (s : State) : Host.Outcome State Fault Refusal :=
  .next (s.request port tag true (fun r => r.audit) State.restartSweep)

/-! ## The sweep's own steps -/

/-- The rest countdown has reached 0 in RESTING (R118): a new window, ACTIVE; the look is a step of its own. -/
def State.restExpiry (s : State) : State :=
  let w := s.sweep
  if w.state = .resting ∧ w.rest = .due then
    { s with sweep := { w with state := .active, visitsLeft := s.settings.window, rest := .stopped } }
  else s

def execSweepRestExpiry (s : State) : Host.Outcome State Fault Refusal := .next (s.event State.restExpiry)

def execSweepLook (s : State) : Host.Outcome State Fault Refusal := .next (s.event State.sweepLooks)

def execSweepLogRoom (s : State) : Host.Outcome State Fault Refusal := .next (s.event State.logRoom)

def execSweepReadComplete (report : ReadReport) (s : State) : Host.Outcome State Fault Refusal :=
  match s.storePort.current with
  | some (.sweep n) =>
    if !s.powered then .next s
    else if extentExists n then .next (s.sweepRead report).endStore
    else .fault (.noSuchExtent n)
  | _ => .next s

end Sys2Proof.Machine
end

