-- ==== Sys2Proof/Machine/TrailCommands.lean ====
section
/-! DEFINITION. The commands of the Trail Unit: FETCH TRAIL and ACK TRAIL. -/

namespace Sys2Proof.Machine

/-- FETCH TRAIL (R130): copies of up to 16 of the oldest entries; nothing is removed. -/
def State.fetchTrail (s : State) : Answer :=
  .ok (.trail (s.trail.entries.take 16) s.trail.entries.length s.trail.baseChain) s

def execFetchTrail (port : PortId) (tag : Byte) (s : State) : Host.Outcome State Fault Refusal :=
  .next (s.request port tag true (fun r => r.audit) State.fetchTrail)

/-- ACK TRAIL (R131). A pass in WAITING_TRAIL is woken (R99): its revisit is the step PASS_TRAIL_RETRY, as the stream's is
CLOSING_STREAM_TRAIL_RETRY. DEDUCED (log entries 5 and 26). -/
def State.ackTrail (s : State) (sequence : Nat) : Answer :=
  match s.trail.placeOf sequence with
  | none => .refusal .badSequence s
  | some n =>
    let t := s.trail.removeOldest n
    .ok (.acknowledged n t.entries.length) { s with trail := t, passWoken := s.passWoken || s.pass.state = .waitingTrail }

def execAckTrail (port : PortId) (tag : Byte) (sequence : Wire32) (s : State) : Host.Outcome State Fault Refusal :=
  .next (s.request port tag true (fun r => r.audit)
    (fun s => s.ackTrail (wire32 (s.byteOrder port) sequence)))

end Sys2Proof.Machine
end

