-- ==== Sys2Proof/Machine/RetentionCommands.lean ====
section
/-! DEFINITION. The commands of the Retention Unit: retention, holds, the expiry pass, disputes and losses. -/

namespace Sys2Proof.Machine

/-! ## SET RETENTION (R90) -/

/-- SET RETENTION as its owning block takes it (R90). -/
def State.setRetention (s : State) (p : PortId) (retentionClass : Byte) (days : Nat) : Answer :=
  match readIndex 8 retentionClass with
  | none => .refusal .badRequest s
  | some c =>
    if s.trailRoom then
      let d := min days Config.retentionLimit
      let s := s.record .retentionChanged (some p) (.index c.val) d
      .ok (.retentionSet d) { s with settings := { s.settings with retention := s.settings.retention.set c d } }
    else .refusal .trailFull s

def execSetRetention (port : PortId) (tag : Byte) (retentionClass : Byte) (days : Wire16) (s : State) :
    Host.Outcome State Fault Refusal :=
  .next (s.request port tag true (fun r => r.admin)
    (fun s => s.setRetention port retentionClass (wire16 (s.byteOrder port) days)))

/-! ## PLACE HOLD and RELEASE HOLD (R93, R94) -/

/-- PLACE HOLD with its arguments in range. -/
def State.placeHoldTested (s : State) (p : PortId) (h : Hold) : Answer :=
  match s.freeHold with
  | none => .refusal .noFreeHold s
  | some i =>
    if s.trailRoom then
      .ok (.holdPlaced i.val)
        ((({ s with holds := s.holds.set i h }).record .holdPlaced (some p) (.index i.val) 0).returnHeld h)
    else .refusal .trailFull s

/-- PLACE HOLD as its owning block takes it (R93). -/
def State.placeHold (s : State) (p : PortId) (selector firstDay lastDay : Nat) (labelPresent labelLength : Byte)
    (label : List Byte) : Answer :=
  match readSelector selector, upTo Config.lastDay firstDay, upTo Config.lastDay lastDay,
      readLabel labelPresent labelLength label with
  | some w, some a, some b, some l =>
    if a ≤ b then
      s.placeHoldTested p { active := true, selector := w, firstDay := a, lastDay := b, placingPort := p, label := l }
    else .refusal .badRequest s
  | _, _, _, _ => .refusal .badRequest s

/-- The body of PLACE HOLD is 24 bytes, 16 of them label bytes (12.2). -/
def holdFormOk (label : List Byte) : Bool := label.length = 16

def execPlaceHold (port : PortId) (tag : Byte) (selector firstDay lastDay : Wire16) (labelPresent labelLength : Byte)
    (label : List Byte) (s : State) : Host.Outcome State Fault Refusal :=
  .next (s.request port tag (holdFormOk label) (fun r => r.admin) (fun s =>
    let o := s.byteOrder port
    s.placeHold port (wire16 o selector) (wire16 o firstDay) (wire16 o lastDay) labelPresent labelLength label))

/-- RELEASE HOLD (R94). -/
def State.releaseHold (s : State) (p : PortId) (hold : Byte) : Answer :=
  match readIndex 32 hold with
  | none => .refusal .badRequest s
  | some i =>
    if !s.holds[i].active then .refusal .wrongState s
    else if s.trailRoom then
      .ok .empty (({ s with holds := s.holds.set i {} }).record .holdReleased (some p) (.index i.val) 0)
    else .refusal .trailFull s

def execReleaseHold (port : PortId) (tag : Byte) (hold : Byte) (s : State) : Host.Outcome State Fault Refusal :=
  .next (s.request port tag true (fun r => r.admin) (fun s => s.releaseHold port hold))

/-! ## The expiry pass (R96, R101, R102) -/

/-- EXPIRE NOW (R96): the reply says whether a pass has begun or pass-again was set. -/
def State.expireNow (s : State) : Answer :=
  if s.clockIsSet then .ok (.expireOutcome (s.pass.state ≠ .idle)) s.startCause else .refusal .clockUnset s

def execExpireNow (port : PortId) (tag : Byte) (s : State) : Host.Outcome State Fault Refusal :=
  .next (s.request port tag true (fun r => r.admin) State.expireNow)

/-- PAUSE EXPIRY (R101). -/
def State.pauseExpiry (s : State) : Answer :=
  let state := match s.pass.state with
    | .walking => PassState.paused
    | .waitingTrail => .paused
    | other => other
  .ok .empty { s with pass := { s.pass with paused := true, state }, passWoken := false }

def execPauseExpiry (port : PortId) (tag : Byte) (s : State) : Host.Outcome State Fault Refusal :=
  .next (s.request port tag true (fun r => r.admin) State.pauseExpiry)

/-- RESUME EXPIRY (R102): a PAUSED pass visits the index at its position anew. -/
def State.resumeExpiry (s : State) : Answer :=
  let paused := s.pass.state = .paused
  let s := { s with pass := { s.pass with paused := false } }
  .ok .empty (if paused then s.walkAgain else s)

def execResumeExpiry (port : PortId) (tag : Byte) (s : State) : Host.Outcome State Fault Refusal :=
  .next (s.request port tag true (fun r => r.admin) State.resumeExpiry)

/-- A WALKING pass makes its visit (R97). -/
def State.passVisit (s : State) : State := if s.pass.state = .walking then s.visit else s

def execPassVisit (s : State) : Host.Outcome State Fault Refusal := .next (s.event State.passVisit)

/-- Entries have left the trail while the pass waits for room: it revisits its index (R99). Without such a removal it waits
on. -/
def State.passRetry (s : State) : State :=
  if s.pass.state = .waitingTrail ∧ s.passWoken then ({ s with passWoken := false }).walkAgain else s

def execPassTrailRetry (s : State) : Host.Outcome State Fault Refusal := .next (s.event State.passRetry)

/-! ## CLEAR DISPUTE and ACCEPT LOSS (R105, R106) -/

/-- CLEAR DISPUTE (R105). -/
def State.clearDisputeOf (s : State) (p : PortId) (switchId sequence : Nat) : Answer :=
  match upTo Config.lastSwitch switchId with
  | none => .refusal .badRequest s
  | some w =>
    match s.findFile w sequence with
    | none => .refusal .noFile s
    | some (i, f) =>
      if f.state ≠ .disputed then .refusal .wrongState s
      else if s.trailRoom then
        let s := s.record .disputeCleared (some p) (f.subject i) f.recordCount
        .ok .empty ((s.clearDispute i).getD s)
      else .refusal .trailFull s

def execClearDispute (port : PortId) (tag : Byte) (switchId sequence : Wire16) (s : State) :
    Host.Outcome State Fault Refusal :=
  .next (s.request port tag true (fun r => r.admin) (fun s =>
    let o := s.byteOrder port
    s.clearDisputeOf port (wire16 o switchId) (wire16 o sequence)))

/-- ACCEPT LOSS (R106). -/
def State.acceptLossOf (s : State) (p : PortId) (switchId sequence : Nat) : Answer :=
  match upTo Config.lastSwitch switchId with
  | none => .refusal .badRequest s
  | some w =>
    match s.findFile w sequence with
    | none => .refusal .noFile s
    | some (i, f) =>
      if f.state = .ingesting then .refusal .wrongState s
      else if f.lossAccepted then .ok .empty s
      else if s.trailRoom then
        let s := s.record .lossAccepted (some p) (f.subject i) f.recordCount
        .ok .empty ((s.acceptLoss i).getD s)
      else .refusal .trailFull s

def execAcceptLoss (port : PortId) (tag : Byte) (switchId sequence : Wire16) (s : State) :
    Host.Outcome State Fault Refusal :=
  .next (s.request port tag true (fun r => r.admin) (fun s =>
    let o := s.byteOrder port
    s.acceptLossOf port (wire16 o switchId) (wire16 o sequence)))

end Sys2Proof.Machine
end

