-- ==== Sys2Proof/Machine/SettingsCommands.lean ====
section
/-! DEFINITION. The ADMIN commands that write stored settings and the clock: class entries, field maps, roles, port
settings, SET CLOCK. -/

namespace Sys2Proof.Machine

/-! ## LOAD CLASS ENTRIES (R47) -/

/-- Write class entries from a key on. -/
def writeEntries (key : Nat) : List ClassEntry → Sparse ClassEntry → Sparse ClassEntry
  | [], m => m
  | e :: es, m => writeEntries (key + 1) es (Sparse.set {} key e m)

/-- Replace a profile in the Settings Area (R46). -/
def State.setProfile (s : State) (i : Fin 4) (f : Profile) : State :=
  { s with settings := { s.settings with profiles := s.settings.profiles.set i f } }

/-- LOAD CLASS ENTRIES as its owning block takes it (R47). Load and reply are one step: a load that a reset or a loss of
power cuts short is the request not taken, or taken with its reply. DESIGN CHOICE (log entry 34). -/
def State.loadClassEntries (s : State) (profile mode firstByte : Byte) (count : Nat) (entries : List WireClassEntry) :
    Answer :=
  match readIndex 4 profile, readUpTo 7 mode, readClassEntries entries with
  | some i, some m, some es =>
    if count = 0 ∨ 256 < firstByte.toNat + count ∨ entries.length ≠ count then .refusal .badRequest s
    else
      let f := s.settings.profiles[i]
      .ok .empty (s.setProfile i { f with classes := writeEntries (m * 256 + firstByte.toNat) es f.classes })
  | _, _, _ => .refusal .badRequest s

/-- The body of LOAD CLASS ENTRIES carries 1 to 256 entries (12.2). -/
def entriesFormOk (entries : List WireClassEntry) : Bool := 1 ≤ entries.length ∧ entries.length ≤ 256

def execLoadClassEntries (port : PortId) (tag : Byte) (profile mode firstByte : Byte) (count : Wire16)
    (entries : List WireClassEntry) (s : State) : Host.Outcome State Fault Refusal :=
  .next (s.request port tag (entriesFormOk entries) (fun r => r.admin)
    (fun s => s.loadClassEntries profile mode firstByte (wire16 (s.byteOrder port) count) entries))

/-! ## LOAD FIELD MAP (R48) -/

/-- LOAD FIELD MAP as its owning block takes it (R48); load and reply are one step. DESIGN CHOICE (log entry 34). -/
def State.loadFieldMap (s : State) (profile : Byte) (targets : List Byte) (rounding overflow : Byte) : Answer :=
  match readIndex 4 profile, readTargets targets, readRounding rounding, readOverflow overflow with
  | some i, some ts, some r, some k =>
    if h : ts.length = 16 then
      if mapsOnce ts ∧ mapsRequired ts then
        let f := s.settings.profiles[i]
        .ok .empty (s.setProfile i { f with map := ⟨ts.toArray, by simpa using h⟩, rounding := r, overflow := k })
      else .refusal .badRequest s
    else .refusal .badRequest s
  | _, _, _, _ => .refusal .badRequest s

/-- The body of LOAD FIELD MAP carries 16 targets (12.2). -/
def mapFormOk (targets : List Byte) : Bool := targets.length = 16

def execLoadFieldMap (port : PortId) (tag : Byte) (profile : Byte) (targets : List Byte) (rounding overflow : Byte)
    (s : State) : Host.Outcome State Fault Refusal :=
  .next (s.request port tag (mapFormOk targets) (fun r => r.admin)
    (fun s => s.loadFieldMap profile targets rounding overflow))

/-! ## SET CLOCK (R149) -/

/-- SET CLOCK as its owning block takes it (R149). -/
def State.setClock (s : State) (p : PortId) (value : Nat) : Answer :=
  if s.trailRoom then
    let v := min value Config.clockLimit
    let t := s.setClockTo p v
    .ok (.clockSet s.stamp v t.clock.state) t
  else .refusal .trailFull s

def execSetClock (port : PortId) (tag : Byte) (value : Wire32) (s : State) : Host.Outcome State Fault Refusal :=
  .next (s.request port tag true (fun r => r.admin) (fun s => s.setClock port (wire32 (s.byteOrder port) value)))

/-! ## SET ROLES and SET PORT SETTINGS (R160, R161) -/

/-- SET ROLES as its owning block takes it (R160). -/
def State.setRoles (s : State) (p : PortId) (target roles : Byte) : Answer :=
  match readIndex 4 target, readRoles roles with
  | some q, some r =>
    if !s.adminRemains q r then .refusal .lastAdmin s
    else if s.trailRoom then
      .ok .empty (((s.record .rolesChanged (some p) (.roles q r) 0).writeRoles q r).withdrawRoles q r)
    else .refusal .trailFull s
  | _, _ => .refusal .badRequest s

def execSetRoles (port : PortId) (tag : Byte) (target roles : Byte) (s : State) : Host.Outcome State Fault Refusal :=
  .next (s.request port tag true (fun r => r.admin) (fun s => s.setRoles port target roles))

/-- SET PORT SETTINGS as its owning block takes it (R161). A timeout is one byte, so none is above 255. -/
def State.setPortSettingsOf (s : State) (target byteOrder streamTimeout cursorTimeout : Byte) : Answer :=
  match readIndex 4 target, readByteOrder byteOrder with
  | some q, some o =>
    .ok .empty (s.setPortSettings q
      { s.settings.ports[q] with
        byteOrder := o, streamTimeout := streamTimeout.toNat, cursorTimeout := cursorTimeout.toNat })
  | _, _ => .refusal .badRequest s

def execSetPortSettings (port : PortId) (tag : Byte) (target byteOrder streamTimeout cursorTimeout : Byte)
    (s : State) : Host.Outcome State Fault Refusal :=
  .next (s.request port tag true (fun r => r.admin)
    (fun s => s.setPortSettingsOf target byteOrder streamTimeout cursorTimeout))

end Sys2Proof.Machine
end

