-- ==== Sys2Proof/Machine/CatalogueCommands.lean ====
section
/-! DEFINITION. The informational requests: FILE INFO, LIST FILES, SEGMENT INFO, PART STATUS. They change nothing. -/

namespace Sys2Proof.Machine

/-! ## FILE INFO (R18) -/

/-- The expire day of a file, absent when its class retention is 0 (R18, R91). -/
def State.expireDay (s : State) (f : File) : Option Nat :=
  if s.retentionOf f.retentionClass = 0 then none else some (f.fileDay + s.retentionOf f.retentionClass)

/-- FILE INFO as its owning block takes it (R18). -/
def State.fileInfo (s : State) (switchId sequence : Nat) : Answer :=
  match upTo Config.lastSwitch switchId with
  | none => .refusal .badRequest s
  | some w =>
    match s.findFile w sequence with
    | none => .refusal .noFile s
    | some (i, f) => .ok (.fileInfo i f (s.switch w).fileCount (s.switch w).expected (s.expireDay f)) s

def execFileInfo (port : PortId) (tag : Byte) (switchId sequence : Wire16) (s : State) :
    Host.Outcome State Fault Refusal :=
  .next (s.request port tag true RoleSet.anyRole (fun s =>
    let o := s.byteOrder port
    s.fileInfo (wire16 o switchId) (wire16 o sequence)))

/-! ## LIST FILES (R19) -/

/-- What a LIST FILES asks for. -/
structure FileQuery where
  selector : Option Nat
  firstDay : Nat
  lastDay : Nat
  states : List FileState
  start : Nat
  deriving DecidableEq, Repr

/-- Whether an entry matches (R19). -/
def FileQuery.selects (q : FileQuery) (i : Nat) (f : File) : Bool :=
  q.start ≤ i && (match q.selector with | none => true | some w => w = f.switchId)
    && q.firstDay ≤ f.fileDay && f.fileDay ≤ q.lastDay && q.states.contains f.state

/-- The reference to an entry (R19). -/
def fileReference (e : Nat × File) : FileReference :=
  { fileIndex := e.1, switchId := e.2.switchId, sequence := e.2.sequence, fileDay := e.2.fileDay, state := e.2.state }

/-- The index after a reference, absent at the end of the table (R19). -/
def indexAfter (r : FileReference) : Option Nat :=
  if r.fileIndex + 1 < Config.fileEntries then some (r.fileIndex + 1) else none

/-- The continuation index of a walk of `limit` references that found these (R19). -/
def continuation (start limit : Nat) (found : List FileReference) : Option Nat :=
  if limit = 0 then some start
  else if found.length < limit then none
  else found.getLast?.bind indexAfter

/-- The walk of LIST FILES (R19). -/
def State.walkFiles (s : State) (q : FileQuery) (count : Nat) : Answer :=
  let limit := min count 64
  let found := ((s.heldFiles.filter (fun e => q.selects e.1 e.2)).map fileReference).take limit
  .ok (.files found (continuation q.start limit found)) s

/-- LIST FILES as its owning block takes it (R19). -/
def State.listFiles (s : State) (selector firstDay lastDay : Nat) (states : Byte) (start count : Nat) : Answer :=
  match readSelector selector, upTo Config.lastDay firstDay, upTo Config.lastDay lastDay, readStates states,
      upTo (Config.fileEntries - 1) start with
  | some w, some a, some b, some t, some k =>
    if a ≤ b then s.walkFiles { selector := w, firstDay := a, lastDay := b, states := t, start := k } count
    else .refusal .badRequest s
  | _, _, _, _, _ => .refusal .badRequest s

def execListFiles (port : PortId) (tag : Byte) (selector firstDay lastDay : Wire16) (states : Byte) (start : Wire32)
    (count : Byte) (s : State) : Host.Outcome State Fault Refusal :=
  .next (s.request port tag true RoleSet.anyRole (fun s =>
    let o := s.byteOrder port
    s.listFiles (wire16 o selector) (wire16 o firstDay) (wire16 o lastDay) states (wire32 o start) count.toNat))

/-! ## SEGMENT INFO (R20) -/

/-- SEGMENT INFO as its owning block takes it (R20). -/
def State.segmentInfo (s : State) (n : Nat) : Answer :=
  if n < Config.segmentNumbers then
    let e := s.segment n
    let (w, q) := match s.file e.fileIndex with
      | some f => if e.state = .free then (0, 0) else (f.switchId, f.sequence)
      | none => (0, 0)
    .ok (.segmentInfo e w q) s
  else .refusal .badRequest s

def execSegmentInfo (port : PortId) (tag : Byte) (segment : Wire32) (s : State) : Host.Outcome State Fault Refusal :=
  .next (s.request port tag true RoleSet.auditOrAdmin
    (fun s => s.segmentInfo (wire32 (s.byteOrder port) segment)))

/-! ## PART STATUS (R162) -/

/-- PART STATUS, taken in every controller state and from every port. -/
def execPartStatus (port : PortId) (tag : Byte) (s : State) : Host.Outcome State Fault Refusal :=
  .next (s.receive port tag true true (fun s => (Answer.ok (.status (s.snapshot port)) s).send port tag))

end Sys2Proof.Machine
end

