-- ==== Sys2Proof/Machine/LinkCommands.lean ====
section
/-! DEFINITION. The commands of the links, the resets, the supply and the Day Clock. -/

namespace Sys2Proof.Machine

/-! ## Frames that are no known request (R153, R168) -/

/-- A kind code outside the table, a body length its kind does not allow, or a length field that, read in the port's byte
order, differs from the body, fails the form test (R154, R168). A frame that passes it is no such event and changes
nothing here: it is the command of its own row (log entry 4). -/
def State.unknownFrame (s : State) (p : PortId) (tag kind : Byte) (length : Wire16) (body : List Byte) : State :=
  if frameFormOk kind (wire16 (s.byteOrder p) length) body then s else s.receive p tag false false (fun s => s)

def execUnknownRequestFrame (port : PortId) (tag kind : Byte) (length : Wire16) (body : List Byte) (s : State) :
    Host.Outcome State Fault Refusal :=
  .next (s.unknownFrame port tag kind length body)

/-- A damaged frame is discarded without reply and takes no entry (R153). -/
def execDamagedFrameDiscarded (_port : PortId) (_frame : List Byte) (s : State) : Host.Outcome State Fault Refusal :=
  .next s

/-! ## Links (R153, R157, R158) -/

/-- An UP link is lost (R157). -/
def State.linkLost (s : State) (p : PortId) : State := if s.ports[p].up then (s.portReset p).setLink p false else s

def execLinkLoss (port : PortId) (s : State) : Host.Outcome State Fault Refusal :=
  .next (s.event (fun s => s.linkLost port))

/-- A link reset on an UP link (R153): the link stays UP. -/
def State.linkReset (s : State) (p : PortId) : State := if s.ports[p].up then s.portReset p else s

def execLinkReset (port : PortId) (s : State) : Host.Outcome State Fault Refusal :=
  .next (s.event (fun s => s.linkReset port))

/-- A DOWN link is established (R153), with an empty outstanding-request table. -/
def State.establish (s : State) (p : PortId) : State :=
  if s.ports[p].up then s else (s.discardRequests p).setLink p true

def execLinkEstablished (port : PortId) (s : State) : Host.Outcome State Fault Refusal :=
  .next (s.event (fun s => s.establish port))

/-! ## What time brings when no command waits (log entry 31) -/

/-- The replies that waited on a port's line leave in the order they were formed, and free their entries (R154). -/
def State.emptyLine (s : State) (p : PortId) : State :=
  let port := s.ports[p]
  { s.setPort p { port with outstanding := port.outstanding.filter (fun o => !o.standing.formed), unsent := [] } with
    replies := s.replies ++ port.unsent }

/-- A fetch whose reply has been sent ends, and the requests held behind it are taken (R137, R142, R156). -/
def State.finishFetch (s : State) (p : PortId) (c : CursorId) : State :=
  State.takeHeld p c Config.outstandingRequests (s.endFetch p c)

/-- The replies that waited on a port's line are sent, which ends the fetches among their requests, in the order of their
entries. -/
def State.sendWaiting (s : State) (p : PortId) : State :=
  (s.ports[p].outstanding.filterMap (fun o => o.standing.delivers)).foldl (fun t c => t.finishFetch p c) (s.emptyLine p)

/-- How the owning block answers the request that asked the catalogue, once its answer is there (R24, R135). -/
def State.openingAnswer (s : State) (p : PortId) (request : OpeningRequest) : Answer :=
  match request with
  | .file b => s.openFileAnswer p b
  | .cursor b => s.openCursorAnswer p b

/-- An OPEN FILE or OPEN CURSOR whose port was reset while its catalogue request was outstanding runs on (R158): a stream
set up begins an abort at once, a cursor opened is freed at once, and no reply is sent. -/
def State.runOn (s : State) (p : PortId) (request : OpeningRequest) : State :=
  match request with
  | .file b =>
    match s.newEntryAnswer b.switchId b.sequence with
    | .done i => (s.createOpened p i b).beginAbort b.stream .portReset
    | _ => s
  | .cursor b =>
    match s.pinAnswer b.switchId b.sequence with
    | .done i f => if s.cursors[b.cursor].isOpen then s else (s.pinOpened p i f b).freeCursorOf b.cursor
    | _ => s

/-- A request outstanding in the catalogue is answered, and with it the request that asked it, if no reset took that. -/
def State.answerOpening (s : State) (o : Opening) : State :=
  match o.tag with
  | some tag => (s.openingAnswer o.port o.request).sendLate o.port tag
  | none => s.runOn o.port o.request

/-- With no command waiting, the replies of the lowest port that holds some leave; with none held, the oldest request
outstanding in the catalogue is answered; otherwise the part idles. DESIGN CHOICE (log entries 12 and 31). -/
def State.idle (s : State) : State :=
  if !s.powered then s
  else match (List.finRange 4).find? (fun p => s.ports[p].unsent ≠ []) with
  | some p => s.sendWaiting p
  | none =>
    match s.openings with
    | o :: rest => ({ s with openings := rest }).answerOpening o
    | [] => s

/-! ## Resets and the supply (R165) -/

/-- MODULE RESET (R165): the OK reply leaves, and the reset is taken in the same step. That it leaves in the step that
takes the request, however busy the line, is DESIGN CHOICE (log entry 31). -/
def State.moduleReset (s : State) (p : PortId) (tag : Byte) : State :=
  State.takeReset { s with replies := s.replies ++ [⟨p, tag, .ok, s.byteOrder p, .empty⟩] }

def execModuleReset (port : PortId) (tag : Byte) (s : State) : Host.Outcome State Fault Refusal :=
  .next (s.receive port tag true false (fun s =>
    s.permit port tag (fun r => r.admin) (fun s => s.moduleReset port tag)))

/-- The reset input is held low: at least 10 µs starts a module reset, a shorter low level is ignored. -/
def State.holdReset (s : State) (microseconds : Nat) : State :=
  if 10 ≤ microseconds then { s with resetLow := true } else s

def execResetInputAsserted (microseconds : Nat) (s : State) : Host.Outcome State Fault Refusal :=
  .next (s.event (fun s => s.holdReset microseconds))

/-- The reset input returns high, and the reset it started is taken. -/
def State.releaseReset (s : State) : State := if s.resetLow then s.takeReset else s

def execResetInputReleased (s : State) : Host.Outcome State Fault Refusal := .next (s.event State.releaseReset)

def execPowerOn (s : State) : Host.Outcome State Fault Refusal := .next s.powerUp

/-- The clean-up is made in STARTING, and not while the reset input is held low (R165, R166). The whole clean-up with READY
is one step, so a reset or a loss of power finds none of its catalogue requests made or all of them: DESIGN CHOICE (log
entry 35), where R166 leaves each made or not made. -/
def State.startupCleanup (s : State) : State :=
  if s.controller = .starting ∧ !s.resetLow then s.cleanUp else s

def execStartupCleanup (s : State) : Host.Outcome State Fault Refusal := .next (s.event State.startupCleanup)

/-- The supply is lost: nothing happens until the next power-on, which clears what was volatile. -/
def execPowerLoss (s : State) : Host.Outcome State Fault Refusal := .next { s with powered := false }

/-! ## The Day Clock (R147) -/

def execReferencePulse (half : Bool) (s : State) : Host.Outcome State Fault Refusal :=
  .next (s.event (fun s => s.pulse half))

def execInternalSecond (s : State) : Host.Outcome State Fault Refusal := .next (s.event State.elapse)

end Sys2Proof.Machine
end

