-- ==== Sys2Proof/Machine/Dispatch.lean ====
section
/-! DEFINITION. The effect of a command: one arm for each row of the table. -/

namespace Sys2Proof.Machine

def exec (i : Instr) (s : State) : Host.Outcome State Fault Refusal :=
  match i with
  | .openFile port tag switchId sequence fileDay retentionClass profile => Sys2Proof.Machine.execOpenFile port tag switchId sequence fileDay retentionClass profile s
  | .ingestChunk port tag stream final nextMode chunk => Sys2Proof.Machine.execIngestChunk port tag stream final nextMode chunk s
  | .resumeStream port tag stream present kind includeInCheck nextMode hold => Sys2Proof.Machine.execResumeStream port tag stream present kind includeInCheck nextMode hold s
  | .abortStream port tag stream => Sys2Proof.Machine.execAbortStream port tag stream s
  | .openCursor port tag switchId sequence present start => Sys2Proof.Machine.execOpenCursor port tag switchId sequence present start s
  | .fetchRecords port tag cursor count => Sys2Proof.Machine.execFetchRecords port tag cursor count s
  | .closeCursor port tag cursor => Sys2Proof.Machine.execCloseCursor port tag cursor s
  | .fetchFindings port tag => Sys2Proof.Machine.execFetchFindings port tag s
  | .fetchTrail port tag => Sys2Proof.Machine.execFetchTrail port tag s
  | .ackTrail port tag sequence => Sys2Proof.Machine.execAckTrail port tag sequence s
  | .setSweepSettings port tag window rest freeze => Sys2Proof.Machine.execSetSweepSettings port tag window rest freeze s
  | .startSweep port tag => Sys2Proof.Machine.execStartSweep port tag s
  | .stopSweep port tag => Sys2Proof.Machine.execStopSweep port tag s
  | .stepSweep port tag => Sys2Proof.Machine.execStepSweep port tag s
  | .restartSweep port tag => Sys2Proof.Machine.execRestartSweep port tag s
  | .loadClassEntries port tag profile mode firstByte count entries => Sys2Proof.Machine.execLoadClassEntries port tag profile mode firstByte count entries s
  | .loadFieldMap port tag profile targets rounding overflow => Sys2Proof.Machine.execLoadFieldMap port tag profile targets rounding overflow s
  | .setRetention port tag retentionClass days => Sys2Proof.Machine.execSetRetention port tag retentionClass days s
  | .placeHold port tag selector firstDay lastDay labelPresent labelLength label => Sys2Proof.Machine.execPlaceHold port tag selector firstDay lastDay labelPresent labelLength label s
  | .releaseHold port tag hold => Sys2Proof.Machine.execReleaseHold port tag hold s
  | .expireNow port tag => Sys2Proof.Machine.execExpireNow port tag s
  | .pauseExpiry port tag => Sys2Proof.Machine.execPauseExpiry port tag s
  | .resumeExpiry port tag => Sys2Proof.Machine.execResumeExpiry port tag s
  | .clearDispute port tag switchId sequence => Sys2Proof.Machine.execClearDispute port tag switchId sequence s
  | .acceptLoss port tag switchId sequence => Sys2Proof.Machine.execAcceptLoss port tag switchId sequence s
  | .setClock port tag value => Sys2Proof.Machine.execSetClock port tag value s
  | .setRoles port tag target roles => Sys2Proof.Machine.execSetRoles port tag target roles s
  | .setPortSettings port tag target byteOrder streamTimeout cursorTimeout => Sys2Proof.Machine.execSetPortSettings port tag target byteOrder streamTimeout cursorTimeout s
  | .moduleReset port tag => Sys2Proof.Machine.execModuleReset port tag s
  | .fileInfo port tag switchId sequence => Sys2Proof.Machine.execFileInfo port tag switchId sequence s
  | .listFiles port tag selector firstDay lastDay states start count => Sys2Proof.Machine.execListFiles port tag selector firstDay lastDay states start count s
  | .segmentInfo port tag segment => Sys2Proof.Machine.execSegmentInfo port tag segment s
  | .fetchCompletions port tag => Sys2Proof.Machine.execFetchCompletions port tag s
  | .partStatus port tag => Sys2Proof.Machine.execPartStatus port tag s
  | .unknownRequestFrame port tag kind length body => Sys2Proof.Machine.execUnknownRequestFrame port tag kind length body s
  | .damagedFrameDiscarded port frame => Sys2Proof.Machine.execDamagedFrameDiscarded port frame s
  | .linkLoss port => Sys2Proof.Machine.execLinkLoss port s
  | .linkReset port => Sys2Proof.Machine.execLinkReset port s
  | .linkEstablished port => Sys2Proof.Machine.execLinkEstablished port s
  | .resetInputAsserted microseconds => Sys2Proof.Machine.execResetInputAsserted microseconds s
  | .resetInputReleased => Sys2Proof.Machine.execResetInputReleased s
  | .powerOn => Sys2Proof.Machine.execPowerOn s
  | .startupCleanup => Sys2Proof.Machine.execStartupCleanup s
  | .referencePulse half => Sys2Proof.Machine.execReferencePulse half s
  | .internalSecond => Sys2Proof.Machine.execInternalSecond s
  | .streamCountdownExpiry stream => Sys2Proof.Machine.execStreamCountdownExpiry stream s
  | .cursorIdleExpiry cursor => Sys2Proof.Machine.execCursorIdleExpiry cursor s
  | .sweepRestExpiry => Sys2Proof.Machine.execSweepRestExpiry s
  | .streamByte stream => Sys2Proof.Machine.execStreamByte stream s
  | .blockedStreamResumed => Sys2Proof.Machine.execBlockedStreamResumed s
  | .completionWaitServed => Sys2Proof.Machine.execCompletionWaitServed s
  | .encoderTakeHead => Sys2Proof.Machine.execEncoderTakeHead s
  | .storeFullWaitRetry => Sys2Proof.Machine.execStoreFullWaitRetry s
  | .imageWaitEnd => Sys2Proof.Machine.execImageWaitEnd s
  | .storeWriteComplete => Sys2Proof.Machine.execStoreWriteComplete s
  | .storeWriteError left => Sys2Proof.Machine.execStoreWriteError left s
  | .closeAcknowledgement stream => Sys2Proof.Machine.execCloseAcknowledgement stream s
  | .closingStreamTrailRetry stream => Sys2Proof.Machine.execClosingStreamTrailRetry stream s
  | .abortReached stream => Sys2Proof.Machine.execAbortReached stream s
  | .sweepLook => Sys2Proof.Machine.execSweepLook s
  | .sweepLogRoom => Sys2Proof.Machine.execSweepLogRoom s
  | .sweepReadComplete report => Sys2Proof.Machine.execSweepReadComplete report s
  | .retrievalReadComplete report => Sys2Proof.Machine.execRetrievalReadComplete report s
  | .passVisit => Sys2Proof.Machine.execPassVisit s
  | .passTrailRetry => Sys2Proof.Machine.execPassTrailRetry s
  | .powerLoss => Sys2Proof.Machine.execPowerLoss s

end Sys2Proof.Machine
end

