-- ==== Sys2Proof/Safety.lean ====
section
/-! DEFINITION. The terms claims use: what a request needs to be taken, the roles it needs, and the invariants of a run.
-/

namespace Sys2Proof.Machine

/-! ## Requests -/

/-- A request of a port under a tag passes the tests of R154 that do not look at its kind: the part has its supply, the
link is UP, fewer than 8 requests are outstanding, none of them holds the tag, and the controller is READY. -/
def State.admits (s : State) (p : PortId) (tag : Byte) : Prop :=
  s.powered = true ∧ s.ports[p].up = true ∧ s.ports[p].outstanding.length < 8
    ∧ (∀ o ∈ s.ports[p].outstanding, o.tag ≠ tag) ∧ s.controller = .ready ∧ s.resetLow = false

/-- The table of roles of 10.2, for requests; other commands need none. -/
def roleNeeded (i : Instr) (r : RoleSet) : Bool :=
  match i with
  | .openFile .. | .ingestChunk .. | .resumeStream .. | .abortStream .. => r.ingest
  | .openCursor .. | .fetchRecords .. | .closeCursor .. => r.retrieve
  | .fetchFindings .. | .fetchTrail .. | .ackTrail .. | .setSweepSettings .. | .startSweep .. | .stopSweep ..
  | .stepSweep .. | .restartSweep .. => r.audit
  | .loadClassEntries .. | .loadFieldMap .. | .setRetention .. | .placeHold .. | .releaseHold .. | .expireNow ..
  | .pauseExpiry .. | .resumeExpiry .. | .clearDispute .. | .acceptLoss .. | .setClock .. | .setRoles ..
  | .setPortSettings .. | .moduleReset .. => r.admin
  | .segmentInfo .. => r.audit || r.admin
  | .fileInfo .. | .listFiles .. => r.ingest || r.retrieve || r.audit || r.admin
  | _ => true

/-- A stream an OPEN FILE may take: IDLE, and reserved for no other OPEN FILE in progress (R24). -/
def State.streamOpenable (s : State) (x : StreamId) : Prop :=
  s.streams[x].state = .idle
    ∧ ∀ o ∈ s.openings, ∀ b, o.request = .file b → b.stream ≠ x

/-- A cursor an OPEN CURSOR may take: FREE, and reserved for no other OPEN CURSOR in progress (R135). -/
def State.cursorOpenable (s : State) (c : CursorId) : Prop :=
  s.cursors[c].isOpen = false
    ∧ ∀ o ∈ s.openings, ∀ b, o.request = .cursor b → b.cursor ≠ c

/-- A status that refuses a request: any but OK, END and SEGMENT_DAMAGED (12.2). -/
def Status.isRefusal : Status → Bool
  | .ok => false
  | .atEnd => false
  | .segmentDamaged => false
  | _ => true

/-! ## Invariants -/

/-- The sparse tables and the store are in their canonical form. -/
def State.canonical (s : State) : Bool :=
  storeWf s.store && Sparse.wf none s.files && Sparse.wf {} s.segments && Sparse.wf {} s.switches
    && (List.finRange 4).all (fun i => Sparse.wf {} s.settings.profiles[i].classes)

/-- Every queue, log and table is within the size the spec gives it (R41, R68, R110, R123, R128, R154); a visit in
flight holds its three log places. -/
def State.withinBounds (s : State) : Prop :=
  s.trail.entries.length ≤ 128 ∧ s.completions.length ≤ 64 ∧ (∀ p, (s.completionsOf p).length ≤ 32)
    ∧ s.findings.length + s.sweep.reserved ≤ 32 ∧ (s.sweep.visit.isSome = true → s.sweep.reserved = 3)
    ∧ s.stagingRecords ≤ 256 ∧ (∀ p : PortId, s.ports[p].outstanding.length ≤ 8)

/-- At least one station port holds the ADMIN role (R160). -/
def State.adminHeld (s : State) : Prop := ∃ p : PortId, (s.roles p).admin = true

/-- Follow trail entries from a chain value and a sequence: the chain value and the sequence after them, if each entry
carries the sequence due and the chain value R127 gives it. -/
def followTrail (last sequence : Nat) : List TrailEntry → Option (Nat × Nat)
  | [] => some (last, sequence)
  | e :: es =>
    if e.sequence = sequence ∧ e.chain = chainValue last e.canonical then
      followTrail e.chain ((sequence + 1) % 4294967296) es
    else none

/-- The trail is chained (R126, R127, R131): from the base chain value and the oldest sequence the held entries lead to
the last chain value and the next sequence. -/
def Trail.chained (t : Trail) : Prop :=
  followTrail t.baseChain (match t.entries with | e :: _ => e.sequence | [] => t.nextSequence) t.entries
    = some (t.lastChain, t.nextSequence)

/-- No two File Table entries carry the same switch id and sequence (R2). -/
def State.pairsDistinct (s : State) : Prop :=
  (s.heldFiles.map (fun e => (e.2.switchId, e.2.sequence))).Nodup

/-- How many OPEN cursors stand in a file. -/
def State.cursorsOn (s : State) (i : Nat) : Nat :=
  (s.cursors.toList.filter (fun u => u.isOpen && u.fileIndex = some i)).length

/-- Pins and cursors agree (R134): a file's pin count is the number of OPEN cursors on it, an OPEN cursor has an owner
and stands in a held file that is not INGESTING, and a FREE cursor holds the FREE values. -/
def State.pinsAgree (s : State) : Prop :=
  (∀ i, s.cursorsOn i = match s.file i with | some f => f.pinCount | none => 0)
    ∧ ∀ c : CursorId,
      if s.cursors[c].isOpen then
        s.cursors[c].owner.isSome = true
          ∧ ∃ i f, s.cursors[c].fileIndex = some i ∧ s.file i = some f ∧ f.state ≠ .ingesting
      else s.cursors[c] = {}

/-- Outstanding requests and fetches agree (R137, R154). No two outstanding requests of a port hold one tag. One that
waits on a fetch, its reply formed or not, names a cursor OPEN for its port whose fetch carries its tag. A cursor with a
fetch in progress has its idle countdown stopped (8.3). -/
def State.fetchesAgree (s : State) : Prop :=
  (∀ p : PortId, (s.ports[p].outstanding.map (fun o => o.tag)).Nodup
      ∧ ∀ o ∈ s.ports[p].outstanding, ∀ c : CursorId, o.standing = .fetching c ∨ o.standing = .delivering c →
        s.cursors[c].isOpen = true ∧ s.cursors[c].owner = some p
          ∧ ∃ q, s.cursors[c].fetch = some q ∧ q.tag = o.tag)
    ∧ ∀ c : CursorId, s.cursors[c].fetch.isSome = true → s.cursors[c].idle = .stopped

/-- The clock is in its range, at limit exactly at its last second, and the internal seconds counted are 0 to 2 (R146 to R148);
UNSET it stands at 0. -/
def State.clockInRange (s : State) : Prop :=
  s.clock.value ≤ 4294943999 ∧ (s.clock.atLimit = true ↔ s.clock.value = 4294943999) ∧ s.clock.internalSeconds ≤ 2
    ∧ (s.clock.state = .unset → s.clock.value = 0)

end Sys2Proof.Machine
end

