-- ==== Sys2Proof/Certificates/Slice0/Obligations.lean ====
section
/-! DEFINITION. The statements for the provers: the whole machine, frames and encodings, the arrival of requests, ingest,
the Completion Queue, the Segment Encoder and the Store Port, retention, the sweep and the trail, retrieval, the clock,
settings and resets. A clause on a next state names every part of State that changes; nothing else does. -/

open Sys2Proof Sys2Proof.Machine

/-! ## The whole machine -/

/-- A step takes the command at the front of the queue and is that command's effect on the state with the rest of the
queue. The queue is the model's choice (log entry 12), and so is the moment of what happens with no command waiting (log
entry 31): on a powered part the replies that wait on the line of the lowest port that holds some leave in their order,
and their entries of the outstanding-request table are freed (R154; the end of a fetch whose reply is sent so is stated
with FETCH RECORDS); with no reply waiting and no request outstanding in the catalogue nothing changes (the answer to the
oldest one is stated with OPEN FILE, OPEN CURSOR and the port reset); nor does anything change without supply. -/
def Obligations.StepRunsFrontCommand : Prop :=
  (∀ (c : Instr) (rest : List Instr) (s : State),
      step { s with pending := c :: rest } = exec c { s with pending := rest })
    ∧ ∀ s : State, s.pending = [] →
      (∀ p : PortId, s.powered = true → s.ports[p].unsent ≠ [] → (∀ q : PortId, q < p → s.ports[q].unsent = []) →
          (∀ o ∈ s.ports[p].outstanding, ∀ c, o.standing ≠ .delivering c) → step s = .next
            { s with
              replies := s.replies ++ s.ports[p].unsent
              ports := s.ports.set p
                { s.ports[p] with
                  outstanding := s.ports[p].outstanding.filter (fun o => o.standing ≠ .answered)
                  unsent := [] } })
        ∧ (s.powered = true → (∀ p : PortId, s.ports[p].unsent = []) → s.openings = [] → step s = .next s)
        ∧ (s.powered = false → step s = .next s)

/-- No command touches the queue (the model's own, log entry 12), and no command but the two reports of a store write
changes a byte of the segment store (R88). That a module reset, a released reset input, a power-on or a loss of power
while a write is in progress changes no byte of its extent either, as if that write had put nothing down, is the model's
choice (log entry 16). -/
def Obligations.OnlyWritesTouchTheStore : Prop :=
  ∀ (c : Instr) (s t : State), exec c s = .next t →
    t.pending = s.pending
      ∧ (c ≠ .storeWriteComplete → (∀ left, c ≠ .storeWriteError left) →
        ∀ a, t.storeByte a = s.storeByte a)

/-- No command is refused, and the one fault is raised by a store report whose operation names an extent above 262,143
(00 section 1.1; that it is a fault is the model's choice, log entry 22). -/
def Obligations.StopsOnlyOutsideTheStore : Prop :=
  ∀ (c : Instr) (s : State),
    (∀ r, exec c s ≠ .refused r)
      ∧ ∀ f, exec c s = .fault f →
          ∃ n, 262143 < n ∧ f = .noSuchExtent n
            ∧ ((∃ x, s.storePort.current = some (.write x n)) ∨ (∃ c live, s.storePort.current = some (.read c n live))
              ∨ s.storePort.current = some (.sweep n))

/-- The machine right after reset meets every invariant stated below. -/
def Obligations.ResetMeetsInvariants : Prop :=
  State.reset.canonical = true ∧ State.reset.withinBounds ∧ State.reset.adminHeld ∧ State.reset.trail.chained
    ∧ State.reset.pairsDistinct ∧ State.reset.pinsAgree ∧ State.reset.fetchesAgree ∧ State.reset.clockInRange

/-- Every step keeps the canonical form of the store and of the tables. -/
def Obligations.CanonicalFormKept : Prop :=
  ∀ s t : State, s.canonical = true → step s = .next t → t.canonical = true

/-- Every step keeps every queue, log and table within its size: 128 trail entries (R128), 64 completion entries and 32 of
a port (R41), 32 findings with the places a visit reserves (R110, R123), 256 staged records (R68), 8 outstanding requests
of a port (R154). -/
def Obligations.SizesKept : Prop :=
  ∀ s t : State, s.withinBounds → step s = .next t → t.withinBounds

/-- At least one station port holds the ADMIN role, whatever is done (R160). -/
def Obligations.AdminRoleNeverLost : Prop :=
  ∀ s t : State, s.adminHeld → step s = .next t → t.adminHeld

/-- The Audit Trail stays chained: whatever is done, the held entries carry consecutive sequences and chain values that
lead from the base chain value to the last one (R126, R127, R131). -/
def Obligations.TrailStaysChained : Prop :=
  ∀ s t : State, s.trail.chained → step s = .next t → t.trail.chained

/-- No two File Table entries ever carry the same switch id and sequence (R2). -/
def Obligations.FilePairsStayDistinct : Prop :=
  ∀ s t : State, s.canonical = true → s.pairsDistinct → step s = .next t → t.pairsDistinct

/-- A file's pin count stays the number of OPEN cursors on it, and no cursor is OPEN on an INGESTING file (R134). With it,
and needed for it, outstanding requests and fetches stay in agreement: the tags of a port's outstanding requests differ
(R154), one that waits on a fetch names a cursor OPEN for its port whose fetch carries its tag, and a cursor with a fetch
in progress has its idle countdown stopped (8.3, R137). -/
def Obligations.PinsStayInAgreement : Prop :=
  ∀ s t : State, s.canonical = true → s.pinsAgree → s.fetchesAgree → step s = .next t → t.pinsAgree ∧ t.fetchesAgree

/-- The archive clock stays in its range and at limit exactly at its last second (R146, R148, R149). -/
def Obligations.ClockStaysInRange : Prop :=
  ∀ s t : State, s.clockInRange → step s = .next t → t.clockInRange

/-! ## Frames and encodings -/

/-- A frame written for a well-formed request reads back as that request, in either byte order (12.2, R155, R168). -/
def Obligations.FrameRoundTrip : Prop :=
  ∀ (o : ByteOrder) (i : Instr) (p : PortId) (tag kind : Byte) (body frame : List Byte),
    i.wf = true → i.request = some (p, tag, kind, body) → writeFrame o i = some frame → readFrame o p frame = i

/-- A frame with a header fails the form test exactly when its length field differs from its body, its kind is outside
the table, or its kind does not allow the length (R154, R168). -/
def Obligations.FormTestFollowsTable : Prop :=
  ∀ (o : ByteOrder) (p : PortId) (tag kind x y : Byte) (body : List Byte),
    readFrame o p (tag :: kind :: x :: y :: body) = .unknownRequestFrame p tag kind ⟨x, y⟩ body
      ↔ frameFormOk kind (wire16 o ⟨x, y⟩) body = false

/-- The records of a segment come back from its payload as they were placed (R78 to R83): every list of records within
their ranges, the first one's start time being the base time. -/
def Obligations.PayloadDecodesToItsRecords : Prop :=
  ∀ (rs : List CallRecord) (g : Figures),
    (∀ r ∈ rs, r.start ≤ 4294943999 ∧ r.duration ≤ 99999999 ∧ r.calling.length ≤ 20 ∧ (∀ d ∈ r.calling, d ≤ 9)
      ∧ 1 ≤ r.called.length ∧ r.called.length ≤ 24 ∧ (∀ d ∈ r.called, d ≤ 9) ∧ (∀ t ∈ r.trunkIn, t ≤ 65535)
      ∧ (∀ t ∈ r.trunkOut, t ≤ 65535) ∧ (∀ c ∈ r.cause, c ≤ 255) ∧ r.service ≤ 15) →
    g.recordCount = rs.length → (∀ r ∈ rs.head?, g.baseTime = r.start) →
    decodePayload g (encodeRecords (firstPrevious g.baseTime) rs) = some rs

/-- A segment header reads back as it was written, every field within its width (R170). -/
def Obligations.HeaderRoundTrip : Prop :=
  ∀ h : Header, h.segment < 4294967296 → h.allocation < 65536 → h.ordinal < 65536 → h.fileIndex < 4294967296 →
    h.switchId < 65536 → h.sequence < 65536 → h.figures.recordCount < 4294967296 →
    h.figures.encodedLength < 4294967296 → h.figures.durationSum < 18446744073709551616 →
    h.figures.check < 4294967296 → h.figures.baseTime < 4294967296 →
    h.bytes.length = 64 ∧ readHeader h.bytes = h

/-! ## Arrival of requests -/

/-- The tests of R154 in their order, for every request of the table on a port that hears frames; a refusal changes
nothing but for its reply, and takes no entry of the table before both of the first two tests are passed. A request that
names a cursor is judged for its role only when no earlier request of the port names that cursor (R156). On a port that
hears none, its link DOWN or the part without supply, no frame arrives and nothing happens: the model's choice (log entry
17). What a reply is: with the port's line free it leaves at once and holds no entry; with the line busy it waits behind
the port's other replies, and the entry of its request stands until it leaves (R154), which log entry 31 makes of the line.
-/
def Obligations.ArrivalTestsInOrder : Prop :=
  (∀ (i : Instr) (s : State) (p : PortId) (tag kind : Byte) (body : List Byte),
    i.request = some (p, tag, kind, body) → i.wf = true →
    (s.hears p = false → exec i s = .next s)
      ∧ (s.hears p = true → 8 ≤ s.ports[p].outstanding.length → exec i s = .next (s.turnAway p tag .portBusy))
      ∧ (s.hears p = true → s.ports[p].outstanding.length < 8 → (∃ o ∈ s.ports[p].outstanding, o.tag = tag) →
          exec i s = .next (s.turnAway p tag .badRequest))
      ∧ (s.hears p = true → s.ports[p].outstanding.length < 8 → (∀ o ∈ s.ports[p].outstanding, o.tag ≠ tag) →
          (s.controller = .starting ∨ s.resetLow = true) → i ≠ .partStatus p tag →
          exec i s = .next (s.refuse p tag .notReady))
      ∧ (s.admits p tag → roleNeeded i (s.roles p) = false →
          (∀ o ∈ s.ports[p].outstanding, ∀ c, o.standing.cursor = some c →
            i ≠ .closeCursor p tag (BitVec.ofNat 8 c.val)
              ∧ ∀ count, i ≠ .fetchRecords p tag (BitVec.ofNat 8 c.val) count) →
          exec i s = .next (s.refuse p tag .notPermitted)))
    ∧ ∀ (s : State) (p : PortId) (tag : Byte) (status : Status) (body : ReplyBody),
      let r : Reply := { port := p, tag, status, order := (s.settings.ports[p]).byteOrder, body }
      let sent : State := { s with replies := s.replies ++ [r] }
      let waits (entries : List Outstanding) : State :=
        { s with
          ports := s.ports.set p
            { s.ports[p] with
              outstanding := s.ports[p].outstanding ++ entries, unsent := s.ports[p].unsent ++ [r] } }
      (s.ports[p].lineBusy = false →
          s.reply p tag status body = sent
            ∧ (body = .empty → s.refuse p tag status = sent ∧ s.turnAway p tag status = sent))
        ∧ (s.ports[p].lineBusy = true →
          s.reply p tag status body = waits [⟨tag, .answered⟩]
            ∧ (body = .empty →
              s.refuse p tag status = waits [⟨tag, .answered⟩] ∧ s.turnAway p tag status = waits []))

/-- A frame that fails the form test, its length field read in the port's byte order, is refused BAD_REQUEST with its tag and
changes nothing else, in every controller state: with its tag in use by the second test of R154, otherwise by the third. A
damaged frame changes nothing (R153, R168). A frame that passes the form test is no such event, and nothing happens (the
model's choice, log entry 4). -/
def Obligations.UnknownAndDamagedFrames : Prop :=
  (∀ (s : State) (p : PortId) (tag kind : Byte) (length : Wire16) (body : List Byte),
      (s.hears p = true → s.ports[p].outstanding.length < 8 →
        frameFormOk kind (wire16 (s.byteOrder p) length) body = false →
        ((∀ o ∈ s.ports[p].outstanding, o.tag ≠ tag) →
            exec (.unknownRequestFrame p tag kind length body) s = .next (s.refuse p tag .badRequest))
          ∧ ((∃ o ∈ s.ports[p].outstanding, o.tag = tag) →
            exec (.unknownRequestFrame p tag kind length body) s = .next (s.turnAway p tag .badRequest)))
      ∧ (s.hears p = true → 8 ≤ s.ports[p].outstanding.length →
        frameFormOk kind (wire16 (s.byteOrder p) length) body = false →
        exec (.unknownRequestFrame p tag kind length body) s = .next (s.turnAway p tag .portBusy))
      ∧ (frameFormOk kind (wire16 (s.byteOrder p) length) body = true →
        exec (.unknownRequestFrame p tag kind length body) s = .next s))
    ∧ ∀ (s : State) (p : PortId) (frame : List Byte), exec (.damagedFrameDiscarded p frame) s = .next s

/-- A refused request changes no state (R154): whenever a request brings its port one reply and that is a refusal, the state
is as before but for that reply, which has the request's tag and an empty body (R168). On a line that is free the reply has
left; on a busy one it waits, and the request's entry, if it took one, stands answered with it (log entry 31). -/
def Obligations.RefusedRequestChangesNothing : Prop :=
  ∀ (i : Instr) (s t : State) (p : PortId) (tag kind : Byte) (body : List Byte) (r : Reply),
    i.request = some (p, tag, kind, body) → exec i s = .next t → r.status.isRefusal = true →
    (s.ports[p].lineBusy = false → t.replies = s.replies ++ [r] →
        t = { s with replies := s.replies ++ [r] } ∧ r.port = p ∧ r.tag = tag ∧ r.body = .empty)
      ∧ (s.ports[p].lineBusy = true → t.ports[p].unsent = s.ports[p].unsent ++ [r] →
        r.port = p ∧ r.tag = tag ∧ r.body = .empty
          ∧ ∃ entries : List Outstanding, (entries = [] ∨ entries = [⟨tag, .answered⟩])
            ∧ t = { s with
                ports := s.ports.set p
                  { s.ports[p] with
                    outstanding := s.ports[p].outstanding ++ entries, unsent := s.ports[p].unsent ++ [r] } })

/-! ## Ingest streams -/

/-- OPEN FILE with every argument in range and none of R24's conditions holding reserves the lowest stream IDLE and
unreserved, and its new-entry request takes the lowest free file index: the entry of section 1.2 is created, the switch's
file count rises, the stream is set up and, with no sequence gap, STARVED with its countdown loaded; the reply is OK with
both numbers (R2, R24, R25, R29). The request is answered in the step that asks it, or stays outstanding with its stream
while the catalogue is busy and is answered when no command and no reply waits: which of the two, and when, is the model's
choice (log entry 31). Nothing else changes. -/
def Obligations.OpenFileCompletes : Prop :=
  let opened (u : State) (p : PortId) (b : OpeningFile) : State :=
    { u with
      files := Sparse.set none u.lowestFreeFile (some
        { switchId := b.switchId, sequence := b.sequence, fileDay := b.fileDay, retentionClass := b.retentionClass,
          profile := b.profile.val, rounding := u.settings.profiles[b.profile].rounding,
          overflow := u.settings.profiles[b.profile].overflow, state := .ingesting, openingPort := p }) u.files
      switches := Sparse.set {} b.switchId
        { u.switch b.switchId with fileCount := (u.switch b.switchId).fileCount + 1 } u.switches
      streams := u.streams.set b.stream
        { state := .starved, owner := some p, fileIndex := some u.lowestFreeFile, switchId := some b.switchId,
          sequence := some b.sequence, profile := some b.profile
          countdown := .running (10 * (u.settings.ports[p].streamTimeout + 1)) } }
  let fresh (u : State) (b : OpeningFile) : Prop :=
    u.findFile b.switchId b.sequence = none ∧ u.heldFiles.length < 131072
      ∧ ∀ e ∈ (u.switch b.switchId).expected, e = b.sequence
  (∀ (s : State) (p : PortId) (tag : Byte) (w q d : Wire16) (c f : Byte) (k : Fin 4) (x : StreamId),
    let b : OpeningFile :=
      { switchId := wire16 (s.byteOrder p) w, sequence := wire16 (s.byteOrder p) q,
        fileDay := wire16 (s.byteOrder p) d, retentionClass := c.toNat, profile := k, stream := x }
    s.admits p tag → (s.roles p).ingest = true → b.switchId ≤ 1023 → b.fileDay ≤ 49709 → c.toNat ≤ 7 →
    f.toNat = k.val → mapsRequired s.settings.profiles[k].map.toList = true →
    s.clock.state ≠ .unset → b.fileDay ≤ s.clock.value / 86400 →
    (s.retentionOf c.toNat = 0 ∨ s.clock.value / 86400 < b.fileDay + s.retentionOf c.toNat) →
    s.streamOpenable x → (∀ y : StreamId, y < x → ¬s.streamOpenable y) →
    (s.catalogueBusy = false → s.openings = [] → fresh s b →
        exec (.openFile p tag w q d c f) s = .next ((opened s p b).reply p tag .ok (.opened x s.lowestFreeFile)))
      ∧ ((s.catalogueBusy = true ∨ s.openings ≠ []) →
        exec (.openFile p tag w q d c f) s = .next
          { s with
            openings := s.openings ++ [⟨p, some tag, .file b⟩]
            ports := s.ports.set p
              { s.ports[p] with outstanding := s.ports[p].outstanding ++ [⟨tag, .opening⟩] } }))
    ∧ ∀ (s : State) (p : PortId) (tag : Byte) (b : OpeningFile) (rest : List Opening),
      s.pending = [] → s.powered = true → (∀ q : PortId, s.ports[q].unsent = []) →
      s.openings = ⟨p, some tag, .file b⟩ :: rest → ⟨tag, .opening⟩ ∈ s.ports[p].outstanding → fresh s b →
      step s = .next
        ((opened
          { s with
            openings := rest
            ports := s.ports.set p
              { s.ports[p] with outstanding := s.ports[p].outstanding.filter (fun o => o.tag ≠ tag) } } p b).reply
          p tag .ok (.opened b.stream s.lowestFreeFile))

/-- OPEN FILE that passes R24 under a switch whose expected sequence is present and differs (R25): the entry, the switch's
file count, the stream and the OK reply are as without a gap, and SEQUENCE_GAP with both sequences is posted: with room
the entry stands behind the others and the stream is STARVED with its countdown loaded; without room the stream is
POSTING with STARVED to follow, behind the wait list (R41). The same holds when the catalogue answers the request later,
in its turn (when it does is the model's choice, log entry 31). Nothing else changes. -/
def Obligations.SequenceGapPosted : Prop :=
  let opened (u : State) (p : PortId) (b : OpeningFile) (st : Stream) : State :=
    { u with
      files := Sparse.set none u.lowestFreeFile (some
        { switchId := b.switchId, sequence := b.sequence, fileDay := b.fileDay, retentionClass := b.retentionClass,
          profile := b.profile.val, rounding := u.settings.profiles[b.profile].rounding,
          overflow := u.settings.profiles[b.profile].overflow, state := .ingesting, openingPort := p }) u.files
      switches := Sparse.set {} b.switchId
        { u.switch b.switchId with fileCount := (u.switch b.switchId).fileCount + 1 } u.switches
      streams := u.streams.set b.stream
        { st with
          owner := some p, fileIndex := some u.lowestFreeFile, switchId := some b.switchId,
          sequence := some b.sequence, profile := some b.profile } }
  let posted (u : State) (p : PortId) (b : OpeningFile) (e : Nat) : State :=
    if u.completions.length < 64 ∧ (u.completionsOf p).length < 32 then
      { opened u p b { state := .starved, countdown := .running (10 * (u.settings.ports[p].streamTimeout + 1)) } with
        completions :=
          u.completions ++ [Completion.mk p b.stream b.switchId b.sequence (.sequenceGap e b.sequence)] }
    else
      { opened u p b { state := .posting, pending := some ⟨.sequenceGap e b.sequence, .starved⟩ } with
        waiting := u.waiting ++ [WaitItem.post b.stream] }
  let gap (u : State) (b : OpeningFile) (e : Nat) : Prop :=
    u.findFile b.switchId b.sequence = none ∧ u.heldFiles.length < 131072
      ∧ (u.switch b.switchId).expected = some e ∧ e ≠ b.sequence
  (∀ (s : State) (p : PortId) (tag : Byte) (w q d : Wire16) (c f : Byte) (k : Fin 4) (x : StreamId) (e : Nat),
    let b : OpeningFile :=
      { switchId := wire16 (s.byteOrder p) w, sequence := wire16 (s.byteOrder p) q,
        fileDay := wire16 (s.byteOrder p) d, retentionClass := c.toNat, profile := k, stream := x }
    s.admits p tag → (s.roles p).ingest = true → b.switchId ≤ 1023 → b.fileDay ≤ 49709 → c.toNat ≤ 7 →
    f.toNat = k.val → mapsRequired s.settings.profiles[k].map.toList = true →
    s.clock.state ≠ .unset → b.fileDay ≤ s.clock.value / 86400 →
    (s.retentionOf c.toNat = 0 ∨ s.clock.value / 86400 < b.fileDay + s.retentionOf c.toNat) →
    s.streamOpenable x → (∀ y : StreamId, y < x → ¬s.streamOpenable y) → s.catalogueBusy = false → s.openings = [] →
    gap s b e →
    exec (.openFile p tag w q d c f) s = .next ((posted s p b e).reply p tag .ok (.opened x s.lowestFreeFile)))
    ∧ ∀ (s : State) (p : PortId) (tag : Byte) (b : OpeningFile) (e : Nat) (rest : List Opening),
      s.pending = [] → s.powered = true → (∀ q : PortId, s.ports[q].unsent = []) →
      s.openings = ⟨p, some tag, .file b⟩ :: rest → ⟨tag, .opening⟩ ∈ s.ports[p].outstanding → gap s b e →
      step s = .next
        ((posted
          { s with
            openings := rest
            ports := s.ports.set p
              { s.ports[p] with outstanding := s.ports[p].outstanding.filter (fun o => o.tag ≠ tag) } } p b e).reply
          p tag .ok (.opened b.stream s.lowestFreeFile))

/-- The refusals of OPEN FILE in the order of R24, each with no change of state. Order 1 is the argument ranges, orders 2 to 8
stand behind it. With no stream IDLE and unreserved the File Table is only read, as it stands (log entry 23); otherwise orders 6
and 7 are what the new-entry request is answered, in the step that asks it or, for a request that stayed outstanding, when
no command and no reply waits (which of the two, and when, is the model's choice, log entry 31). Of two requests of one
pair, of whatever ports, the one taken second is refused DUPLICATE_FILE, though both were taken before the first was
answered and though a port reset has taken the first one's reply. -/
def Obligations.OpenFileRefusedInOrder : Prop :=
  (∀ (s : State) (p : PortId) (tag : Byte) (w q d : Wire16) (c f : Byte),
    let wn := wire16 (s.byteOrder p) w
    let qn := wire16 (s.byteOrder p) q
    let dn := wire16 (s.byteOrder p) d
    let refused (status : Status) : Prop := exec (.openFile p tag w q d c f) s = .next (s.refuse p tag status)
    s.admits p tag → (s.roles p).ingest = true →
    ((1023 < wn ∨ 49709 < dn ∨ 7 < c.toNat ∨ 3 < f.toNat) → refused .badRequest)
      ∧ ∀ k : Fin 4, wn ≤ 1023 → dn ≤ 49709 → c.toNat ≤ 7 → f.toNat = k.val →
        (mapsRequired s.settings.profiles[k].map.toList = false → refused .badRequest)
          ∧ (mapsRequired s.settings.profiles[k].map.toList = true → s.clock.state = .unset → refused .clockUnset)
          ∧ (mapsRequired s.settings.profiles[k].map.toList = true → s.clock.state ≠ .unset →
            (s.clock.value / 86400 < dn → refused .fileDayFuture)
              ∧ (dn ≤ s.clock.value / 86400 → s.retentionOf c.toNat ≠ 0 →
                dn + s.retentionOf c.toNat ≤ s.clock.value / 86400 → refused .alreadyExpired)
              ∧ (dn ≤ s.clock.value / 86400 →
                (s.retentionOf c.toNat = 0 ∨ s.clock.value / 86400 < dn + s.retentionOf c.toNat) →
                (((s.catalogueBusy = false ∧ s.openings = []) ∨ ∀ x, ¬s.streamOpenable x) →
                    ((s.findFile wn qn).isSome = true → refused .duplicateFile)
                      ∧ (s.findFile wn qn = none → 131072 ≤ s.heldFiles.length → refused .tableFull))
                  ∧ (s.findFile wn qn = none → s.heldFiles.length < 131072 → (∀ x, ¬s.streamOpenable x) →
                    refused .noFreeStream))))
    ∧ ∀ (s : State) (p : PortId) (tag : Byte) (b : OpeningFile) (rest : List Opening),
      s.pending = [] → s.powered = true → (∀ q : PortId, s.ports[q].unsent = []) →
      ⟨tag, .opening⟩ ∈ s.ports[p].outstanding →
      let answered (u : State) : State :=
        { u with
          openings := rest
          ports := u.ports.set p
            { u.ports[p] with outstanding := u.ports[p].outstanding.filter (fun o => o.tag ≠ tag) } }
      (s.openings = ⟨p, some tag, .file b⟩ :: rest →
          ((s.findFile b.switchId b.sequence).isSome = true → step s = .next ((answered s).refuse p tag .duplicateFile))
            ∧ (s.findFile b.switchId b.sequence = none → 131072 ≤ s.heldFiles.length →
              step s = .next ((answered s).refuse p tag .tableFull)))
        ∧ ∀ (first : PortId) (firstTag : Option Byte) (a : OpeningFile) (t : State),
          s.openings = ⟨first, firstTag, .file a⟩ :: ⟨p, some tag, .file b⟩ :: rest →
          a.switchId = b.switchId → a.sequence = b.sequence → s.heldFiles.length < 131072 →
          (∀ q : PortId, s.ports[q].lineBusy = false) → step s = .next t →
          step t = .next ((answered t).refuse p tag .duplicateFile)

/-- INGEST CHUNK that passes R26 is stored whole in the next buffer to fill, which passes to the other buffer; final and
next mode are taken from the request (255 is no next mode); a STARVED stream stops its countdown and runs, any other keeps
its state; the reply is OK (R26, R27). Nothing else changes. -/
def Obligations.ChunkStoredInNextBuffer : Prop :=
  ∀ (s : State) (p : PortId) (tag : Byte) (x : StreamId) (f m : Byte) (chunk : List Byte),
    s.admits p tag → (s.roles p).ingest = true → (f = 0 ∨ f = 1) → (m.toNat ≤ 7 ∨ m = 255) →
    1 ≤ chunk.length → chunk.length ≤ 16384 →
    s.streams[x].owner = some p → s.streams[x].state ≠ .idle → s.streams[x].state ≠ .closing →
    s.streams[x].state ≠ .aborting → s.streams[x].settled = false → s.streams[x].finalReceived = false →
    (match s.streams[x].fillNext with
      | .principal => s.streams[x].principal.bytes = []
      | .alternate => s.streams[x].alternate.bytes = []) →
    exec (.ingestChunk p tag (BitVec.ofNat 8 x.val) f m chunk) s = .next
      ({ s with
        streams := s.streams.set x
          (let stored : Buffer :=
            { bytes := chunk, consumed := 0, final := f = 1, nextMode := if m = 255 then none else some m.toNat }
          let st : Stream :=
            { s.streams[x] with
              finalReceived := f = 1
              state := if s.streams[x].state = StreamState.starved then .running else s.streams[x].state
              countdown := if s.streams[x].state = StreamState.starved then .stopped else s.streams[x].countdown }
          match s.streams[x].fillNext with
          | .principal => { st with principal := stored, fillNext := .alternate }
          | .alternate => { st with alternate := stored, fillNext := .principal }) }.reply p tag .ok .empty)

/-- RESUME STREAM of a HELD stream of the port: the countdown stops, the held byte is taken with the substitute, or with
the profile's entry if none was sent, its hold disregarded, and the stream runs on; the reply is OK (R32). -/
def Obligations.ResumeTakesHeldByte : Prop :=
  ∀ (s : State) (p : PortId) (tag : Byte) (x : StreamId) (present kind inc m hold : Byte) (h : HeldByte)
    (substitute : Option ClassEntry),
    s.admits p tag → (s.roles p).ingest = true → s.streams[x].owner = some p → s.streams[x].state = .held →
    s.streams[x].heldByte = some h →
    ((present = 0 ∧ substitute = none)
      ∨ (present = 1 ∧ substitute.isSome = true ∧ readClassEntry kind inc m hold = substitute)) →
    exec (.resumeStream p tag (BitVec.ofNat 8 x.val) present kind inc m hold) s = .next
      (((({ s with
          streams := s.streams.set x
            { s.streams[x] with state := .running, countdown := .stopped, heldByte := none } }.takeByte x
          (substitute.getD (s.classEntry x h.value)) h.value).exhaust x)).reply p tag .ok .empty)

/-- ABORT STREAM of a stream of the port that has begun no abort, is not settled and is not CLOSING, or is CLOSING and waits
for trail room with its verdict, which it gives up (R34): buffers, held byte,
ready record, pending post, notice, record and trailer are discarded, the ABORT marker stands at the tail, the stream is
off the wait lists and ABORTING with cause REQUEST (R33). A CLOSING stream whose close is not acknowledged records the
cause and sets abort after close, and stays CLOSING (R34); if a record of it waits at the head of the Staging Queue, the
Encoder will discard it (R71; the mark on the wait is the model's, log entry 10). The reply is OK. A STARVED or HELD stream whose inactivity
countdown has reached 0 begins an abort in the same way with cause TIMEOUT (R30). Nothing else changes. -/
def Obligations.AbortBeginsAtOnce : Prop :=
  ∀ (s : State) (p : PortId) (tag : Byte) (x : StreamId),
    let abandoned : Option HeadWait :=
      match s.headWait, s.staging with
      | some wait, StagingEntry.record y _ :: _ => if y = x then some .abandoned else some wait
      | wait, _ => wait
    let aborted (cause : AbortCause) : State :=
      { s with
        staging := s.staging ++ [StagingEntry.abort x]
        waiting := s.waiting.filter (fun i => i ≠ WaitItem.post x ∧ i ≠ WaitItem.notice x)
        blocked := s.blocked.filter (· ≠ x)
        streams := s.streams.set x
          { s.streams[x] with
            state := .aborting, abortCause := some cause, storeFullNotice := false, countdown := .stopped,
            principal := {}, alternate := {}, heldByte := none, ready := none, pending := none, record := {},
            skip := false, trailerBuild := {}, trailer := none, verdict := none, abortAfterClose := false } }
    (s.admits p tag → (s.roles p).ingest = true → s.streams[x].owner = some p →
        (s.streams[x].state ≠ .idle → s.streams[x].state ≠ .aborting → s.streams[x].settled = false →
          (s.streams[x].state ≠ .closing ∨ (s.streams[x].verdict.isSome = true ∧ s.streams[x].abortAfterClose = false)) →
          exec (.abortStream p tag (BitVec.ofNat 8 x.val)) s = .next ((aborted .request).reply p tag .ok .empty))
        ∧ (s.streams[x].state = .closing → s.streams[x].abortAfterClose = false → s.streams[x].verdict = none →
          exec (.abortStream p tag (BitVec.ofNat 8 x.val)) s = .next
            ({ s with
              headWait := abandoned
              waiting := s.waiting.filter (fun i => i ≠ WaitItem.post x ∧ i ≠ WaitItem.notice x)
              blocked := s.blocked.filter (· ≠ x)
              streams := s.streams.set x
                { s.streams[x] with
                  abortCause := some .request, storeFullNotice := false, abortAfterClose := true } }.reply
              p tag .ok .empty)))
      ∧ (s.powered = true → s.streams[x].countdown = .due →
        (s.streams[x].state = .starved ∨ s.streams[x].state = .held) →
        exec (.streamCountdownExpiry x) s = .next (aborted .timeout))

/-- The refusals of INGEST CHUNK (R26), RESUME STREAM (R32, with or without a substitute) and ABORT STREAM (R33), each with
no change of state: BAD_REQUEST for an argument out of range, whatever the stream; then NO_STREAM for an IDLE stream; then
NOT_OWNER for another port's; then, of a chunk, AFTER_FINAL for a stream that is CLOSING, ABORTING, settled or has final
received, and BUFFERS_FULL when the next buffer to fill holds bytes; of a resume, STATE for a stream that is not HELD; of
an abort, STATE for a stream whose abort has begun or that is settled. -/
def Obligations.StreamRequestsRefusedInOrder : Prop :=
  ∀ (s : State) (p : PortId) (tag : Byte) (x : StreamId) (f m present kind inc hold : Byte) (chunk : List Byte),
    s.admits p tag → (s.roles p).ingest = true →
    let n : Byte := BitVec.ofNat 8 x.val
    let chunkOk : Prop := (f = 0 ∨ f = 1) ∧ (m.toNat ≤ 7 ∨ m = 255) ∧ 1 ≤ chunk.length ∧ chunk.length ≤ 16384
    let substituteOk : Prop :=
      present = 0 ∨ (present = 1 ∧ kind.toNat ≤ 5 ∧ inc.toNat ≤ 1 ∧ m.toNat ≤ 7 ∧ hold.toNat ≤ 1)
    (∀ status : Status,
        ((s.streams[x].state = .idle ∧ status = .noStream)
          ∨ (s.streams[x].state ≠ .idle ∧ s.streams[x].owner ≠ some p ∧ status = .notOwner)) →
        (chunkOk → exec (.ingestChunk p tag n f m chunk) s = .next (s.refuse p tag status))
          ∧ (substituteOk → exec (.resumeStream p tag n present kind inc m hold) s = .next (s.refuse p tag status))
          ∧ exec (.abortStream p tag n) s = .next (s.refuse p tag status))
      ∧ (∀ y : Byte,
        ((11 < y.toNat ∨ ¬chunkOk) → exec (.ingestChunk p tag y f m chunk) s = .next (s.refuse p tag .badRequest))
          ∧ ((11 < y.toNat ∨ ¬substituteOk) →
            exec (.resumeStream p tag y present kind inc m hold) s = .next (s.refuse p tag .badRequest))
          ∧ (11 < y.toNat → exec (.abortStream p tag y) s = .next (s.refuse p tag .badRequest)))
      ∧ (s.streams[x].state ≠ .idle → s.streams[x].owner = some p →
        (chunkOk →
            (s.streams[x].state = .closing ∨ s.streams[x].state = .aborting ∨ s.streams[x].settled = true
                ∨ s.streams[x].finalReceived = true →
              exec (.ingestChunk p tag n f m chunk) s = .next (s.refuse p tag .afterFinal))
            ∧ (s.streams[x].state ≠ .closing → s.streams[x].state ≠ .aborting → s.streams[x].settled = false →
              s.streams[x].finalReceived = false →
              (match s.streams[x].fillNext with
                | .principal => s.streams[x].principal.bytes ≠ []
                | .alternate => s.streams[x].alternate.bytes ≠ []) →
              exec (.ingestChunk p tag n f m chunk) s = .next (s.refuse p tag .buffersFull)))
          ∧ (substituteOk → s.streams[x].state ≠ .held →
            exec (.resumeStream p tag n present kind inc m hold) s = .next (s.refuse p tag .wrongState))
          ∧ (s.streams[x].state = .aborting ∨ (s.streams[x].state = .closing ∧ s.streams[x].abortAfterClose = true)
              ∨ s.streams[x].settled = true →
            exec (.abortStream p tag n) s = .next (s.refuse p tag .wrongState)))

/-- FETCH COMPLETIONS takes the port's oldest entries, up to 16, in order, out of the queue, tells how many of the port
remain, and leaves the entries of other ports as they were (R44). When entries left, the wait list is then served within
the step, as COMPLETION_WAIT_SERVED serves it (R42); with nobody waiting nothing else changes. That the remaining count
is taken before the list is served is the model's reading (log entry 5). -/
def Obligations.FetchCompletionsTakesOwnOldest : Prop :=
  ∀ (s : State) (p : PortId) (tag : Byte), s.admits p tag →
    ∃ (queue : List Completion) (t : State),
      queue.filter (fun e => e.port = p) = (s.completionsOf p).drop 16
      ∧ queue.filter (fun e => e.port ≠ p) = s.completions.filter (fun e => e.port ≠ p)
      ∧ exec .completionWaitServed { s with completions := queue } = .next t
      ∧ (s.waiting = [] → t = { s with completions := queue })
      ∧ exec (.fetchCompletions p tag) s = .next
        ((if s.completionsOf p = [] then s else t).reply p tag .ok
          (.completions ((s.completionsOf p).take 16) ((s.completionsOf p).length - 16)))

/-! ## The tokeniser and the Completion Queue -/

/-- STREAM_BYTE on a byte of either buffer that is neither held nor its last and completes no record (R51 to R54, R57, R58).
In each case the consumed count rises, and in the RECORD and TRAILER phases the entry's next mode applies. In the RECORD phase the byte is fed to the dual-sum
if it is included in the check; a DATA byte joins the text of the current column (its long flag set beyond 32 bytes;
nothing joins in column BEYOND) and the record is begun; a SEPARATOR moves on to the next column, behind column 15 to
BEYOND; SKIP, and under skip-to-record-end every kind but RECORD_END, does nothing more. In the TRAILER phase nothing is
fed: DATA joins the current field's text of at most 32 bytes, SEPARATOR moves on to field 4 at most, RECORD_END closes the
trailer, SKIP does nothing more, and every other kind, or a byte or field too many, makes the trailer bad. In the
AFTER_TRAILER phase a byte of any class entry, a hold byte too, is only consumed (R31, R51). Nothing else changes. -/
def Obligations.DataByteJoinsColumn : Prop :=
  (∀ (s : State) (x : StreamId) (st : Stream) (n : BufferName) (b : Byte) (e : ClassEntry),
    s.powered = true → s.streams[x] = st → st.state = .running → st.consumeNext = n →
    (st.buffer n).bytes[(st.buffer n).consumed]? = some b → (st.buffer n).consumed + 1 < (st.buffer n).bytes.length →
    Sparse.get {} (st.mode * 256 + b.toNat) s.settings.profiles[st.profile.getD 0].classes = e → e.hold = false →
    let becomes (t : Stream) : Prop :=
      exec (.streamByte x) s = .next
        { s with
          streams := s.streams.set x
            { t.setBuffer n { st.buffer n with consumed := (st.buffer n).consumed + 1 } with mode := e.nextMode } }
    let fed : Stream :=
      { st with
        dualSum := if e.includeInCheck then
            { a := (st.dualSum.a + b.toNat) % 65521,
              b := (st.dualSum.b + (st.dualSum.a + b.toNat) % 65521) % 65521 }
          else st.dualSum }
    let t := st.trailerBuild
    (st.phase = .record → st.skip = false →
        (e.kind = .data → becomes { fed with
            record := match st.record.column with
              | some c =>
                { st.record with
                  begun := true
                  texts := st.record.texts.set c
                    (if st.record.texts[c].bytes.length < 32 then
                      { st.record.texts[c] with bytes := st.record.texts[c].bytes ++ [b] }
                    else { st.record.texts[c] with long := true }) }
              | none => { st.record with begun := true } })
          ∧ (e.kind = .separator →
            (∀ c d : Fin 16, st.record.column = some c → d.val = c.val + 1 →
                becomes { fed with record := { st.record with column := some d } })
              ∧ ((st.record.column = some 15 ∨ st.record.column = none) →
                becomes { fed with record := { st.record with column := none } }))
          ∧ (e.kind = .skip → becomes fed))
      ∧ (st.phase = .record → st.skip = true → e.kind ≠ .recordEnd → becomes fed)
      ∧ (st.phase = .trailer →
        (e.kind = .data →
            (t.field = 1 → becomes { st with trailerBuild :=
                if t.text1.length < 32 then { t with text1 := t.text1 ++ [b] } else { t with bad := true } })
              ∧ (t.field = 2 → becomes { st with trailerBuild :=
                if t.text2.length < 32 then { t with text2 := t.text2 ++ [b] } else { t with bad := true } })
              ∧ (t.field = 3 → becomes { st with trailerBuild :=
                if t.text3.length < 32 then { t with text3 := t.text3 ++ [b] } else { t with bad := true } })
              ∧ (4 ≤ t.field → becomes st))
          ∧ (e.kind = .separator → becomes { st with trailerBuild :=
              if t.field < 4 then { t with field := t.field + 1 } else { t with bad := true } })
          ∧ (e.kind = .recordEnd → becomes { st with trailer := t.judge, phase := .afterTrailer })
          ∧ (e.kind = .skip → becomes st)
          ∧ ((e.kind = .illegal ∨ e.kind = .trailerStart) →
            becomes { st with trailerBuild := { t with bad := true } })))
    ∧ ∀ (s : State) (x : StreamId) (st : Stream) (n : BufferName),
      s.powered = true → s.streams[x] = st → st.state = .running → st.consumeNext = n → st.phase = .afterTrailer →
      (st.buffer n).consumed + 1 < (st.buffer n).bytes.length →
      exec (.streamByte x) s = .next
        { s with
          streams := s.streams.set x (st.setBuffer n { st.buffer n with consumed := (st.buffer n).consumed + 1 }) }

/-- A hold byte stops the stream before it, in the RECORD or TRAILER phase and also under skip-to-record-end (R31): the
byte becomes the held byte, MARK is posted with byte, mode and class entry, and with room the stream is HELD with its
countdown loaded; nothing is consumed and no mode applied. Without room the stream is POSTING with HELD to follow. -/
def Obligations.HoldByteStopsStream : Prop :=
  ∀ (s : State) (x : StreamId) (p : PortId) (w q : Nat) (b : Byte) (e : ClassEntry),
    s.powered = true → s.streams[x].state = .running → s.streams[x].nextByte = some b →
    s.streams[x].phase ≠ .afterTrailer → s.classEntry x b = e → e.hold = true →
    s.streams[x].owner = some p → s.streams[x].switchId = some w → s.streams[x].sequence = some q →
    s.streams[x].storeFullNotice = false →
    (s.completions.length < 64 → (s.completionsOf p).length < 32 →
        exec (.streamByte x) s = .next
          { s with
            completions := s.completions ++ [⟨p, x, w, q, .mark b s.streams[x].mode e⟩]
            streams := s.streams.set x
              { s.streams[x] with
                state := .held, heldByte := some { value := b, substitute := none },
                countdown := .running (10 * (s.settings.ports[p].streamTimeout + 1)) } })
      ∧ ((64 ≤ s.completions.length ∨ 32 ≤ (s.completionsOf p).length) →
        exec (.streamByte x) s = .next
          { s with
            waiting := s.waiting ++ [WaitItem.post x]
            streams := s.streams.set x
              { s.streams[x] with
                state := .posting, heldByte := some { value := b, substitute := none },
                pending := some ⟨.mark b s.streams[x].mode e, .held⟩, countdown := .stopped } })

/-- A RECORD_END byte that ends a begun record whose columns convert (R55, R60, R67): with room in the Staging Queue the
record stands at its tail, the accepted count rises and the duration total grows, saturating (R37); with 256 places taken
or owed the record is kept as the ready record and the stream is BLOCKED, its counts not raised. The record under
construction is empty again, and the byte is consumed, its mode applied and fed to the dual-sum if included. That owed places are not free is the model's reading (log entry 8). Conversion (R60 to R65):
the columns in ascending order, each by its target, the first that rejects giving the reason; an OVERFLOW rejects under
REJECT, and gives its clamped value and the clamped flag under CLAMP. A text of digits is read as a decimal number, a
clock of the file day, tenths with a point, or a digit string; an empty text, a non-digit, a value or length above the
maximum and a long flag give what the target's table says. -/
def Obligations.RecordEndStagesRecord : Prop :=
  (∀ (s : State) (x : StreamId) (st : Stream) (n : BufferName) (f : File) (b : Byte) (e : ClassEntry) (r : CallRecord),
    s.powered = true → s.streams[x] = st → st.state = .running → (st.buffer n).bytes[(st.buffer n).consumed]? = some b →
    st.consumeNext = n → (st.buffer n).consumed + 1 < (st.buffer n).bytes.length →
    st.phase = .record → st.skip = false → st.record.begun = true → st.accepted < 16777215 →
    s.classEntry x b = e → e.kind = .recordEnd → e.hold = false →
    s.file (st.fileIndex.getD 0) = some f →
    convertRecord f.fileDay f.overflow s.settings.profiles[st.profile.getD 0].map st.record = .ok r →
    let taken : Stream :=
      { st.setBuffer n { st.buffer n with consumed := (st.buffer n).consumed + 1 } with
        mode := e.nextMode, record := {}
        dualSum := if e.includeInCheck = true then st.dualSum.feed b else st.dualSum }
    (s.stagingRecords + s.blocked.length < 256 →
        exec (.streamByte x) s = .next
          { s with
            staging := s.staging ++ [StagingEntry.record x r]
            streams := s.streams.set x
              { taken with
                accepted := st.accepted + 1
                duration := min (st.duration + r.duration) 999999999999999 } })
      ∧ (256 ≤ s.stagingRecords + s.blocked.length →
        exec (.streamByte x) s = .next
          { s with
            blocked := s.blocked ++ [x]
            streams := s.streams.set x { taken with state := .blocked, ready := some r } }))
    ∧ (∀ (day : Nat) (key : OverflowKey) (map : Vector FieldTarget 16) (b : RecordBuild),
      convertRecord day key map b = (List.finRange 16).foldl (fun so c =>
        match so with
        | .error reason => .error reason
        | .ok r =>
          match convertColumn day map[c] b.texts[c] r with
          | .value v => .ok v
          | .overflow v => if key = .reject then .error .overflow else .ok { v with clamped := true }
          | .bad reason => .error reason) (.ok {}))
    ∧ ∀ (day : Nat) (r : CallRecord) (t : FieldText) (ds fs : List Nat),
      let spells (bytes : List Byte) (ds : List Nat) : Prop :=
        bytes = ds.map (fun d => BitVec.ofNat 8 (48 + d)) ∧ ∀ d ∈ ds, d ≤ 9
      let foreign : Prop := ∃ b ∈ t.bytes, b.toNat < 48 ∨ 57 < b.toNat
      let converts (target : FieldTarget) (c : Converted) : Prop := convertColumn day target t r = c
      let number (target : FieldTarget) (maximum : Nat) (put : Nat → CallRecord) : Prop :=
        (spells t.bytes ds → ds ≠ [] → converts target
            (if t.long = true ∨ maximum < Nat.ofDigits 10 ds.reverse then .overflow (put maximum)
              else .value (put (Nat.ofDigits 10 ds.reverse))))
          ∧ (foreign → converts target (.bad .format))
      let tenths (d : Nat) : Prop := converts .duration
        (if t.long = true ∨ 99999999 < d then .overflow { r with duration := 99999999 }
          else .value { r with duration := d })
      converts .ignore (.value r)
        ∧ (t.bytes = [] → t.long = false →
          converts .startEpoch (.bad .missingField) ∧ converts .startClock (.bad .missingField)
            ∧ converts .duration (.bad .missingField) ∧ converts .called (.bad .missingField)
            ∧ converts .calling (.value { r with calling := [] }) ∧ converts .trunkIn (.value { r with trunkIn := none })
            ∧ converts .trunkOut (.value { r with trunkOut := none }) ∧ converts .cause (.value { r with cause := none })
            ∧ converts .service (.value { r with service := 0 }))
        ∧ number .startEpoch 4294943999 (fun n => { r with start := n })
        ∧ number .trunkIn 65535 (fun n => { r with trunkIn := some n })
        ∧ number .trunkOut 65535 (fun n => { r with trunkOut := some n })
        ∧ number .cause 255 (fun n => { r with cause := some n })
        ∧ number .service 15 (fun n => { r with service := n })
        ∧ (∀ h m n : Nat, h ≤ 23 → m ≤ 59 → n ≤ 59 → t.long = false →
          spells t.bytes [h / 10, h % 10, m / 10, m % 10, n / 10, n % 10] →
          converts .startClock (.value { r with start := day * 86400 + h * 3600 + m * 60 + n }))
        ∧ (t.bytes ≠ [] →
          (t.long = true ∨ foreign ∨ t.bytes.length ≠ 6
            ∨ (∃ a b c d u v, spells t.bytes [a, b, c, d, u, v] ∧ (2 < a ∨ (a = 2 ∧ 3 < b) ∨ 5 < c ∨ 5 < u))) →
          converts .startClock (.bad .format))
        ∧ (spells t.bytes ds → ds ≠ [] → tenths (Nat.ofDigits 10 ds.reverse * 10))
        ∧ (∀ whole fraction, t.bytes = whole ++ 46 :: fraction → spells whole ds → spells fraction fs →
          ds ++ fs ≠ [] → tenths (Nat.ofDigits 10 ds.reverse * 10 + fs.headD 0))
        ∧ (t.bytes ≠ [] → (∀ ds, ¬spells t.bytes ds) →
          (∀ whole fraction ds fs, t.bytes = whole ++ 46 :: fraction → spells whole ds → spells fraction fs →
            ds ++ fs = []) →
          converts .duration (.bad .format))
        ∧ (foreign → converts .calling (.bad .format) ∧ converts .called (.bad .format))
        ∧ (spells t.bytes ds →
          converts .calling (if t.long = true ∨ 20 < ds.length then .overflow { r with calling := ds.take 20 }
            else .value { r with calling := ds }))
        ∧ (spells t.bytes ds → ds ≠ [] →
          converts .called (if t.long = true ∨ 24 < ds.length then .overflow { r with called := ds.take 24 }
            else .value { r with called := ds }))

/-- A rejected record is counted and its text dropped, and RECORD_REJECTED is posted for the file's first reject only,
with its input ordinal; a reject that finds no room waits in POSTING, counted all the same (R41, R66). STREAM_BYTE on a
byte that is neither held nor the last of its buffer comes to it, its byte consumed, its mode applied and fed to the
dual-sum if included: an ILLEGAL byte, which then skips to the record end (R56); a RECORD_END whose record does not
convert, with the conversion's reason, or stands behind 16,777,215 accepted ones (FILE_LIMIT, R55, R67); and a
TRAILER_START, never fed, on a begun record (TRUNCATED), which opens the trailer in any case (R57). A RECORD_END of a
record not begun, or under skip-to-record-end, only empties it (R55). -/
def Obligations.RejectPostedOncePerFile : Prop :=
  (∀ (s : State) (x : StreamId) (p : PortId) (w q : Nat) (reason : RejectReason) (after : AfterPost) (st : Stream),
    s.streams[x] = st → st.owner = some p → st.switchId = some w → st.sequence = some q →
    st.storeFullNotice = false →
    (st.firstRejectPosted = true →
        s.rejectRecord x reason after =
          ({ s with
            streams := s.streams.set x
              { st with rejected := min (st.rejected + 1) 4294967295, record := {}, skip := false } }, true))
      ∧ (st.firstRejectPosted = false → s.completions.length < 64 → (s.completionsOf p).length < 32 →
        s.rejectRecord x reason after =
          ({ s with
            completions := s.completions ++ [⟨p, x, w, q, .recordRejected (st.accepted + st.rejected) reason⟩]
            streams := s.streams.set x
              { st with
                rejected := min (st.rejected + 1) 4294967295, record := {}, skip := false,
                firstRejectPosted := true } }, true))
      ∧ (st.firstRejectPosted = false → (64 ≤ s.completions.length ∨ 32 ≤ (s.completionsOf p).length) →
        s.rejectRecord x reason after =
          ({ s with
            waiting := s.waiting ++ [WaitItem.post x]
            streams := s.streams.set x
              { st with
                rejected := min (st.rejected + 1) 4294967295, record := {}, skip := false,
                firstRejectPosted := true, state := .posting, countdown := .stopped,
                pending := some ⟨.recordRejected (st.accepted + st.rejected) reason, after⟩ } }, false)))
    ∧ ∀ (s : State) (x : StreamId) (st : Stream) (n : BufferName) (b : Byte) (e : ClassEntry) (f : File),
      s.powered = true → s.streams[x] = st → st.state = .running → st.consumeNext = n →
      (st.buffer n).bytes[(st.buffer n).consumed]? = some b → (st.buffer n).consumed + 1 < (st.buffer n).bytes.length →
      st.phase = .record → s.classEntry x b = e → e.hold = false → s.file (st.fileIndex.getD 0) = some f →
      let taken (feed : Bool) : Stream :=
        { st.setBuffer n { st.buffer n with consumed := (st.buffer n).consumed + 1 } with
          mode := e.nextMode
          dualSum := if feed = true then st.dualSum.feed b else st.dualSum }
      let base (feed : Bool) : State := { s with streams := s.streams.set x (taken feed) }
      let answers (t : State) : Prop := exec (.streamByte x) s = .next t
      let becomes (t : State) (u : Stream) : Prop := answers { t with streams := t.streams.set x u }
      (st.skip = false → e.kind = .illegal →
          let r := ((base e.includeInCheck).rejectRecord x .illegalByte .running).1
          becomes r { r.streams[x] with record := {}, skip := true })
        ∧ (e.kind = .recordEnd →
          ((st.skip = true ∨ st.record.begun = false) →
              becomes s { taken e.includeInCheck with record := {}, skip := false })
            ∧ (st.skip = false → st.record.begun = true →
              (∀ reason, convertRecord f.fileDay f.overflow s.settings.profiles[st.profile.getD 0].map st.record
                  = .error reason →
                  answers ((base e.includeInCheck).rejectRecord x reason .running).1)
                ∧ (∀ r, convertRecord f.fileDay f.overflow s.settings.profiles[st.profile.getD 0].map st.record
                  = .ok r → 16777215 ≤ st.accepted →
                  answers ((base e.includeInCheck).rejectRecord x .fileLimit .running).1)))
        ∧ (st.skip = false → e.kind = .trailerStart →
          (st.record.begun = true →
              let r := ((base false).rejectRecord x .truncated .running).1
              becomes r { r.streams[x] with record := {}, phase := .trailer, trailerBuild := {} })
            ∧ (st.record.begun = false →
              becomes s { taken false with record := {}, phase := .trailer, trailerBuild := {} }))

/-- STREAM_BYTE on the last byte of a chunk, in either buffer, that is not held. The byte does what it does with a further
byte behind it; if the stream still runs the buffer is exhausted (R28), and otherwise it is only consumed. The next mode of
an exhausted buffer becomes the current mode. Behind a chunk that is not final the buffer is free and the other is next:
with unconsumed bytes there the stream runs on, with none it is STARVED with its countdown loaded. The last byte of the
final chunk ends the input (R28, R38): the CLOSE marker stands at the tail of the Staging Queue and the stream is CLOSING,
with the byte passed over behind the trailer. The same for a SKIP byte in the RECORD phase with no record to reject, none begun or skip-to-record-end set; with a record
begun it is first rejected TRUNCATED, and if that post finds no room the stream is POSTING with the end of input to
follow, no marker placed. In the TRAILER phase the trailer is first closed: it gives its three numbers exactly when it is
well-formed (R59), that is when trailer-bad is no, the field number is 3 and each text is a decimal number, not empty, in
its range. Nothing else changes. -/
def Obligations.FinalByteClosesInput : Prop :=
  (∀ (s : State) (x : StreamId) (st : Stream) (n : BufferName) (b : Byte),
    s.powered = true → s.streams[x] = st → st.state = .running → st.consumeNext = n →
    (st.buffer n).bytes[(st.buffer n).consumed]? = some b → (st.buffer n).consumed + 1 = (st.buffer n).bytes.length →
    (st.buffer n).final = true →
    let consumed (t : Stream) : Stream :=
      { t.setBuffer n { st.buffer n with consumed := (st.buffer n).consumed + 1 } with
        mode := (st.buffer n).nextMode.getD t.mode }
    let closes (t : Stream) : Prop :=
      exec (.streamByte x) s = .next
        { s with
          staging := s.staging ++ [StagingEntry.close x]
          streams := s.streams.set x { consumed t with state := .closing } }
    (st.phase = .afterTrailer → closes st)
      ∧ ∀ e : ClassEntry, s.classEntry x b = e → e.kind = .skip → e.hold = false →
        let taken : Stream :=
          { st with
            mode := e.nextMode
            dualSum := if e.includeInCheck = true then st.dualSum.feed b else st.dualSum }
        (st.phase = .record → (st.record.begun = false ∨ st.skip = true) → closes taken)
          ∧ (st.phase = .record → st.record.begun = true → st.skip = false →
            let base : State := { s with streams := s.streams.set x (consumed taken) }
            let r := base.rejectRecord x .truncated .endOfInput
            exec (.streamByte x) s = .next
              (if r.2 = true then
                { r.1 with
                  staging := s.staging ++ [StagingEntry.close x]
                  streams := r.1.streams.set x { r.1.streams[x] with state := .closing } }
              else r.1))
          ∧ (st.phase = .trailer → closes
            { st with mode := e.nextMode, trailer := st.trailerBuild.judge, phase := .afterTrailer }))
    ∧ (∀ (s t : State) (x : StreamId) (st : Stream) (n m : BufferName) (b further : Byte),
      s.powered = true → s.streams[x] = st → st.state = .running → st.consumeNext = n → n ≠ m →
      (st.buffer n).bytes[(st.buffer n).consumed]? = some b → (st.buffer n).consumed + 1 = (st.buffer n).bytes.length →
      (st.phase = .afterTrailer ∨ (s.classEntry x b).hold = false) →
      exec (.streamByte x)
        { s with
          streams := s.streams.set x
            (st.setBuffer n { st.buffer n with bytes := (st.buffer n).bytes ++ [further] }) } = .next t →
      let u := t.streams[x].setBuffer n { st.buffer n with consumed := (st.buffer n).consumed + 1 }
      let left (v : Stream) : State := { t with streams := t.streams.set x v }
      let becomes (v : State) : Prop := exec (.streamByte x) s = .next v
      let exhausted : Stream := { u with mode := (st.buffer n).nextMode.getD u.mode }
      let freed : Stream := { exhausted.setBuffer n {} with consumeNext := m }
      (u.state ≠ .running → becomes (left u))
        ∧ (u.state = .running → (st.buffer n).final = false →
          ((st.buffer m).consumed < (st.buffer m).bytes.length → becomes (left freed))
            ∧ ((st.buffer m).bytes.length ≤ (st.buffer m).consumed → becomes (left
              { freed with
                state := .starved
                countdown := .running (10 * (s.settings.ports[st.owner.getD 0].streamTimeout + 1)) })))
        ∧ (u.state = .running → (st.buffer n).final = true →
          ((u.phase = .record ∧ u.record.begun = true ∧ u.skip = false) →
              let r := (left exhausted).rejectRecord x .truncated .endOfInput
              becomes (if r.2 = true then
                  { r.1 with
                    staging := r.1.staging ++ [StagingEntry.close x]
                    streams := r.1.streams.set x { r.1.streams[x] with state := .closing } }
                else r.1))
            ∧ (¬(u.phase = .record ∧ u.record.begun = true ∧ u.skip = false) → becomes
              { left
                  { exhausted with
                    state := .closing
                    trailer := if u.phase = .trailer then u.trailerBuild.judge else u.trailer
                    phase := if u.phase = .trailer then .afterTrailer else u.phase } with
                staging := t.staging ++ [StagingEntry.close x] })))
    ∧ ∀ (t : TrailerBuild) (v : Trailer),
      let spells (bytes : List Byte) (ds : List Nat) : Prop :=
        bytes = ds.map (fun d => BitVec.ofNat 8 (48 + d)) ∧ (∀ d ∈ ds, d ≤ 9) ∧ ds ≠ []
      t.judge = some v ↔
        t.bad = false ∧ t.field = 3
          ∧ (∃ ds, spells t.text1 ds ∧ v.count = Nat.ofDigits 10 ds.reverse)
          ∧ (∃ ds, spells t.text2 ds ∧ v.duration = Nat.ofDigits 10 ds.reverse)
          ∧ (∃ ds, spells t.text3 ds ∧ v.check = Nat.ofDigits 10 ds.reverse)
          ∧ v.count ≤ 4294967295 ∧ v.duration ≤ 999999999999999 ∧ v.check ≤ 4294049520

/-- A freed place goes to the oldest BLOCKED stream: it appends its ready record, raises its counts and is RUNNING (R37,
R69). With no byte left in its buffer it passes on as R28 gives: to the other buffer, with the mode the chunk asked for, or to
STARVED with its countdown loaded; behind the final chunk its input ends (R38). A byte that is next, a hold byte too, is left to a later STREAM_BYTE:
the model's reading (log entry 5). Nothing else changes. -/
def Obligations.BlockedStreamTakesPlace : Prop :=
  ∀ (s : State) (x : StreamId) (rest : List StreamId) (r : CallRecord),
    s.powered = true → s.blocked = x :: rest → s.stagingRecords < 256 → s.streams[x].ready = some r →
    let st := s.streams[x]
    let resumed (u : Stream) : State :=
      { s with
        blocked := rest
        staging := s.staging ++ [StagingEntry.record x r]
        streams := s.streams.set x
          { u with
            ready := none, accepted := st.accepted + 1, duration := min (st.duration + r.duration) 999999999999999 } }
    (st.nextByte.isSome = true → exec .blockedStreamResumed s = .next (resumed { st with state := .running }))
      ∧ ∀ (p : PortId) (n : BufferName), st.owner = some p → st.consumeNext = n → (st.buffer n).bytes ≠ [] →
        (st.buffer n).consumed = (st.buffer n).bytes.length →
        let next := st.buffer n.other
        let moved : Stream := { st with mode := (st.buffer n).nextMode.getD st.mode }
        let passed : Stream := { moved.setBuffer n {} with consumeNext := n.other }
        ((st.buffer n).final = false → next.consumed < next.bytes.length →
            exec .blockedStreamResumed s = .next (resumed { passed with state := .running }))
          ∧ ((st.buffer n).final = false → next.bytes.length ≤ next.consumed →
            exec .blockedStreamResumed s = .next
              (resumed
                { passed with
                  state := .starved
                  countdown := .running (10 * (s.settings.ports[p].streamTimeout + 1)) }))
          ∧ ((st.buffer n).final = true → st.phase = .record → (st.record.begun = false ∨ st.skip = true) →
            exec .blockedStreamResumed s = .next
              { resumed { moved with state := .closing } with
                staging := s.staging ++ [StagingEntry.record x r, StagingEntry.close x] })

/-- The wait list is served from its oldest member on, each member in the state its forerunners left (R42), and
COMPLETION_WAIT_SERVED always ends in a next state. Serving one: a stream in POSTING whose port has room posts its pending
entry, leaves the list and goes on as the entry says (R41): STARVED and HELD load the countdown; IDLE takes the values of
the IDLE table; RUNNING runs on, passing an exhausted buffer of either kind on as R28 gives, and behind the final chunk
its input ends, a begun record rejected TRUNCATED first (R38); the end of input closes an open trailer and places its CLOSE
marker (R38); the reconciliation forms its verdict and goes on as the retry of a CLOSING stream does (R39, R40, R75). A
store-full notice that is set is posted first and cleared; a notice in the list posts STORE_FULL (R43). A member without room keeps
its place and changes nothing. That a served stream's next byte is left to a later STREAM_BYTE is the model's reading (log
entry 5). -/
def Obligations.WaitListServedInOrder : Prop :=
  (∀ s : State, s.powered = true →
      (s.waiting = [] → exec .completionWaitServed s = .next s)
        ∧ ∀ item rest, s.waiting = item :: rest →
          exec .completionWaitServed s = .next (rest.foldl State.serveWaiting (s.serveWaiting item)))
    ∧ ∀ (s : State) (x : StreamId) (p : PortId) (w q : Nat) (st : Stream),
      s.streams[x] = st → st.owner = some p → st.switchId = some w → st.sequence = some q →
      let room : Prop := s.completions.length < 64 ∧ (s.completionsOf p).length < 32
      let noted : State :=
        { s with
          waiting := s.waiting.filter (· ≠ WaitItem.notice x)
          completions := s.completions ++ [⟨p, x, w, q, .storeFull⟩]
          streams := s.streams.set x { st with storeFullNotice := false } }
      (room → st.storeFullNotice = true → s.serveWaiting (.notice x) = noted)
        ∧ ((¬room ∨ st.storeFullNotice = false) → s.serveWaiting (.notice x) = s)
        ∧ (st.pending = none → s.serveWaiting (.post x) = s)
        ∧ ∀ (d : CompletionDetail) (after : AfterPost), st.pending = some ⟨d, after⟩ →
          (¬room → s.serveWaiting (.post x) = s)
            ∧ (room → st.storeFullNotice = true → s.serveWaiting (.post x) = noted.serveWaiting (.post x))
            ∧ (room → st.storeFullNotice = false →
              let seconds := 10 * (s.settings.ports[p].streamTimeout + 1)
              let posted (t : Stream) : State :=
                { s with
                  waiting := s.waiting.filter (· ≠ WaitItem.post x)
                  completions := s.completions ++ [⟨p, x, w, q, d⟩]
                  streams := s.streams.set x { t with pending := none } }
              let closed (t : Stream) : State :=
                { posted
                    { t with
                      state := .closing
                      trailer := if t.phase = .trailer then t.trailerBuild.judge else t.trailer
                      phase := if t.phase = .trailer then .afterTrailer else t.phase } with
                  staging := s.staging ++ [StagingEntry.close x] }
              (after = .starved →
                  s.serveWaiting (.post x) = posted { st with state := .starved, countdown := .running seconds })
                ∧ (after = .held →
                  s.serveWaiting (.post x) = posted { st with state := .held, countdown := .running seconds })
                ∧ (after = .idle → s.serveWaiting (.post x) =
                  { posted st with
                    waiting := s.waiting.filter (fun i => i ≠ WaitItem.post x ∧ i ≠ WaitItem.notice x)
                    blocked := s.blocked.filter (· ≠ x)
                    streams := s.streams.set x {} })
                ∧ (after = .running →
                  (st.nextByte.isSome = true → s.serveWaiting (.post x) = posted { st with state := .running })
                    ∧ ∀ n : BufferName, st.consumeNext = n → (st.buffer n).bytes ≠ [] →
                      (st.buffer n).consumed = (st.buffer n).bytes.length →
                      let next := st.buffer n.other
                      let moved : Stream :=
                        { st with state := .running, mode := (st.buffer n).nextMode.getD st.mode }
                      let passed : Stream := { moved.setBuffer n {} with consumeNext := n.other }
                      ((st.buffer n).final = false →
                          (next.consumed < next.bytes.length → s.serveWaiting (.post x) = posted passed)
                            ∧ (next.bytes.length ≤ next.consumed → s.serveWaiting (.post x) =
                              posted { passed with state := .starved, countdown := .running seconds }))
                        ∧ ((st.buffer n).final = true →
                          ((st.phase = .record ∧ st.record.begun = true ∧ st.skip = false) →
                              let r := (posted moved).rejectRecord x .truncated .endOfInput
                              s.serveWaiting (.post x) =
                                if r.2 = true then
                                  { r.1 with
                                    staging := s.staging ++ [StagingEntry.close x]
                                    streams := r.1.streams.set x { r.1.streams[x] with state := .closing } }
                                else r.1)
                            ∧ (¬(st.phase = .record ∧ st.record.begun = true ∧ st.skip = false) →
                              s.serveWaiting (.post x) = closed moved)))
                ∧ (after = .endOfInput → s.serveWaiting (.post x) = closed st)
                ∧ (after = .reconcile → s.powered = true →
                  exec (.closingStreamTrailRetry x)
                    (posted { st with state := .closing, verdict := some st.reasons }) =
                      .next (s.serveWaiting (.post x))))

/-- The dispute reasons of a stream's figures against its trailer (R39). That NO_TRAILER holds exactly in the RECORD phase
and TRAILER_BAD exactly outside it, so that a TRAILER_START byte met under skip-to-record-end counts as not met, is the
model's reading (log entry 33). -/
def Obligations.DisputeReasonsByFigures : Prop :=
  ∀ st : Stream,
    (st.reasons.count = true ↔ ∃ t, st.trailer = some t ∧ t.count ≠ st.accepted + st.rejected)
      ∧ (st.reasons.duration = true ↔ ∃ t, st.trailer = some t ∧ st.rejected = 0 ∧ t.duration ≠ st.duration)
      ∧ (st.reasons.check = true ↔
        ∃ t, st.trailer = some t ∧ t.check ≠ st.dualSum.b * 65536 + st.dualSum.a)
      ∧ (st.reasons.noTrailer = true ↔ st.phase = .record)
      ∧ (st.reasons.trailerBad = true ↔ st.phase ≠ .record ∧ st.trailer = none)
      ∧ (st.reasons.rejects = true ↔ 0 < st.rejected)

/-- Acceptance is one step (R3, R17, R40): with room in the trail and in the Completion Queue, the close acknowledgement
of a stream whose Encoder discarded nothing, and the retry of a stream that waited with its verdict, append FILE_ACCEPTED
with the accepted count, give the file its verdict, counts, trailer and clock second, set the switch's expected next
sequence, post CLOSED_CLEAN or CLOSED_DISPUTED and leave the stream IDLE; the acknowledged encoding context returns to
its reset values. With room in the trail and none in the Completion Queue all of this is done but for the closing entry,
for which the settled stream waits in POSTING, IDLE to follow (R40). With the trail full the acknowledged stream waits CLOSING with its verdict, and a stream that waits so
is as before (R129). What the Encoder discarded is first taken over (R75): the counts and the duration are adjusted, and
RECORD_REJECTED with FILE_LIMIT and the adjusted accepted count is posted if no reject was before, or waits in POSTING
with the reconciliation to follow; then all is as for the adjusted stream. A stream with abort after close does not
reconcile at the acknowledgement: its ABORT marker is placed and it is ABORTING (R34); a store-full notice of it that
still waits is cleared without being posted (R43 clears it at an abort; that it is done here is log entry 19's). -/
def Obligations.AcceptanceInOneStep : Prop :=
  ∀ (s : State) (x : StreamId) (st : Stream) (p : PortId) (i w q : Nat) (f : File) (reasons : DisputeReasons)
    (detail : CompletionDetail),
    s.powered = true → s.streams[x] = st → st.state = .closing → st.abortAfterClose = false →
    st.storeFullNotice = false → st.owner = some p → st.fileIndex = some i → st.switchId = some w →
    st.sequence = some q → s.file i = some f → f.state = .ingesting → f.switchId = w → f.sequence = q →
    (s.trail.entries.length < 128 →
    detail = (if reasons = {} then CompletionDetail.closedClean st.accepted st.rejected st.duration
      else .closedDisputed reasons st.accepted st.rejected st.duration st.trailer) →
    let given : State :=
      { s with
        trail := s.trail.append s.stamp .fileAccepted (some p) (.file w q i reasons) st.accepted
        files := Sparse.set none i (some
          { f with
            state := if reasons = {} then .accepted else .disputed, recordCount := st.accepted,
            rejectedCount := st.rejected, durationTotal := min st.duration 999999999999999, reasons,
            trailer := st.trailer, acceptedAt := some s.stamp }) s.files
        switches := Sparse.set {} w { s.switch w with expected := some ((q + 1) % 65536) } s.switches
        }
    let accepted : State :=
      { given with
        completions := s.completions ++ [⟨p, x, w, q, detail⟩]
        waiting := s.waiting.filter (fun i => i ≠ WaitItem.post x ∧ i ≠ WaitItem.notice x)
        blocked := s.blocked.filter (· ≠ x)
        streams := s.streams.set x {} }
    let waits : State :=
      { given with
        waiting := s.waiting ++ [WaitItem.post x]
        streams := s.streams.set x
          { st with state := .posting, pending := some ⟨detail, .idle⟩, countdown := .stopped, verdict := none } }
    let becomes (t : State) : Prop :=
      (st.verdict = some reasons → exec (.closingStreamTrailRetry x) s = .next t)
        ∧ (st.reasons = reasons → s.encodings[x].closePending = true → s.encodings[x].image = none →
          s.encodings[x].discardedCount = 0 →
          exec (.closeAcknowledgement x) s = .next { t with encodings := s.encodings.set x {} })
    (s.completions.length < 64 → (s.completionsOf p).length < 32 → becomes accepted)
      ∧ ((64 ≤ s.completions.length ∨ 32 ≤ (s.completionsOf p).length) → becomes waits))
      ∧ (128 ≤ s.trail.entries.length → st.verdict = some reasons →
        exec (.closingStreamTrailRetry x) s = .next s)
      ∧ (128 ≤ s.trail.entries.length → st.reasons = reasons → s.encodings[x].closePending = true →
        s.encodings[x].image = none → s.encodings[x].discardedCount = 0 →
        exec (.closeAcknowledgement x) s = .next
          { s with
            encodings := s.encodings.set x {}
            streams := s.streams.set x { st with verdict := some reasons } })
      ∧ (∀ n, s.encodings[x].closePending = true → s.encodings[x].image = none →
        s.encodings[x].discardedCount = n → 0 < n →
        let ordinal := st.accepted - n
        let adjusted : Stream :=
          { st with
            accepted := ordinal
            duration := if st.duration = 999999999999999 then st.duration
              else st.duration - s.encodings[x].discardedDuration
            rejected := min (st.rejected + n) 4294967295
            firstRejectPosted := true }
        let counted : State :=
          { s with
            encodings := s.encodings.set x { s.encodings[x] with discardedCount := 0 }
            streams := s.streams.set x adjusted }
        (st.firstRejectPosted = true →
            exec (.closeAcknowledgement x) s = exec (.closeAcknowledgement x) counted)
          ∧ (st.firstRejectPosted = false → s.completions.length < 64 → (s.completionsOf p).length < 32 →
            exec (.closeAcknowledgement x) s = exec (.closeAcknowledgement x)
              { counted with
                completions := s.completions ++ [⟨p, x, w, q, .recordRejected ordinal .fileLimit⟩] })
          ∧ (st.firstRejectPosted = false → (64 ≤ s.completions.length ∨ 32 ≤ (s.completionsOf p).length) →
            exec (.closeAcknowledgement x) s = .next
              { s with
                encodings := s.encodings.set x {}
                waiting := s.waiting ++ [WaitItem.post x]
                streams := s.streams.set x
                  { adjusted with
                    state := .posting, countdown := .stopped
                    pending := some ⟨.recordRejected ordinal .fileLimit, .reconcile⟩ } }))
      ∧ ∀ (u : Stream) (notice : Bool), u = { st with abortAfterClose := true, storeFullNotice := notice } →
        s.encodings[x].closePending = true →
        s.encodings[x].image = none →
        exec (.closeAcknowledgement x) { s with streams := s.streams.set x u } = .next
          { s with
            encodings := s.encodings.set x {}
            staging := s.staging ++ [StagingEntry.abort x]
            waiting := s.waiting.filter (· ≠ WaitItem.notice x)
            streams := s.streams.set x { st with state := .aborting, verdict := none, abortAfterClose := false } }

/-- A stream whose abort has been reached closes it out by cause (R36): REQUEST posts ABORTED with cause REQUEST,
ROLE_WITHDRAWN posts ABORTED with cause PORT_RESET, TIMEOUT posts TIMEOUT, PORT_RESET posts nothing; the stream is IDLE
with the values of the IDLE table and its encoding context at its reset values; with cause PORT_RESET it is so at once,
whatever the room. Without room for the post of another cause it is POSTING, with IDLE to follow. -/
def Obligations.AbortClosedOutByCause : Prop :=
  ∀ (s : State) (x : StreamId) (p : PortId) (w q : Nat) (cause : AbortCause),
    s.powered = true → s.encodings[x].removal = .done → s.streams[x].owner = some p →
    s.streams[x].switchId = some w → s.streams[x].sequence = some q → s.streams[x].abortCause = some cause →
    s.streams[x].storeFullNotice = false →
    let detail : CompletionDetail :=
      match cause with
      | .request => .aborted false
      | .roleWithdrawn => .aborted true
      | _ => .timeout
    let idle (entries : List Completion) : State :=
      { s with
        encodings := s.encodings.set x {}
        completions := s.completions ++ entries
        waiting := s.waiting.filter (fun i => i ≠ WaitItem.post x ∧ i ≠ WaitItem.notice x)
        blocked := s.blocked.filter (· ≠ x)
        streams := s.streams.set x {} }
    (cause = .portReset → exec (.abortReached x) s = .next (idle []))
      ∧ (s.completions.length < 64 → (s.completionsOf p).length < 32 → cause ≠ .portReset →
        exec (.abortReached x) s = .next (idle [⟨p, x, w, q, detail⟩]))
      ∧ ((64 ≤ s.completions.length ∨ 32 ≤ (s.completionsOf p).length) → cause ≠ .portReset →
        exec (.abortReached x) s = .next
          { s with
            encodings := s.encodings.set x {}
            waiting := s.waiting ++ [WaitItem.post x]
            streams := s.streams.set x
              { s.streams[x] with
                state := .posting, pending := some ⟨detail, .idle⟩, countdown := .stopped } })

/-! ## Staging Queue, Segment Encoder and Store Port -/

/-- A record at the head whose stream has a filling segment with room for it is appended to that segment: its encoding
against the previous record joins the assembly area and the payload dual-sum, the counts rise, it becomes the previous
record, and it leaves the queue (R72, R78, R82). A record of an ABORTING stream leaves without being counted (R71); with
chain full it is discarded and counted (R75). A record that waits leaves in the same way once its stream has begun an abort
while it waits, ABORTING or still CLOSING (R71, R34; the mark `abandoned` on the wait is the model's, log entry 10), and
otherwise waits on. Nothing else changes. -/
def Obligations.RecordJoinsFillingSegment : Prop :=
  ∀ (s : State) (x : StreamId) (r : CallRecord) (rest : List StagingEntry) (g : Filling) (v : Previous),
    s.powered = true → s.staging = StagingEntry.record x r :: rest →
    (s.headWait = none → s.streams[x].state ≠ .aborting → s.encodings[x].chainFull = false → s.encodings[x].filling = some g →
      s.encodings[x].previous = some v → s.encodings[x].recordCount < 32768 →
      s.encodings[x].payload.length + (encodeRecord v r).length ≤ 1048512 → 1 ≤ s.encodings[x].recordCount →
      exec .encoderTakeHead s = .next
        { s with
          staging := rest
          encodings := s.encodings.set x
            { s.encodings[x] with
              payload := s.encodings[x].payload ++ encodeRecord v r
              dualSum := s.encodings[x].dualSum.feedAll (encodeRecord v r)
              recordCount := s.encodings[x].recordCount + 1
              durationSum := s.encodings[x].durationSum + r.duration
              previous := some { start := r.start, calling := r.calling, called := r.called } } })
      ∧ ((s.streams[x].state = .aborting ∨ s.headWait = some .abandoned) →
        exec .encoderTakeHead s = .next { s with staging := rest, headWait := none })
      ∧ ((s.headWait = some .storeFull ∨ s.headWait = some .image) → s.streams[x].state ≠ .aborting →
        exec .encoderTakeHead s = .next s)
      ∧ (s.headWait = none → s.streams[x].state ≠ .aborting → s.encodings[x].chainFull = true →
        exec .encoderTakeHead s = .next
          { s with
            staging := rest
            encodings := s.encodings.set x
              { s.encodings[x] with
                discardedCount := s.encodings[x].discardedCount + 1
                discardedDuration := s.encodings[x].discardedDuration + r.duration } })

/-- The first record of a segment (R6, R72, R73): the head of the Free Segment List becomes the file's last segment,
FILLING under a raised allocation count, linked behind the former last one, and the record is encoded into it against its
own start time; a store-full episode ends. ENCODER_TAKE_HEAD does so when no wait stands and STORE_FULL_WAIT_RETRY in a
store-full wait. At 512 segments the record is discarded and counted and chain full is set (R75). A record of a CLOSING stream that set abort
after close before is placed like any other (R34, R71). Nothing else changes. -/
def Obligations.FirstRecordTakesHeadSegment : Prop :=
  ∀ (s : State) (x : StreamId) (r : CallRecord) (rest : List StagingEntry) (i n : Nat) (f : File)
    (free : List (Nat × Nat)),
    s.powered = true → s.staging = StagingEntry.record x r :: rest → s.streams[x].state ≠ .aborting →
    s.encodings[x].chainFull = false → s.encodings[x].filling = none → s.streams[x].fileIndex = some i →
    s.file i = some f → f.state = .ingesting → Runs.pop s.freeList = some (n, free) →
    let allocation := ((s.segment n).allocation + 1) % 65536
    let encodings :=
      if s.storeFullEpisode then mapVector (fun c : Encoding => { c with storeFullNotified := false }) s.encodings
      else s.encodings
    let linked := match f.lastSegment with
      | some k => Sparse.set {} k { s.segment k with next := some n } s.segments
      | none => s.segments
    let placed : State :=
      { s with
        staging := rest, headWait := none, storeFullEpisode := false, freeList := free
        segments := Sparse.set {} n { state := .filling, allocation, fileIndex := i, ordinal := f.segmentCount } linked
        files := Sparse.set none i (some
          { f with
            firstSegment := (match f.firstSegment with | some k => some k | none => some n)
            lastSegment := some n, segmentCount := f.segmentCount + 1 }) s.files
        encodings := encodings.set x
          { encodings[x] with
            filling := some ⟨n, allocation, f.segmentCount⟩
            previous := some { start := r.start, calling := r.calling, called := r.called }
            recordCount := 1, durationSum := r.duration, baseTime := r.start
            payload := encodeRecord { start := r.start } r
            dualSum := DualSum.feedAll {} (encodeRecord { start := r.start } r) } }
    (f.segmentCount ≠ 512 → s.headWait = none → exec .encoderTakeHead s = .next placed)
      ∧ (f.segmentCount ≠ 512 → s.headWait = some .storeFull → exec .storeFullWaitRetry s = .next placed)
      ∧ (f.segmentCount = 512 → s.headWait = none → exec .encoderTakeHead s = .next
          { s with
            staging := rest
            encodings := s.encodings.set x
              { s.encodings[x] with
                chainFull := true, discardedCount := s.encodings[x].discardedCount + 1
                discardedDuration := s.encodings[x].discardedDuration + r.duration } })

/-- With the Free Segment List empty a record that needs a segment waits at the head in a store-full wait, and a
store-full episode stands (R73). A stream not yet notified in the episode gets its notice: STORE_FULL is posted if its
port has room, and otherwise the notice waits its turn behind the wait list (R43); so does a CLOSING stream that set abort
after close before (log entry 19). A notice that finds an earlier one of the stream still waiting stands at the earlier
one's place, and one STORE_FULL is posted for both: the model's choice (log entry 39). Nothing else changes. -/
def Obligations.StoreFullWaitBegins : Prop :=
  ∀ (s : State) (x : StreamId) (r : CallRecord) (rest : List StagingEntry) (i w q : Nat) (f : File) (p : PortId),
    s.powered = true → s.headWait = none → s.staging = StagingEntry.record x r :: rest →
    s.streams[x].state ≠ .aborting → s.encodings[x].chainFull = false → s.encodings[x].filling = none →
    s.streams[x].fileIndex = some i → s.file i = some f → f.state = .ingesting → Runs.pop s.freeList = none →
    s.streams[x].owner = some p → s.streams[x].switchId = some w → s.streams[x].sequence = some q →
    ((WaitItem.notice x ∉ s.waiting ∧ s.streams[x].storeFullNotice = false)
      ∨ (WaitItem.notice x ∈ s.waiting ∧ s.streams[x].storeFullNotice = true)) →
    (s.encodings[x].storeFullNotified = true →
        exec .encoderTakeHead s = .next { s with headWait := some .storeFull, storeFullEpisode := true })
      ∧ (s.encodings[x].storeFullNotified = false → s.completions.length < 64 → (s.completionsOf p).length < 32 →
        exec .encoderTakeHead s = .next
          { s with
            headWait := some .storeFull, storeFullEpisode := true
            encodings := s.encodings.set x { s.encodings[x] with storeFullNotified := true }
            completions := s.completions ++ [⟨p, x, w, q, .storeFull⟩]
            streams := s.streams.set x { s.streams[x] with storeFullNotice := false }
            waiting := s.waiting.filter (· ≠ WaitItem.notice x) })
      ∧ (s.encodings[x].storeFullNotified = false →
        (64 ≤ s.completions.length ∨ 32 ≤ (s.completionsOf p).length) →
        exec .encoderTakeHead s = .next
          { s with
            headWait := some .storeFull, storeFullEpisode := true
            encodings := s.encodings.set x { s.encodings[x] with storeFullNotified := true }
            streams := s.streams.set x { s.streams[x] with storeFullNotice := true }
            waiting :=
              if WaitItem.notice x ∈ s.waiting then s.waiting else s.waiting ++ [WaitItem.notice x] })

/-- A CLOSE marker at the head of a stream with a filling segment (R76, R84): the segment moves into the free write image
with its header and figures and its write is asked for (WAITING while another operation is in progress, WRITING at once
when the store is idle), close pending is set and the marker leaves. While the image still holds an earlier segment the
marker waits, and IMAGE_WAIT_END does the same once the image is free. A CLOSE marker of a stream with no filling segment
leaves at once, whatever the image holds, and sets close pending (R76). A record that the filling segment has no room for,
32,768 records or 1,048,512 payload bytes being the limits, finishes it in the same way and is then taken as the first
record of a new segment, or waits for the image (R72, R82, R84). Nothing else changes. -/
def Obligations.CloseMarkerFinishesSegment : Prop :=
  (∀ (s : State) (x : StreamId) (rest : List StagingEntry),
    s.powered = true → s.encodings[x].filling = none → s.staging = StagingEntry.close x :: rest → s.headWait = none →
    exec .encoderTakeHead s = .next
      { s with
        staging := rest
        encodings := s.encodings.set x { s.encodings[x] with closePending := true } })
    ∧ ∀ (s : State) (x : StreamId) (g : Filling) (i w q : Nat),
    s.powered = true → s.encodings[x].filling = some g →
    s.streams[x].fileIndex = some i → s.streams[x].switchId = some w → s.streams[x].sequence = some q →
    let figures : Figures :=
      { recordCount := s.encodings[x].recordCount, durationSum := s.encodings[x].durationSum,
        encodedLength := s.encodings[x].payload.length,
        check := s.encodings[x].dualSum.b * 65536 + s.encodings[x].dualSum.a, baseTime := s.encodings[x].baseTime }
    let header : Header :=
      { segment := g.segment, allocation := g.allocation, ordinal := g.ordinal, fileIndex := i, switchId := w,
        sequence := q, figures }
    let finished (closing writing : Bool) : Encoding :=
      { s.encodings[x] with
        filling := none, previous := none, recordCount := 0, durationSum := 0, dualSum := {}, baseTime := 0,
        payload := [], closePending := closing || s.encodings[x].closePending
        image := some { segment := g.segment, allocation := g.allocation, header := header.bytes,
                        payload := s.encodings[x].payload, figures, writing } }
    let busy (closing : Bool) (staging : List StagingEntry) : State :=
      { s with
        staging, headWait := none, encodings := s.encodings.set x (finished closing false)
        storePort := { s.storePort with writes := s.storePort.writes ++ [(x, g.segment)] } }
    let idle (closing : Bool) (staging : List StagingEntry) : State :=
      { s with
        staging, headWait := none, encodings := s.encodings.set x (finished closing true)
        storePort := { s.storePort with current := some (.write x g.segment) } }
    let storeIdle : Prop := s.storePort.current = none ∧ s.storePort.writes = []
    (∀ rest, s.staging = StagingEntry.close x :: rest →
        (s.encodings[x].image = none → s.headWait = none →
            (s.storePort.current.isSome = true → exec .encoderTakeHead s = .next (busy true rest))
              ∧ (storeIdle → exec .encoderTakeHead s = .next (idle true rest)))
          ∧ (s.encodings[x].image = none → s.headWait = some .image →
            (s.storePort.current.isSome = true → exec .imageWaitEnd s = .next (busy true rest))
              ∧ (storeIdle → exec .imageWaitEnd s = .next (idle true rest)))
          ∧ (s.encodings[x].image.isSome = true → s.headWait = none →
            exec .encoderTakeHead s = .next { s with headWait := some .image }))
      ∧ ∀ (r : CallRecord) (rest : List StagingEntry) (v : Previous),
        s.staging = StagingEntry.record x r :: rest → s.streams[x].state ≠ .aborting →
        s.encodings[x].chainFull = false → s.encodings[x].previous = some v → 1 ≤ s.encodings[x].recordCount →
        (32768 ≤ s.encodings[x].recordCount
          ∨ 1048512 < s.encodings[x].payload.length + (encodeRecord v r).length) →
        (s.encodings[x].image = none → s.headWait = none →
            (s.storePort.current.isSome = true →
                exec .encoderTakeHead s = exec .encoderTakeHead (busy false s.staging))
              ∧ (storeIdle → exec .encoderTakeHead s = exec .encoderTakeHead (idle false s.staging)))
          ∧ (s.encodings[x].image = none → s.headWait = some .image →
            (s.storePort.current.isSome = true →
                exec .imageWaitEnd s = exec .encoderTakeHead (busy false s.staging))
              ∧ (storeIdle → exec .imageWaitEnd s = exec .encoderTakeHead (idle false s.staging)))
          ∧ (s.encodings[x].image.isSome = true → s.headWait = none →
            exec .encoderTakeHead s = .next { s with headWait := some .image })

/-- Removing a file returns its chain to the tail of the Free Segment List in chain order, each segment FREE with
everything cleared but its allocation count, frees its entry and lowers its switch's file count (R4, R7, R17); an ABORT
marker at the head does so to the INGESTING file of its stream and drops its assembly (R77). A write image still WAITING
is dropped too and its write withdrawn (R87). With the image WRITING the removal is held (R4): the report of that write,
whether it ended well or with an error, leaves its bytes in the extent, frees the image and carries out the removal in
place of the finish (R85, R86). What a failed write leaves in the extent, an initial part of header and payload behind
which every byte reads as before, is the model's choice (log entry 15). Nothing else changes but for the next store
operation. -/
def Obligations.AbortMarkerRemovesFile : Prop :=
  (∀ (s : State) (i : Nat) (f : File),
      let t := s.releaseFile i f
      Runs.toList t.freeList = Runs.toList s.freeList ++ s.chain f
        ∧ t.file i = none ∧ (∀ j, j ≠ i → t.file j = s.file j)
        ∧ (∀ n ∈ s.chain f, t.segment n = { allocation := (s.segment n).allocation })
        ∧ (∀ n, n ∉ s.chain f → t.segment n = s.segment n)
        ∧ t.switch f.switchId = { s.switch f.switchId with fileCount := (s.switch f.switchId).fileCount - 1 }
        ∧ (∀ w, w ≠ f.switchId → t.switch w = s.switch w)
        ∧ t = { s with
            files := t.files, segments := t.segments, freeList := t.freeList, switches := t.switches })
    ∧ (∀ (s : State) (x : StreamId) (rest : List StagingEntry) (i : Nat) (f : File),
      s.powered = true → s.headWait = none → s.staging = StagingEntry.abort x :: rest →
      s.streams[x].fileIndex = some i → s.file i = some f → f.state = .ingesting →
      let t := s.releaseFile i f
      let dropped : Encoding :=
        { s.encodings[x] with
          filling := none, previous := none, recordCount := 0, durationSum := 0, dualSum := {}, baseTime := 0,
          payload := [] }
      let removed (storePort : StorePort) (c : Encoding) : State :=
        { s with
          staging := rest, storePort
          files := t.files, segments := t.segments, freeList := t.freeList, switches := t.switches
          encodings := s.encodings.set x { c with removal := .done } }
      (s.encodings[x].image = none → exec .encoderTakeHead s = .next (removed s.storePort dropped))
        ∧ ∀ image, s.encodings[x].image = some image →
          (image.writing = false → exec .encoderTakeHead s = .next
              (removed { s.storePort with writes := s.storePort.writes.filter (fun a => a.1 ≠ x) }
                { dropped with image := none }))
            ∧ (image.writing = true → exec .encoderTakeHead s = .next
              { s with staging := rest, encodings := s.encodings.set x { dropped with removal := .held } }))
    ∧ ∀ (s : State) (x : StreamId) (n i : Nat) (image : WriteImage) (f : File) (left : List Byte),
      s.powered = true → s.storePort.current = some (.write x n) → n ≤ 262143 → s.encodings[x].image = some image →
      s.encodings[x].removal = .held → s.streams[x].fileIndex = some i → s.file i = some f → f.state = .ingesting →
      let t := s.releaseFile i f
      let whole := image.header ++ image.payload
      ∀ (report : Instr) (bytes : List Byte),
        ((report = .storeWriteComplete ∧ bytes = whole)
          ∨ (report = .storeWriteError left ∧ bytes = left.take whole.length)) →
        ∃ store : List Host.Cell,
          exec report s = .next (State.endStore
            { s with
              store, files := t.files, segments := t.segments, freeList := t.freeList, switches := t.switches
              encodings := s.encodings.set x { s.encodings[x] with image := none, removal := .done } })
          ∧ (∀ k b, bytes[k]? = some b → Sparse.get 0 (n * 1048576 + k) store = b)
          ∧ ∀ a, (a < n * 1048576 ∨ n * 1048576 + bytes.length ≤ a) → Sparse.get 0 a store = s.storeByte a

/-- A store write that ends without error (R8, R85, R88): from the extent's first byte on the store holds header and
payload, every other byte reads as before, the FILLING segment is STORED with its figures, the write image is free, and
the next operation starts. Nothing else changes. -/
def Obligations.StoreWriteStoresSegment : Prop :=
  ∀ (s : State) (x : StreamId) (n : Nat) (image : WriteImage),
    s.powered = true → s.storePort.current = some (.write x n) → n ≤ 262143 → s.encodings[x].image = some image →
    s.encodings[x].removal ≠ .held → (s.segment n).state = .filling →
    ∃ store : List Host.Cell,
      exec .storeWriteComplete s = .next (State.endStore
        { s with
          store
          encodings := s.encodings.set x { s.encodings[x] with image := none }
          segments := Sparse.set {} n
            { s.segment n with state := .stored, figures := image.figures, unreported := false } s.segments })
      ∧ (∀ k b, (image.header ++ image.payload)[k]? = some b → Sparse.get 0 (n * 1048576 + k) store = b)
      ∧ ∀ a, (a < n * 1048576 ∨ n * 1048576 + (image.header ++ image.payload).length ≤ a) →
        Sparse.get 0 a store = s.storeByte a

/-- A store write that ends with an error (R9, R86): the segment is SUSPECT with its figures and its file's suspect count
rises; a WRITE_ERROR finding is appended if a place is free, and QUARANTINE_SET naming the file if the suspect count was 0
and the trail has room; the segment is unreported when one of the two is owed and not made. What the failed write left in
the extent is the report's operand (log entry 15); every byte outside the extent's written bytes reads as before. -/
def Obligations.FailedWriteSuspectsSegment : Prop :=
  ∀ (s : State) (x : StreamId) (n i : Nat) (image : WriteImage) (f : File) (left : List Byte),
    s.powered = true → s.storePort.current = some (.write x n) → n ≤ 262143 → s.encodings[x].image = some image →
    s.encodings[x].removal ≠ .held → (s.segment n).state = .filling → (s.segment n).fileIndex = i →
    s.file i = some f →
    ∃ store : List Host.Cell,
      exec (.storeWriteError left) s = .next (State.endStore
        { s with
          store
          encodings := s.encodings.set x { s.encodings[x] with image := none }
          segments := Sparse.set {} n
            { s.segment n with
              state := .suspect, figures := image.figures
              unreported := decide (s.findingPlaces = 0 ∨ (f.suspectCount = 0 ∧ 128 ≤ s.trail.entries.length)) }
            s.segments
          files := Sparse.set none i (some { f with suspectCount := f.suspectCount + 1 }) s.files
          findings :=
            if 0 < s.findingPlaces then
              s.findings ++ [{ kind := .writeError, source := .encoder, segment := n, fileIndex := i,
                               switchId := f.switchId, sequence := f.sequence, clock := s.stamp }]
            else s.findings
          trail :=
            if f.suspectCount = 0 ∧ s.trail.entries.length < 128 then
              s.trail.append s.stamp .quarantineSet none (.file f.switchId f.sequence i {}) f.recordCount
            else s.trail })
      ∧ (∀ k b, (left.take (image.header.length + image.payload.length))[k]? = some b →
          Sparse.get 0 (n * 1048576 + k) store = b)
      ∧ ∀ a, (a < n * 1048576 ∨ n * 1048576 + (left.take (image.header.length + image.payload.length)).length ≤ a) →
        Sparse.get 0 a store = s.storeByte a

/-- The Store Port serves one operation at a time: when one ends, the oldest waiting write starts, else the oldest waiting
retrieval read, else the sweep's read (R87). That it starts at the end of the step that takes the report is the model's
choice (log entry 9). -/
def Obligations.StoreServesInOrder : Prop :=
  ∀ s : State,
    (∀ x n rest, s.storePort.writes = (x, n) :: rest →
        s.endStore =
          { s with
            storePort := { s.storePort with current := some (.write x n), writes := rest }
            encodings := s.encodings.set x
              { s.encodings[x] with image := s.encodings[x].image.map (fun i => { i with writing := true }) } })
      ∧ (∀ c n rest, s.storePort.writes = [] → s.storePort.reads = (c, n) :: rest →
        s.endStore =
          { s with
            storePort := { s.storePort with current := some (.read c n true), reads := rest }
            cursors := s.cursors.set c
              { s.cursors[c] with read := s.cursors[c].read.map (fun r => { r with reading := true }) } })
      ∧ (∀ n, s.storePort.writes = [] → s.storePort.reads = [] → s.storePort.sweep = some n →
        s.endStore = { s with storePort := { s.storePort with current := some (.sweep n), sweep := none } })
      ∧ (s.storePort.writes = [] → s.storePort.reads = [] → s.storePort.sweep = none →
        s.endStore = { s with storePort := { s.storePort with current := none } })

/-! ## Retention -/

/-- PLACE HOLD with its arguments in range, a FREE entry and trail room writes the lowest FREE entry, appends HOLD_PLACED
and returns every EXPIRING file it matches to ACCEPTED; every other file stays as it was (R93). It is refused BAD_REQUEST
for an argument out of range, a first day above the last or a label that is none, then NO_FREE_HOLD with every entry
ACTIVE, then TRAIL_FULL, and changes nothing. RELEASE HOLD of an ACTIVE entry frees it and appends HOLD_RELEASED (R94); of a FREE entry it is refused STATE, above 31 BAD_REQUEST, and with the
trail full TRAIL_FULL. Nothing else changes. -/
def Obligations.HoldsPlacedAndReleased : Prop :=
  ∀ (s : State) (p : PortId) (tag : Byte) (k : Fin 32),
    s.admits p tag → (s.roles p).admin = true →
    (∀ (w a b : Wire16) (present size : Byte) (text : List Byte) (selector : Option Nat) (label : Option (List Byte)),
        s.canonical = true → text.length = 16 → s.trail.entries.length < 128 →
        readSelector (wire16 (s.byteOrder p) w) = some selector → readLabel present size text = some label →
        wire16 (s.byteOrder p) a ≤ wire16 (s.byteOrder p) b → wire16 (s.byteOrder p) b ≤ 49709 →
        s.holds[k].active = false → (∀ j : Fin 32, j < k → s.holds[j].active = true) →
        ∃ files : Sparse (Option File),
          exec (.placeHold p tag w a b present size text) s = .next
            ({ s with
              files
              holds := s.holds.set k
                { active := true, selector, firstDay := wire16 (s.byteOrder p) a, lastDay := wire16 (s.byteOrder p) b,
                  placingPort := p, label }
              trail := s.trail.append s.stamp .holdPlaced (some p) (.index k.val) 0 }.reply p tag .ok
              (.holdPlaced k.val))
          ∧ ∀ i, Sparse.get none i files = (s.file i).map (fun f =>
              if f.state = .expiring ∧ (selector = none ∨ selector = some f.switchId)
                  ∧ wire16 (s.byteOrder p) a ≤ f.fileDay ∧ f.fileDay ≤ wire16 (s.byteOrder p) b then
                { f with state := .accepted }
              else f))
      ∧ (∀ (w a b : Wire16) (present size : Byte) (text : List Byte), text.length = 16 →
        let refused (status : Status) : Prop :=
          exec (.placeHold p tag w a b present size text) s = .next (s.refuse p tag status)
        let bad : Prop :=
          (1023 < wire16 (s.byteOrder p) w ∧ wire16 (s.byteOrder p) w ≠ 65535)
            ∨ 49709 < wire16 (s.byteOrder p) a ∨ 49709 < wire16 (s.byteOrder p) b
            ∨ wire16 (s.byteOrder p) b < wire16 (s.byteOrder p) a ∨ 1 < present.toNat
            ∨ (present = 1 ∧ (16 < size.toNat ∨ ∃ c ∈ text.take size.toNat, c.toNat < 32 ∨ 126 < c.toNat))
        (bad → refused .badRequest)
          ∧ (¬bad → (∀ j : Fin 32, s.holds[j].active = true) → refused .noFreeHold)
          ∧ (¬bad → s.holds[k].active = false → 128 ≤ s.trail.entries.length → refused .trailFull))
      ∧ (s.holds[k].active = true → s.trail.entries.length < 128 →
        exec (.releaseHold p tag (BitVec.ofNat 8 k.val)) s = .next
          ({ s with
            holds := s.holds.set k {}
            trail := s.trail.append s.stamp .holdReleased (some p) (.index k.val) 0 }.reply p tag .ok .empty))
      ∧ (s.holds[k].active = true → 128 ≤ s.trail.entries.length →
        exec (.releaseHold p tag (BitVec.ofNat 8 k.val)) s = .next (s.refuse p tag .trailFull))
      ∧ (s.holds[k].active = false →
        exec (.releaseHold p tag (BitVec.ofNat 8 k.val)) s = .next (s.refuse p tag .wrongState))
      ∧ ∀ hold : Byte, 31 < hold.toNat → exec (.releaseHold p tag hold) s = .next (s.refuse p tag .badRequest)

/-- EXPIRE NOW (R96): refused CLOCK_UNSET while the clock is UNSET; otherwise it begins a pass at position 0, WALKING or,
while paused, PAUSED, or sets pass-again, and the reply says which. PAUSE EXPIRY (R101) sets paused; WALKING and
WAITING_TRAIL become PAUSED, and a waking not yet acted on is dropped (the field is the model's own, log entry 20). RESUME
EXPIRY of a pass that is not PAUSED only clears paused (R102). None appends a trail entry; each requires ADMIN. While
PAUSED no visit is made and trail room does not wake the pass (R101), and while paused a pin release makes no reclaim
(R104). -/
def Obligations.ExpiryControls : Prop :=
  ∀ (s : State) (p : PortId) (tag : Byte),
    (s.admits p tag → (s.roles p).admin = false →
        exec (.expireNow p tag) s = .next (s.refuse p tag .notPermitted)
          ∧ exec (.pauseExpiry p tag) s = .next (s.refuse p tag .notPermitted)
          ∧ exec (.resumeExpiry p tag) s = .next (s.refuse p tag .notPermitted))
      ∧ (s.admits p tag → (s.roles p).admin = true →
        (s.clock.state = .unset → exec (.expireNow p tag) s = .next (s.refuse p tag .clockUnset))
          ∧ (s.clock.state ≠ .unset → s.pass.state = .idle → exec (.expireNow p tag) s = .next
            ({ s with
              pass :=
                { state := if s.pass.paused then .paused else .walking, position := 0, paused := s.pass.paused,
                  again := false } }.reply p tag .ok (.expireOutcome false)))
          ∧ (s.clock.state ≠ .unset → s.pass.state ≠ .idle → exec (.expireNow p tag) s = .next
            ({ s with pass := { s.pass with again := true } }.reply p tag .ok (.expireOutcome true)))
          ∧ exec (.pauseExpiry p tag) s = .next
            ({ s with
              pass := { s.pass with
                paused := true, state := if s.pass.state = PassState.idle then .idle else .paused }
              passWoken := false }.reply p tag .ok .empty)
          ∧ (s.pass.state ≠ .paused → exec (.resumeExpiry p tag) s = .next
            ({ s with pass := { s.pass with paused := false } }.reply p tag .ok .empty)))
      ∧ (s.pass.state = .paused → exec .passVisit s = .next s ∧ exec .passTrailRetry s = .next s)
      ∧ (s.pass.paused = true → ∀ i, s.pinReleased i = s)

/-- The visit of the pass at its position (R91, R97 to R100). A free entry, an INGESTING or a DISPUTED file, an ACCEPTED
file not due and an EXPIRING file with pins are passed over; a due ACCEPTED file with pins is marked EXPIRING; a due
file without pins is reclaimed behind its FILE_EXPIRED entry, or with the trail full stands EXPIRING while the pass waits
at its index; an EXPIRING file no longer due returns to ACCEPTED. PASS_VISIT makes it in WALKING, RESUME EXPIRY in PAUSED,
and PASS_TRAIL_RETRY in WAITING_TRAIL when entries have left the trail since the wait began; until then the pass waits on
(R99; the mark of the waking is the model's own, log entries 20 and 26). The position rises by 1; behind index 131,071
the pass ends, or begins anew if pass-again stands. Nothing else changes. -/
def Obligations.PassVisitsIndex : Prop :=
  ∀ (s t : State),
    let i := s.pass.position
    let step (q : PassState) (again : Bool) : Prop :=
      (s.pass.state = .walking → exec .passVisit s = .next { t with pass := { s.pass with
          state := q, position := if q = .waitingTrail then i else if i < 131071 then i + 1 else 0, again } })
        ∧ (s.pass.state = .waitingTrail → s.passWoken = true → exec .passTrailRetry s = .next
          { t with
            passWoken := false
            pass := { s.pass with
              state := q, position := if q = .waitingTrail then i else if i < 131071 then i + 1 else 0, again } })
        ∧ (s.pass.state = .paused → ∀ p tag, s.admits p tag → (s.roles p).admin = true →
          exec (.resumeExpiry p tag) s = .next ({ t with pass := { s.pass with
            state := if q = PassState.paused then .walking else q
            position := if q = PassState.waitingTrail then i else if i < 131071 then i + 1 else 0, again
            paused := false } }.reply p tag .ok .empty))
    let onward : Prop :=
      step (if i < 131071 then .walking else if s.pass.again then (if s.pass.paused then .paused else .walking)
        else .idle) (if i < 131071 then s.pass.again else false)
    let due (f : File) : Prop :=
      s.clock.state ≠ .unset ∧ s.retentionOf f.retentionClass ≠ 0
        ∧ f.fileDay + s.retentionOf f.retentionClass ≤ s.clock.value / 86400
        ∧ (∀ k : Fin 32, ¬(s.holds[k].active = true
            ∧ (s.holds[k].selector = none ∨ s.holds[k].selector = some f.switchId)
            ∧ s.holds[k].firstDay ≤ f.fileDay ∧ f.fileDay ≤ s.holds[k].lastDay))
        ∧ (f.suspectCount = 0 ∨ f.lossAccepted = true)
    s.powered = true →
    (s.pass.state = .waitingTrail → s.passWoken = false → exec .passTrailRetry s = .next s)
      ∧ (s.file i = none → t = s → onward)
      ∧ ∀ f, s.file i = some f →
        (f.state = .ingesting ∨ f.state = .disputed ∨ (f.state = .accepted ∧ ¬due f)
            ∨ (f.state = .expiring ∧ f.pinCount ≠ 0) → t = s → onward)
          ∧ (f.state = .accepted → due f → f.pinCount ≠ 0 →
            t = { s with files := Sparse.set none i (some { f with state := .expiring }) s.files } → onward)
          ∧ (f.state = .expiring → f.pinCount = 0 → ¬due f →
            t = { s with files := Sparse.set none i (some { f with state := .accepted }) s.files } → onward)
          ∧ (f.state = .expiring → f.pinCount = 0 → due f → s.trail.entries.length < 128 →
            t = ({ s with
              trail := s.trail.append s.stamp .fileExpired none (.file f.switchId f.sequence i {}) f.recordCount
              }.releaseFile i f) → onward)
          ∧ (f.state = .accepted → f.pinCount = 0 → due f → s.trail.entries.length < 128 →
            t = ({ s with
              files := Sparse.set none i (some { f with state := .expiring }) s.files
              trail := s.trail.append s.stamp .fileExpired none (.file f.switchId f.sequence i {}) f.recordCount
              }.releaseFile i { f with state := .expiring }) → onward)
          ∧ ((f.state = .accepted ∨ f.state = .expiring) → f.pinCount = 0 → due f → 128 ≤ s.trail.entries.length →
            t = { s with
              files := if f.state = .accepted then Sparse.set none i (some { f with state := .expiring }) s.files
                else s.files } →
            step .waitingTrail s.pass.again)

/-- CLEAR DISPUTE (R105) and ACCEPT LOSS (R106): their refusals in order; otherwise the trail entry naming the file with
the requesting port and the record count is appended and the file is changed as the rule gives, in one step; a loss
already accepted is answered OK and nothing changes. Nothing else changes. -/
def Obligations.DisputesAndLossesSettled : Prop :=
  ∀ (s : State) (p : PortId) (tag : Byte) (w q : Wire16),
    s.admits p tag →
    let wn := wire16 (s.byteOrder p) w
    let qn := wire16 (s.byteOrder p) q
    ((s.roles p).admin = false → exec (.clearDispute p tag w q) s = .next (s.refuse p tag .notPermitted)
        ∧ exec (.acceptLoss p tag w q) s = .next (s.refuse p tag .notPermitted))
      ∧ ((s.roles p).admin = true →
        (1023 < wn → exec (.clearDispute p tag w q) s = .next (s.refuse p tag .badRequest)
            ∧ exec (.acceptLoss p tag w q) s = .next (s.refuse p tag .badRequest))
          ∧ (wn ≤ 1023 → s.findFile wn qn = none →
            exec (.clearDispute p tag w q) s = .next (s.refuse p tag .noFile)
              ∧ exec (.acceptLoss p tag w q) s = .next (s.refuse p tag .noFile))
          ∧ ∀ i f, wn ≤ 1023 → s.findFile wn qn = some (i, f) → s.file i = some f →
            (f.state ≠ .disputed → exec (.clearDispute p tag w q) s = .next (s.refuse p tag .wrongState))
              ∧ (f.state = .disputed → 128 ≤ s.trail.entries.length →
                exec (.clearDispute p tag w q) s = .next (s.refuse p tag .trailFull))
              ∧ (f.state = .disputed → s.trail.entries.length < 128 → exec (.clearDispute p tag w q) s = .next
                ({ s with
                  trail := s.trail.append s.stamp .disputeCleared (some p) (.file f.switchId f.sequence i {})
                    f.recordCount
                  files := Sparse.set none i (some { f with state := .accepted, reasons := {} }) s.files }.reply p tag
                  .ok .empty))
              ∧ (f.state = .ingesting → exec (.acceptLoss p tag w q) s = .next (s.refuse p tag .wrongState))
              ∧ (f.state ≠ .ingesting → f.lossAccepted = true →
                exec (.acceptLoss p tag w q) s = .next (s.reply p tag .ok .empty))
              ∧ (f.state ≠ .ingesting → f.lossAccepted = false → 128 ≤ s.trail.entries.length →
                exec (.acceptLoss p tag w q) s = .next (s.refuse p tag .trailFull))
              ∧ (f.state ≠ .ingesting → f.lossAccepted = false → s.trail.entries.length < 128 →
                exec (.acceptLoss p tag w q) s = .next
                  ({ s with
                    trail := s.trail.append s.stamp .lossAccepted (some p) (.file f.switchId f.sequence i {})
                      f.recordCount
                    files := Sparse.set none i (some { f with lossAccepted := true }) s.files }.reply p tag
                    .ok .empty)))

/-! ## Audit sweep, findings and trail -/

/-- SET SWEEP SETTINGS clamps its values and answers with them (R108); START SWEEP in STOPPED or FROZEN loads the window
and enters ACTIVE and is otherwise refused STATE (R119); STOP SWEEP stops the sweep and its rest in every state (R120);
RESTART SWEEP sets the position to 0, marks every SUSPECT segment unreported, and keeps a visit in flight from moving the
position (R122). Nothing else changes: that the look which follows START SWEEP is the step SWEEP_LOOK is the model's
reading (log entry 5), and the mark of a visit restarted is the model's own field (log entry 20). -/
def Obligations.SweepControls : Prop :=
  ∀ (s : State) (p : PortId) (tag : Byte),
    s.admits p tag → (s.roles p).audit = true →
    (∀ (w r : Wire16) (f : Byte), f = 0 ∨ f = 1 →
        let window := max 1 (min (wire16 (s.byteOrder p) w) 4096)
        let rest := min (wire16 (s.byteOrder p) r) 3600
        exec (.setSweepSettings p tag w r f) s = .next
          ({ s with settings := { s.settings with window, rest, freeze := f = 1 } }.reply p tag .ok
            (.sweepSettings window rest (f = 1))))
      ∧ (∀ (w r : Wire16) (f : Byte), f ≠ 0 → f ≠ 1 →
        exec (.setSweepSettings p tag w r f) s = .next (s.refuse p tag .badRequest))
      ∧ ((s.sweep.state = .stopped ∨ s.sweep.state = .frozen) → exec (.startSweep p tag) s = .next
        ({ s with sweep := { s.sweep with state := .active, visitsLeft := s.settings.window } }.reply p tag .ok .empty))
      ∧ ((s.sweep.state = .active ∨ s.sweep.state = .resting ∨ s.sweep.state = .waitingLog) →
        exec (.startSweep p tag) s = .next (s.refuse p tag .wrongState))
      ∧ exec (.stopSweep p tag) s = .next
        ({ s with sweep := { s.sweep with state := .stopped, rest := .stopped } }.reply p tag .ok .empty)
      ∧ exec (.restartSweep p tag) s = .next
        ({ s with
          sweep := { s.sweep with
            position := 0, visit := s.sweep.visit.map (fun v : Visit => { v with restarted := true }) }
          segments := s.segments.map (fun e : Nat × Segment =>
            if e.2.state = SegmentState.suspect then (e.1, { e.2 with unreported := true }) else e) }.reply p tag .ok .empty)

/-- Looks and visits (R109, R110, R118, R121). An ACTIVE sweep passes over a FREE or FILLING segment; at a STORED or
SUSPECT one it begins a visit, reserving 3 places of the Finding Log, lowering visits left and asking for the read, or
enters WAITING_LOG with fewer than 3 places free; SWEEP_LOG_ROOM returns a WAITING_LOG sweep with room to ACTIVE, and it
looks likewise. The end of the rest loads a window; that its look is the step SWEEP_LOOK (log entry 5), and that a countdown
at 0 stands due until this step takes it (log entry 13), are the model's readings. STEP SWEEP is refused STATE while the
sweep runs or a visit is in flight, and otherwise finds the first such segment round from the position, raising the cycle count at a
return to 0, and its request stays outstanding; with none in the store it answers NONE. Nothing else changes. -/
def Obligations.SweepVisitsBegin : Prop :=
  ∀ (s : State) (n : Nat) (kind : VisitKind),
    s.powered = true → s.sweep.visit = none → s.sweep.reserved = 0 → s.storePort.sweep = none →
    let visitable (k : Nat) : Prop := (s.segment k).state = .stored ∨ (s.segment k).state = .suspect
    let begun (w : Sweep) : State :=
      { s with
        sweep := { w with
          state := if kind = .paced then .active else w.state
          visitsLeft := if kind = .paced then w.visitsLeft - 1 else w.visitsLeft
          reserved := 3
          visit := some { segment := n, allocation := (s.segment n).allocation, fileIndex := (s.segment n).fileIndex,
                          kind } }
        storePort :=
          if s.storePort.current = none then { s.storePort with current := some (.sweep n) }
          else { s.storePort with sweep := some n } }
    (s.storePort.current = none → s.storePort.writes = [] ∧ s.storePort.reads = []) →
    (s.sweep.state = .active → 0 < s.sweep.visitsLeft → s.sweep.position = n →
        (¬visitable n → exec .sweepLook s = .next
            { s with
              sweep := { s.sweep with
                position := if n < 262143 then n + 1 else 0
                cycles := if n < 262143 then s.sweep.cycles else (s.sweep.cycles + 1) % 4294967296 } })
          ∧ (visitable n → s.findings.length ≤ 29 → kind = .paced → exec .sweepLook s = .next (begun s.sweep))
          ∧ (visitable n → 29 < s.findings.length →
            exec .sweepLook s = .next { s with sweep := { s.sweep with state := .waitingLog } }))
      ∧ (s.sweep.state = .waitingLog → 0 < s.sweep.visitsLeft → s.sweep.position = n → visitable n →
        s.findings.length ≤ 29 → kind = .paced → exec .sweepLogRoom s = .next (begun s.sweep))
      ∧ (s.sweep.state = .waitingLog → 0 < s.sweep.visitsLeft → s.sweep.position = n → ¬visitable n →
        s.findings.length ≤ 29 → exec .sweepLogRoom s = .next
          { s with
            sweep := { s.sweep with
              state := .active, position := if n < 262143 then n + 1 else 0
              cycles := if n < 262143 then s.sweep.cycles else (s.sweep.cycles + 1) % 4294967296 } })
      ∧ (s.sweep.state = .waitingLog → 29 < s.findings.length → exec .sweepLogRoom s = .next s)
      ∧ (s.sweep.state = .resting → s.sweep.rest = .due → exec .sweepRestExpiry s = .next
        { s with sweep := { s.sweep with state := .active, visitsLeft := s.settings.window, rest := .stopped } })
      ∧ ∀ (p : PortId) (tag : Byte), s.admits p tag → (s.roles p).audit = true → kind = .step p tag →
        ((s.sweep.state = .active ∨ s.sweep.state = .resting ∨ s.sweep.state = .waitingLog) →
            exec (.stepSweep p tag) s = .next (s.refuse p tag .wrongState))
          ∧ (∀ v : Visit, let u : State := { s with sweep := { s.sweep with visit := some v } }
            exec (.stepSweep p tag) u = .next (u.refuse p tag .wrongState))
          ∧ ((s.sweep.state = .stopped ∨ s.sweep.state = .frozen) → 29 < s.findings.length →
            exec (.stepSweep p tag) s = .next (s.refuse p tag .logFull))
          ∧ ((s.sweep.state = .stopped ∨ s.sweep.state = .frozen) → s.findings.length ≤ 29 → s.canonical = true →
            s.sweep.position ≤ 262143 → n ≤ 262143 → visitable n →
            let outstanding : Vector PortState 4 := s.ports.set p
              { s.ports[p] with outstanding := s.ports[p].outstanding ++ [⟨tag, .stepping⟩] }
            (s.sweep.position ≤ n → (∀ k, s.sweep.position ≤ k → k < n → ¬visitable k) →
                exec (.stepSweep p tag) s = .next
                  { begun { s.sweep with position := n } with ports := outstanding })
              ∧ (n < s.sweep.position → (∀ k, k < n ∨ (s.sweep.position ≤ k ∧ k ≤ 262143) → ¬visitable k) →
                exec (.stepSweep p tag) s = .next
                  { begun { s.sweep with position := n, cycles := (s.sweep.cycles + 1) % 4294967296 } with
                    ports := outstanding }))
          ∧ ((s.sweep.state = .stopped ∨ s.sweep.state = .frozen) → s.findings.length ≤ 29 → s.canonical = true →
            s.sweep.position ≤ 262143 → (∀ k, k ≤ 262143 → ¬visitable k) →
            exec (.stepSweep p tag) s = .next
              ({ s with sweep := { s.sweep with cycles := (s.sweep.cycles + 1) % 4294967296 } }.reply p tag .ok
                (.stepped .none 0 0)))

/-- What the sweep's read finds (R112), and what a visit comes to (R111, R113 to R117, R121). A read error is READ_ERROR
alone. A completed read gives CHECK_MISMATCH, then MALFORMED, or in its place COUNT_MISMATCH and DURATION_MISMATCH, each
with its stored and found value; the header is held against catalogue and file entry. A header's duration sum is the found
value whole, above the bound of 6.6 too, which is the model's choice (log entry 38). The extent is clean exactly when the payload
has the check and decodes, its header is the one the catalogue gives, and the decoded durations add up. A stale result
changes nothing. A damaged STORED segment is SUSPECT, its file's suspect count rises, its findings are appended, and
QUARANTINE_SET if that count was 0; with the trail full that is owed and the segment unreported. A damaged SUSPECT segment
is reported whole if it is unreported and the trail has room, else not at all. A clean SUSPECT segment returns to STORED,
the last of its file behind QUARANTINE_CLEARED, for which it waits. The reservation is released, the position moves on
unless RESTART SWEEP came between, and pacing follows an ACTIVE sweep's paced visit; a STEP visit is answered, its request
still outstanding, with outcome, findings appended and segment. -/
def Obligations.SweepReadJudged : Prop :=
  (∀ (expected header : Header) (payload : List Byte),
      let g := expected.figures
      let h := header.figures
      let check := dualSumOf payload
      let found := judgeExtent expected header payload
      let mismatch : List (FindingKind × Option (Nat × Nat)) :=
        if check = g.check then [] else [(.checkMismatch, some (g.check, check))]
      let named : Prop :=
        header.segment = expected.segment ∧ header.allocation = expected.allocation ∧ header.fileIndex = expected.fileIndex
          ∧ header.ordinal = expected.ordinal ∧ header.switchId = expected.switchId
          ∧ header.sequence = expected.sequence ∧ h.baseTime = g.baseTime ∧ h.encodedLength = g.encodedLength
          ∧ h.check = g.check
      (found = [] ↔
          check = g.check ∧ header = expected
            ∧ ∃ rs, decodePayload g payload = some rs ∧ (rs.map CallRecord.duration).sum = g.durationSum)
        ∧ ((decodePayload g payload = none ∨ ¬named) → found = mismatch ++ [(.malformed, none)])
        ∧ ∀ rs, decodePayload g payload = some rs → named →
          let sum := (rs.map CallRecord.duration).sum
          found = mismatch
            ++ (if h.recordCount = g.recordCount then [] else [(.countMismatch, some (g.recordCount, h.recordCount))])
            ++ (if sum ≠ g.durationSum then [(.durationMismatch, some (g.durationSum, sum))]
              else if h.durationSum ≠ g.durationSum then [(.durationMismatch, some (g.durationSum, h.durationSum))]
              else []))
    ∧ (∀ (s : State) (n : Nat) (f : File), s.file (s.segment n).fileIndex = some f →
      let e := s.segment n
      s.judge n .error = [(.readError, none)]
        ∧ ∀ altered : List (Nat × Byte),
          let delivered (offset : Nat) : Byte := (altered.lookup offset).getD (s.storeByte (n * 1048576 + offset))
          s.judge n (.complete altered) = judgeExtent
            { segment := n, allocation := e.allocation, ordinal := e.ordinal, fileIndex := e.fileIndex,
              switchId := f.switchId, sequence := f.sequence, figures := e.figures }
            (readHeader ((List.range 64).map delivered))
            ((List.range e.figures.encodedLength).map (fun k => delivered (64 + k))))
    ∧ ∀ (s : State) (n i : Nat) (v : Visit) (f : File) (report : ReadReport)
        (found : List (FindingKind × Option (Nat × Nat))),
      s.powered = true → s.storePort.current = some (.sweep n) → n ≤ 262143 → s.sweep.visit = some v →
      v.segment = n → v.fileIndex = i → s.file i = some f → s.judge n report = found →
      let e := s.segment n
      let moved : Sweep :=
        { s.sweep with
          visit := none, reserved := 0
          position := if v.restarted then s.sweep.position else if n < 262143 then n + 1 else 0
          cycles := if v.restarted ∨ n < 262143 then s.sweep.cycles else (s.sweep.cycles + 1) % 4294967296 }
      let paced (appended : Nat) : Sweep :=
        if s.sweep.state ≠ .active then moved
        else if s.settings.freeze = true ∧ 0 < appended then { moved with state := .frozen }
        else if s.sweep.visitsLeft ≠ 0 then moved
        else if s.settings.rest = 0 then { moved with visitsLeft := s.settings.window }
        else { moved with state := .resting, rest := .running s.settings.rest }
      let ends (t : State) (outcome : StepOutcome) (appended : Nat) : Prop :=
        (v.kind = .paced →
            exec (.sweepReadComplete report) s = .next { t with sweep := paced appended }.endStore)
          ∧ ∀ p tag, v.kind = .step p tag →
            ((∃ o ∈ s.ports[p].outstanding, o.tag = tag ∧ o.standing = .stepping) →
                exec (.sweepReadComplete report) s = .next
                  (State.reply
                    { t with
                      sweep := moved
                      ports := s.ports.set p
                        { s.ports[p] with
                          outstanding := s.ports[p].outstanding.filter (fun o => o.tag ≠ tag) } }
                    p tag .ok (.stepped outcome appended n)).endStore)
              ∧ ((∀ o ∈ s.ports[p].outstanding, ¬(o.tag = tag ∧ o.standing = .stepping)) →
                exec (.sweepReadComplete report) s = .next { t with sweep := moved }.endStore)
      let findings := s.findings ++ found.map (fun k =>
        { kind := k.1, source := .sweep, segment := n, fileIndex := i, switchId := f.switchId, sequence := f.sequence,
          clock := s.stamp, values := k.2 })
      let quarantine (kind : TrailKind) : Trail :=
        s.trail.append s.stamp kind none (.file f.switchId f.sequence i {}) f.recordCount
      let fresh : Prop := e.allocation = v.allocation ∧ e.fileIndex = i
      let room : Prop := s.trail.entries.length < 128
      let owed : Prop := f.suspectCount = 0
      (((e.state = .free ∨ e.state = .filling) ∨ ¬fresh) → ends s .discarded 0)
        ∧ (fresh → e.state = .stored → found = [] → ends s .clean 0)
        ∧ (fresh → e.state = .stored → found ≠ [] → ends
          { s with
            findings
            trail := if owed ∧ s.trail.entries.length < 128 then quarantine .quarantineSet else s.trail
            segments := Sparse.set {} n
              { e with state := .suspect, unreported := decide (owed ∧ 128 ≤ s.trail.entries.length) } s.segments
            files := Sparse.set none i (some { f with suspectCount := f.suspectCount + 1 }) s.files }
          .damaged found.length)
        ∧ (fresh → e.state = .suspect → found ≠ [] → e.unreported = true → room → ends
          { s with
            findings, trail := quarantine .quarantineSet
            segments := Sparse.set {} n { e with unreported := false } s.segments }
          .damaged found.length)
        ∧ (fresh → e.state = .suspect → found ≠ [] → (e.unreported = false ∨ ¬room) → ends s .damaged 0)
        ∧ (fresh → e.state = .suspect → found = [] →
          let returned (trail : Trail) : State :=
            { s with
              trail
              segments := Sparse.set {} n { e with state := .stored, unreported := false } s.segments
              files := Sparse.set none i (some { f with suspectCount := f.suspectCount - 1 }) s.files }
          (1 < f.suspectCount → ends (returned s.trail) .clean 0)
            ∧ (f.suspectCount = 1 → room → ends (returned (quarantine .quarantineCleared)) .clean 0)
            ∧ (f.suspectCount = 1 → ¬room → ends s .clean 0))

/-- FETCH FINDINGS answers with the oldest findings, up to 16, and removes them (R124); a WAITING_LOG sweep then acts
within the step as SWEEP_LOG_ROOM does on the shorter log (R110), which begins its visit when 3 places are free (the
statement on looks); FETCH TRAIL answers with copies of
the oldest trail entries, up to 16, the number held and the base chain value, and changes nothing (R130); ACK TRAIL of a
held sequence removes the entries up to and including it by their place, and the base chain value is that of the last
one removed (R131); of any other sequence it is refused BAD_SEQUENCE. Nothing else changes. That the producers waiting for
the freed room act in their own retry steps, a waiting pass being only marked as woken, is the model's reading (log
entries 5 and 26). -/
def Obligations.LogsFetchedInOrder : Prop :=
  ∀ (s : State) (p : PortId) (tag : Byte) (q : Wire32),
    s.admits p tag → (s.roles p).audit = true →
    (s.sweep.state ≠ .waitingLog → exec (.fetchFindings p tag) s = .next
        ({ s with findings := s.findings.drop 16 }.reply p tag .ok
          (.findings (s.findings.take 16) (s.findings.length - 16))))
      ∧ (s.sweep.state = .waitingLog → ∃ t,
        exec .sweepLogRoom { s with findings := s.findings.drop 16 } = .next t
          ∧ exec (.fetchFindings p tag) s = .next
            (t.reply p tag .ok (.findings (s.findings.take 16) (s.findings.length - 16))))
      ∧ exec (.fetchTrail p tag) s = .next
        (s.reply p tag .ok (.trail (s.trail.entries.take 16) s.trail.entries.length s.trail.baseChain))
      ∧ (∀ (removed kept : List TrailEntry) (e : TrailEntry), s.trail.entries = removed ++ e :: kept →
        e.sequence = wire32 (s.byteOrder p) q → (∀ d ∈ removed, d.sequence ≠ wire32 (s.byteOrder p) q) →
        exec (.ackTrail p tag q) s = .next
          ({ s with
            trail := { s.trail with entries := kept, baseChain := e.chain }
            passWoken := s.passWoken || decide (s.pass.state = PassState.waitingTrail) }.reply p tag .ok
            (.acknowledged (removed.length + 1) kept.length)))
      ∧ ((∀ e ∈ s.trail.entries, e.sequence ≠ wire32 (s.byteOrder p) q) →
        exec (.ackTrail p tag q) s = .next (s.refuse p tag .badSequence))

/-! ## Retrieval cursors -/

/-- OPEN CURSOR of an ACCEPTED or DISPUTED file pins it and opens the lowest cursor FREE and unreserved at the starting
ordinal, which is 0 when absent; its place is found by the segments' record counts, and beyond the end the cursor is at
end (R16, R135, R136). Its refusals come in the order of R135. The pin request is answered in the step that asks it, or
stays outstanding with its cursor and is answered in its turn when no command and no reply waits: which of the two, and
when, is the model's choice (log entry 31). A cursor is freed by CLOSE CURSOR (R143) and by its idle expiry (R142): it takes
the FREE values, its file's pin count falls by 1, a read of it that waits at the Store Port is withdrawn, and one in
progress runs to its end with its report to be discarded (R144). The last unpin of an EXPIRING file, while not
paused, makes the reclaim step (R98, R104): the file is reclaimed behind its FILE_EXPIRED entry if it is still due, stays
EXPIRING if it is due and the trail is full, and returns to ACCEPTED otherwise. FETCH RECORDS and CLOSE CURSOR are refused
BAD_REQUEST above 15 and NO_CURSOR for a cursor that is not OPEN for the port (R137, R143); while an earlier request of the
port that names the cursor is unanswered, a fetch until its reply is sent (log entry 36), they are held, untaken and
unjudged (R156). Nothing else changes. -/
def Obligations.CursorsPinTheirFile : Prop :=
  let opened (u : State) (p : PortId) (c : CursorId) (i : Nat) (f : File) (segment : Option Nat) (within next : Nat) :
      State :=
    { u with
      files := Sparse.set none i (some { f with pinCount := f.pinCount + 1 }) u.files
      cursors := u.cursors.set c
        { isOpen := true, owner := some p, fileIndex := some i, segment, within, nextOrdinal := next
          idle := .running (10 * (u.settings.ports[p].cursorTimeout + 1)) } }
  let answered (u : State) (p : PortId) (tag : Byte) (rest : List Opening) : State :=
    { u with
      openings := rest
      ports := u.ports.set p
        { u.ports[p] with outstanding := u.ports[p].outstanding.filter (fun o => o.tag ≠ tag) } }
  (∀ (s : State) (p : PortId) (c : CursorId) (i : Nat) (f : File),
    s.powered = true → s.file i = some f →
    (∀ (tag : Byte) (w q : Wire16) (present : Byte) (start : Wire32) (n : Nat),
        s.admits p tag → (s.roles p).retrieve = true → wire16 (s.byteOrder p) w ≤ 1023 →
        ((present = 0 ∧ n = 0) ∨ (present = 1 ∧ n = wire32 (s.byteOrder p) start ∧ n ≤ 16777215)) →
        s.findFile (wire16 (s.byteOrder p) w) (wire16 (s.byteOrder p) q) = some (i, f) →
        (f.state = .accepted ∨ f.state = .disputed) → s.cursorOpenable c → (∀ d : CursorId, d < c → ¬s.cursorOpenable d) →
        (s.catalogueBusy = false → s.openings = [] →
            (∀ k m, locate s.segments (s.chain f) n = some (k, m) →
                exec (.openCursor p tag w q present start) s = .next
                  ((opened s p c i f (some k) m n).reply p tag .ok
                    (.cursorOpened c f.state f.rounding i f.recordCount n)))
              ∧ (locate s.segments (s.chain f) n = none →
                exec (.openCursor p tag w q present start) s = .next
                  ((opened s p c i f none 0 f.recordCount).reply p tag .ok
                    (.cursorOpened c f.state f.rounding i f.recordCount f.recordCount))))
          ∧ ((s.catalogueBusy = true ∨ s.openings ≠ []) →
            let b : OpeningCursor :=
              { switchId := wire16 (s.byteOrder p) w, sequence := wire16 (s.byteOrder p) q, start := n, cursor := c }
            exec (.openCursor p tag w q present start) s = .next
              { s with
                openings := s.openings ++ [⟨p, some tag, .cursor b⟩]
                ports := s.ports.set p
                  { s.ports[p] with outstanding := s.ports[p].outstanding ++ [⟨tag, .opening⟩] } }))
      ∧ (∀ (tag : Byte) (b : OpeningCursor) (rest : List Opening),
        s.pending = [] → (∀ o : PortId, s.ports[o].unsent = []) → s.openings = ⟨p, some tag, .cursor b⟩ :: rest →
        ⟨tag, .opening⟩ ∈ s.ports[p].outstanding →
        b.cursor = c → s.cursors[c].isOpen = false → s.findFile b.switchId b.sequence = some (i, f) →
        ((f.state = .accepted ∨ f.state = .disputed) →
            (∀ k m, locate s.segments (s.chain f) b.start = some (k, m) →
                step s = .next ((opened (answered s p tag rest) p c i f (some k) m b.start).reply p tag .ok
                  (.cursorOpened c f.state f.rounding i f.recordCount b.start)))
              ∧ (locate s.segments (s.chain f) b.start = none →
                step s = .next ((opened (answered s p tag rest) p c i f none 0 f.recordCount).reply p tag .ok
                  (.cursorOpened c f.state f.rounding i f.recordCount f.recordCount))))
          ∧ (f.state = .ingesting → step s = .next ((answered s p tag rest).refuse p tag .fileNotReady))
          ∧ (f.state = .expiring → step s = .next ((answered s p tag rest).refuse p tag .fileExpiring)))
      ∧ (s.cursors[c].isOpen = true → s.cursors[c].owner = some p → s.cursors[c].fileIndex = some i →
        f.pinCount ≠ 0 →
        let unpinned : State :=
          { s with
            cursors := s.cursors.set c {}
            storePort :=
              { s.storePort with
                reads := s.storePort.reads.filter (fun r => r.1 ≠ c)
                current := match s.storePort.current with
                  | some (.read d n live) => some (.read d n (if d = c then false else live))
                  | other => other }
            files := Sparse.set none i (some { f with pinCount := f.pinCount - 1 }) s.files }
        let reclaimed : State :=
          { unpinned with
            trail := s.trail.append s.stamp .fileExpired none (.file f.switchId f.sequence i {}) f.recordCount
            }.releaseFile i { f with pinCount := 0 }
        (f.state ≠ .expiring ∨ f.pinCount ≠ 1 ∨ s.pass.paused = true →
            (s.cursors[c].idle = .due → exec (.cursorIdleExpiry c) s = .next unpinned)
              ∧ ∀ tag, s.admits p tag → (s.roles p).retrieve = true → s.cursorBusy p c = false →
                exec (.closeCursor p tag (BitVec.ofNat 8 c.val)) s = .next (unpinned.reply p tag .ok .empty))
          ∧ (∀ left : State,
            (f.state = .expiring ∧ f.pinCount = 1 ∧ s.pass.paused = false
              ∧ ((s.dueToExpire f = false ∧ left = { unpinned with
                    files := Sparse.set none i (some { f with pinCount := 0, state := .accepted }) unpinned.files })
                ∨ (s.dueToExpire f = true ∧ 128 ≤ s.trail.entries.length ∧ left = unpinned))) →
            (s.cursors[c].idle = .due → exec (.cursorIdleExpiry c) s = .next left)
              ∧ ∀ tag, s.admits p tag → (s.roles p).retrieve = true → s.cursorBusy p c = false →
                exec (.closeCursor p tag (BitVec.ofNat 8 c.val)) s = .next (left.reply p tag .ok .empty))
          ∧ (f.state = .expiring → f.pinCount = 1 → s.pass.paused = false → s.dueToExpire f = true →
            s.trail.entries.length < 128 →
            (s.cursors[c].idle = .due → exec (.cursorIdleExpiry c) s = .next reclaimed)
              ∧ ∀ tag, s.admits p tag → (s.roles p).retrieve = true → s.cursorBusy p c = false →
                exec (.closeCursor p tag (BitVec.ofNat 8 c.val)) s = .next (reclaimed.reply p tag .ok .empty))))
    ∧ (∀ (s : State) (p : PortId) (tag : Byte) (b : OpeningCursor) (rest : List Opening),
      s.pending = [] → s.powered = true → (∀ o : PortId, s.ports[o].unsent = []) →
      s.openings = ⟨p, some tag, .cursor b⟩ :: rest → ⟨tag, .opening⟩ ∈ s.ports[p].outstanding →
      s.findFile b.switchId b.sequence = none →
      step s = .next ((answered s p tag rest).refuse p tag .noFile))
    ∧ ∀ (s : State) (p : PortId) (tag : Byte) (w q count : Wire16) (present cursor : Byte) (start : Wire32),
      s.admits p tag →
      let wn := wire16 (s.byteOrder p) w
      let qn := wire16 (s.byteOrder p) q
      let startOk : Prop := present = 0 ∨ (present = 1 ∧ wire32 (s.byteOrder p) start ≤ 16777215)
      let refused (status : Status) : Prop :=
        exec (.openCursor p tag w q present start) s = .next (s.refuse p tag status)
      ((s.roles p).retrieve = true →
          ((1023 < wn ∨ ¬startOk) → refused .badRequest)
            ∧ (wn ≤ 1023 → startOk → ((s.catalogueBusy = false ∧ s.openings = []) ∨ ∀ c, ¬s.cursorOpenable c) →
              (s.findFile wn qn = none → refused .noFile)
                ∧ ∀ i f, s.findFile wn qn = some (i, f) →
                  (f.state = .ingesting → refused .fileNotReady)
                    ∧ (f.state = .expiring → refused .fileExpiring)
                    ∧ ((f.state = .accepted ∨ f.state = .disputed) → (∀ c, ¬s.cursorOpenable c) →
                      refused .noFreeCursor))
            ∧ (15 < cursor.toNat →
              exec (.fetchRecords p tag cursor count) s = .next (s.refuse p tag .badRequest)
                ∧ exec (.closeCursor p tag cursor) s = .next (s.refuse p tag .badRequest))
            ∧ ∀ c : CursorId, cursor = BitVec.ofNat 8 c.val → s.cursorBusy p c = false →
              (s.cursors[c].isOpen = false ∨ s.cursors[c].owner ≠ some p) →
              exec (.fetchRecords p tag cursor count) s = .next (s.refuse p tag .noCursor)
                ∧ exec (.closeCursor p tag cursor) s = .next (s.refuse p tag .noCursor))
        ∧ ∀ c : CursorId, cursor = BitVec.ofNat 8 c.val → (∃ o ∈ s.ports[p].outstanding, o.standing.cursor = some c) →
          let held (standing : Standing) : State :=
            { s with
              ports := s.ports.set p
                { s.ports[p] with outstanding := s.ports[p].outstanding ++ [⟨tag, standing⟩] } }
          exec (.fetchRecords p tag cursor count) s = .next (held (.heldFetch c (wire16 (s.byteOrder p) count)))
            ∧ exec (.closeCursor p tag cursor) s = .next (held (.heldClose c))

/-- FETCH RECORDS of an idle cursor of the port (R137, R138, R142): a count of 0 gathers nothing, and at end it is answered
END with no records; with a segment to enter it stays outstanding, its countdown stopped, and the read is asked for. From a loaded segment, at once or
when the read reports it clean, the records are delivered in file order up to the limit, each with its ordinal, its
billable seconds by the file's rounding mode and the segment's standing (R138, R140, R141). Past a segment's last record
the cursor stands in the next one, which is read in its turn, or at end, which answers END behind the records. A damaged
segment ends the fetch SEGMENT_DAMAGED behind the records gathered before, with the number of its records passed over, and
the cursor stands behind it (R139): a STORED one is marked SUSPECT, its finding appended if a place is free and
QUARANTINE_SET if the suspect count was 0 and the trail has room, unreported if one owed was not; a SUSPECT one keeps its
standing. The fetch ends when its reply is sent: then the countdown is loaded anew, with the timeout that stands then, and
a request held behind the fetch is taken next, in the same step (R137, R142, R156; that a fetch counts as answered only
then is the model's reading, log entry 36); the port's other requests stay. With the port's line free, the reply is sent in
the step that forms it. With the line busy it waits, its request outstanding and the fetch in progress, its countdown
stopped; it is sent when no command waits and no lower port has a reply waiting (log entry 31). The report of a read whose
fetch was abandoned is discarded: no finding, no marking and no trail entry (R144). Nothing else changes but for the next
store operation: the operation reported ends with the step that takes its report, so that a read this step
asks for competes for the store before a waiting sweep read, which is the model's choice (log entry 9). -/
def Obligations.FetchDeliversRecords : Prop :=
  (∀ (s : State) (p : PortId) (tag : Byte) (c : CursorId) (count : Wire16) (u : Cursor) (n i : Nat) (f : File),
    s.cursors[c] = u → u.isOpen = true → u.owner = some p → u.fileIndex = some i → s.file i = some f →
    let g := (s.segment n).figures
    let countdown : Countdown := .running (10 * (s.settings.ports[p].cursorTimeout + 1))
    let rem := g.recordCount - u.within
    let after (rs : List CallRecord) (room : Nat) : Cursor :=
      if room < rem then { u with loaded := some rs, within := u.within + room, nextOrdinal := u.nextOrdinal + room }
      else
        { u with
          segment := (s.segment n).next, within := 0, loaded := none, nextOrdinal := u.nextOrdinal + rem }
    let delivered (rs : List CallRecord) (room : Nat) : List Delivered :=
      ((rs.drop u.within).take room).mapIdx (fun k r =>
        let seconds := match f.rounding with
          | .truncate => r.duration / 10
          | .up => (r.duration + 9) / 10
          | .nearest => (r.duration + 5) / 10
        { ordinal := u.nextOrdinal + k, record := r, billable := min seconds 1048575,
          suspect := (s.segment n).state = .suspect, billableClamped := 1048575 < seconds })
    let ending (v : Cursor) : Status := if v.segment = none then .atEnd else .ok
    let entering (m : Nat) : Option CursorRead :=
      some { segment := m, allocation := (s.segment m).allocation, reading := false }
    (s.admits p tag → (s.roles p).retrieve = true → s.cursorBusy p c = false →
        let fetch := Instr.fetchRecords p tag (BitVec.ofNat 8 c.val) count
        let limit := min (wire16 (s.byteOrder p) count) 64
        let starts (v : Cursor) (gathered : List Delivered) (m : Nat) : State :=
          { s with
            ports := s.ports.set p
              { s.ports[p] with outstanding := s.ports[p].outstanding ++ [⟨tag, .fetching c⟩] }
            cursors := s.cursors.set c
              { v with
                idle := .stopped, fetch := some { tag, limit, gathered }
                read := some { segment := m, allocation := (s.segment m).allocation, reading := true } }
            storePort := { s.storePort with current := some (.read c m true) } }
        let storeIdle : Prop := s.storePort.current = none ∧ s.storePort.writes = [] ∧ s.storePort.reads = []
        let asks (v : Cursor) (gathered : List Delivered) (m : Nat) : State :=
          { s with
            ports := s.ports.set p
              { s.ports[p] with outstanding := s.ports[p].outstanding ++ [⟨tag, .fetching c⟩] }
            cursors := s.cursors.set c
              { v with idle := .stopped, fetch := some { tag, limit, gathered }, read := entering m }
            storePort := { s.storePort with reads := s.storePort.reads ++ [(c, m)] } }
        let ends (v : Cursor) (gathered : List Delivered) : Prop :=
          (s.ports[p].lineBusy = false → exec fetch s = .next
              ({ s with cursors := s.cursors.set c { v with fetch := none, idle := countdown } }.reply p tag (ending v)
                (.records gathered 0 v.nextOrdinal)))
            ∧ (s.ports[p].lineBusy = true → exec fetch s = .next
              { s with
                ports := s.ports.set p
                  { s.ports[p] with
                    outstanding := s.ports[p].outstanding ++ [⟨tag, .delivering c⟩]
                    unsent := s.ports[p].unsent
                      ++ [⟨p, tag, ending v, s.byteOrder p, .records gathered 0 v.nextOrdinal⟩] }
                cursors := s.cursors.set c { v with idle := .stopped, fetch := some { tag, limit, gathered } } })
        ((limit = 0 ∨ u.segment = none) → ends u [])
          ∧ (1 ≤ limit → u.segment = some n → u.loaded = none → s.storePort.current.isSome = true →
            exec fetch s = .next (asks u [] n))
          ∧ (1 ≤ limit → u.segment = some n → u.loaded = none → storeIdle → exec fetch s = .next (starts u [] n))
          ∧ ∀ rs, u.segment = some n → u.loaded = some rs → rs.length = g.recordCount → u.within < g.recordCount →
            let v := after rs limit
            ((limit ≤ rem ∨ (s.segment n).next = none) → ends v (delivered rs limit))
              ∧ ∀ m, rem < limit → (s.segment n).next = some m →
                (s.storePort.current.isSome = true → exec fetch s = .next (asks v (delivered rs limit) m))
                  ∧ (storeIdle → exec fetch s = .next (starts v (delivered rs limit) m)))
      ∧ (∀ before behind : List Outstanding,
        s.pending = [] → s.powered = true → s.ports[p].unsent ≠ [] → (∀ o : PortId, o < p → s.ports[o].unsent = []) →
        s.ports[p].outstanding = before ++ ⟨tag, .delivering c⟩ :: behind →
        (∀ o ∈ before ++ behind, ∀ d, o.standing ≠ .delivering d) →
        let left := (before ++ behind).filter (fun o => o.standing ≠ .answered)
        let sent (left : List Outstanding) : State :=
          { s with
            replies := s.replies ++ s.ports[p].unsent
            ports := s.ports.set p { s.ports[p] with outstanding := left, unsent := [] }
            cursors := s.cursors.set c { u with fetch := none, idle := countdown } }
        ((∀ o ∈ left, o.standing.cursor ≠ some c) → step s = .next (sent left))
          ∧ ∀ (tag' : Byte) (count' : Wire16) (standing : Standing) (request : Instr),
            ⟨tag', standing⟩ ∈ left → left.length ≤ 8 →
            (∀ o ∈ left, o.standing.cursor = some c → o = ⟨tag', standing⟩) →
            ((standing = .heldFetch c (wire16 (s.byteOrder p) count')
                ∧ request = .fetchRecords p tag' (BitVec.ofNat 8 c.val) count')
              ∨ (standing = .heldClose c ∧ request = .closeCursor p tag' (BitVec.ofNat 8 c.val))) →
            (s.roles p).retrieve = true → s.ports[p].up = true → s.controller = .ready → s.resetLow = false →
            ∃ t, exec request (sent (left.filter (fun o => o.tag ≠ tag'))) = .next t ∧ step s = .next t)
      ∧ ∀ (report : ReadReport) (limit : Nat) (gs : List Delivered) (read : CursorRead) (os : List Outstanding),
        s.ports[p].outstanding = os → ⟨tag, .fetching c⟩ ∈ os → os.length ≤ 8 →
        s.powered = true → s.storePort.current = some (.read c n true) → n ≤ 262143 → u.segment = some n →
        u.read = some read → read.segment = n → u.fetch = some ⟨tag, limit, gs⟩ →
        let answered (left : List Outstanding) (base : State) (v : Cursor) (status : Status) (records : List Delivered)
            (skipped : Nat) : State :=
          { base with
            ports := s.ports.set p { s.ports[p] with outstanding := left }
            cursors := s.cursors.set c { v with fetch := none, read := none, idle := countdown }
            }.reply p tag status (.records records skipped v.nextOrdinal)
        let ends (base : State) (v : Cursor) (status : Status) (records : List Delivered) (skipped : Nat) : Prop :=
          (s.ports[p].lineBusy = true → exec (.retrievalReadComplete report) s = .next (State.endStore
              { base with
                ports := s.ports.set p
                  { s.ports[p] with
                    outstanding := os.map (fun o => if o.tag = tag then ⟨tag, .delivering c⟩ else o)
                    unsent := s.ports[p].unsent
                      ++ [⟨p, tag, status, s.byteOrder p, .records records skipped v.nextOrdinal⟩] }
                cursors := s.cursors.set c { v with fetch := some ⟨tag, limit, records⟩, read := none } }))
            ∧ (s.ports[p].lineBusy = false → (∀ o ∈ os, o.standing.cursor = some c → o.tag = tag) →
              exec (.retrievalReadComplete report) s = .next
                (answered (os.filter (fun o => o.tag ≠ tag)) base v status records skipped).endStore)
            ∧ ∀ (tag' : Byte) (count' : Wire16) (standing : Standing) (request : Instr),
              s.ports[p].lineBusy = false → ⟨tag', standing⟩ ∈ os → tag' ≠ tag →
              (∀ o ∈ os, o.standing.cursor = some c → o.tag = tag ∨ o = ⟨tag', standing⟩) →
              ((standing = .heldFetch c (wire16 (s.byteOrder p) count')
                  ∧ request = .fetchRecords p tag' (BitVec.ofNat 8 c.val) count')
                ∨ (standing = .heldClose c ∧ request = .closeCursor p tag' (BitVec.ofNat 8 c.val))) →
              (s.roles p).retrieve = true → s.ports[p].up = true → s.controller = .ready → s.resetLow = false →
              ∃ t, exec request (answered (os.filter (fun o => o.tag ≠ tag ∧ o.tag ≠ tag')) base v status records skipped)
                  = .next t ∧ exec (.retrievalReadComplete report) s = .next t.endStore
        let payload (altered : List (Nat × Byte)) := s.deliveredBytes n altered 64 g.encodedLength
        (∀ altered rs, report = .complete altered → dualSumOf (payload altered) = g.check →
            decodePayload g (payload altered) = some rs → rs.length = g.recordCount → u.within < g.recordCount →
            let room := limit - gs.length
            let v := after rs room
            let got := gs ++ delivered rs room
            ((room ≤ rem ∨ (s.segment n).next = none) → ends s v (ending v) got 0)
              ∧ ∀ m, rem < room → (s.segment n).next = some m →
                exec (.retrievalReadComplete report) s = .next (State.endStore
                  { s with
                    cursors := s.cursors.set c
                      { v with fetch := some { tag, limit, gathered := got }, read := entering m }
                    storePort := { s.storePort with reads := s.storePort.reads ++ [(c, m)] } }))
          ∧ ∀ (kind : FindingKind) (values : Option (Nat × Nat)),
            ((report = .error ∧ kind = .readError ∧ values = none)
              ∨ ∃ altered, report = .complete altered
                ∧ ((dualSumOf (payload altered) ≠ g.check ∧ kind = .checkMismatch
                    ∧ values = some (g.check, dualSumOf (payload altered)))
                  ∨ (dualSumOf (payload altered) = g.check ∧ decodePayload g (payload altered) = none
                    ∧ kind = .malformed ∧ values = none))) →
            let behind : Cursor :=
              { u with
                segment := (s.segment n).next, within := 0, loaded := none, nextOrdinal := u.nextOrdinal + rem }
            ((s.segment n).state = .suspect → ends s behind .segmentDamaged gs rem)
              ∧ ((s.segment n).state = .stored → read.allocation = (s.segment n).allocation →
                (s.segment n).fileIndex = i → ends
                  { s with
                    segments := Sparse.set {} n
                      { s.segment n with
                        state := .suspect
                        unreported :=
                          decide (s.findingPlaces = 0 ∨ (f.suspectCount = 0 ∧ 128 ≤ s.trail.entries.length)) }
                      s.segments
                    files := Sparse.set none i (some { f with suspectCount := f.suspectCount + 1 }) s.files
                    findings :=
                      if 0 < s.findingPlaces then
                        s.findings ++ [{ kind, source := .retrieval, segment := n, fileIndex := i, switchId := f.switchId,
                                         sequence := f.sequence, clock := s.stamp, values }]
                      else s.findings
                    trail :=
                      if f.suspectCount = 0 ∧ s.trail.entries.length < 128 then
                        s.trail.append s.stamp .quarantineSet none (.file f.switchId f.sequence i {}) f.recordCount
                      else s.trail }
                  behind .segmentDamaged gs rem))
    ∧ ∀ (s : State) (c : CursorId) (n : Nat) (report : ReadReport),
      s.powered = true → s.storePort.current = some (.read c n false) → n ≤ 262143 →
      exec (.retrievalReadComplete report) s = .next s.endStore

/-! ## The Day Clock -/

/-- The Day Clock (R147 to R151). A tick: the value rises by 1 unless the clock is UNSET or at limit, at limit is reached
at 4,294,943,999, a new day begins a pass or sets pass-again, and every running countdown falls by 1 and is due at 0 (log
entry 13). A pulse restarts the measure, marks the reference present and is a tick if half a second has passed since the
last one. A shorter one is noise and changes nothing while the reference is present; in HOLDOVER, and in UNSET without
reference, it realigns the measure without a tick. A pulse in HOLDOVER brings REFERENCE. An internal second in REFERENCE or
UNSET is first a period of grace; at the second the reference is lost, a set clock enters HOLDOVER and two ticks are taken;
from then on each is one tick. That the count stands at 2 behind the loss, and how it goes on in a HOLDOVER that SET CLOCK
entered, are the model's readings (log entry 11). SET CLOCK sets the value, clamped, behind its CLOCK_SET entry; an UNSET
clock becomes REFERENCE or HOLDOVER; a later day, or a first set to a day above 0 or with pass-again pending, is a start
cause. Nothing else changes. -/
def Obligations.ClockFollowsItsRules : Prop :=
  ∀ s : State,
    let fall (d : Countdown) : Countdown :=
      match d with
      | .running n => if n ≤ 1 then .due else .running (n - 1)
      | other => other
    let start (t : State) : State :=
      if t.pass.state = .idle then
        { t with pass := { t.pass with
            state := if t.pass.paused then .paused else .walking, position := 0, again := false } }
      else { t with pass := { t.pass with again := true } }
    let tick (t : State) : State :=
      let counted : State :=
        { t with
          streams := mapVector (fun st : Stream => { st with countdown := fall st.countdown }) t.streams
          cursors := mapVector (fun u : Cursor => { u with idle := fall u.idle }) t.cursors
          sweep := { t.sweep with rest := fall t.sweep.rest } }
      if t.clock.state = .unset ∨ t.clock.atLimit = true then counted
      else
        let risen : State :=
          { counted with clock := { t.clock with
              value := t.clock.value + 1, atLimit := 4294943999 ≤ t.clock.value + 1 } }
        if (t.clock.value + 1) % 86400 = 0 then start risen else risen
    let measured (state : ClockState) (present : Bool) (seconds : Nat) : State :=
      { s with clock := { s.clock with state, referencePresent := present, internalSeconds := seconds } }
    (s.powered = true →
        ((s.clock.state = .reference ∨ (s.clock.state = .unset ∧ s.clock.referencePresent = true)) →
            exec (.referencePulse true) s = .next (tick (measured s.clock.state true 0))
              ∧ exec (.referencePulse false) s = .next s)
          ∧ (∀ state, ((s.clock.state = .holdover ∧ state = .reference)
              ∨ (s.clock.state = .unset ∧ s.clock.referencePresent = false ∧ state = .unset)) →
            exec (.referencePulse true) s = .next (tick (measured state true 0))
              ∧ exec (.referencePulse false) s = .next (measured state true 0))
          ∧ (s.clock.state ≠ .holdover → s.clock.internalSeconds = 0 →
            exec .internalSecond s = .next { s with clock := { s.clock with internalSeconds := 1 } })
          ∧ (s.clock.internalSeconds = 1 →
            let lost := measured (if s.clock.state = .unset then .unset else .holdover) false 2
            exec .internalSecond s = .next (tick (tick lost)))
          ∧ ((2 ≤ s.clock.internalSeconds ∨ (s.clock.state = .holdover ∧ s.clock.internalSeconds = 0)) →
            exec .internalSecond s = .next (tick s)))
      ∧ ∀ (p : PortId) (tag : Byte) (value : Wire32), s.admits p tag → (s.roles p).admin = true →
        let v := min (wire32 (s.byteOrder p) value) 4294943999
        let state := if s.clock.state ≠ .unset then s.clock.state
          else if s.clock.referencePresent then .reference else .holdover
        let set : State :=
          { s with
            trail := s.trail.append v .clockSet (some p)
              (.clock (if s.clock.state = .unset then 0 else s.clock.value) v) 0
            clock := { s.clock with value := v, atLimit := v = 4294943999, state } }
        let cause : Prop :=
          if s.clock.state = .unset then (s.pass.state = .idle ∧ s.pass.again = true) ∨ 86400 ≤ v
          else s.clock.value / 86400 < v / 86400
        let body := ReplyBody.clockSet (if s.clock.state = .unset then 0 else s.clock.value) v state
        (s.trail.entries.length < 128 → cause →
            exec (.setClock p tag value) s = .next ((start set).reply p tag .ok body))
          ∧ (s.trail.entries.length < 128 → ¬cause →
            exec (.setClock p tag value) s = .next (set.reply p tag .ok body))
          ∧ (128 ≤ s.trail.entries.length →
            exec (.setClock p tag value) s = .next (s.refuse p tag .trailFull))

/-! ## Settings, links, resets -/

/-- The requests that write stored settings: SET RETENTION clamps and appends RETENTION_CHANGED (R90); SET ROLES appends
ROLES_CHANGED and, with INGEST and RETRIEVE kept, changes nothing else (R160). With INGEST withdrawn an abort with cause
ROLE_WITHDRAWN begins for each stream of the port that has begun none and is not settled (R34, R35; the mark on the
head's wait is the model's, log entry 10); with RETRIEVE withdrawn each cursor of the port is freed as at its idle expiry,
a fetch in progress being answered NOT_PERMITTED first, with its records dropped if its reply was formed and not sent, and
a request held behind it NOT_PERMITTED after it (R144, R156). That cursors are freed too where the old set lacked RETRIEVE
already is the model's choice (log entry 37).
That these replies are formed before SET ROLES' own is the model's choice (log entry 29), and so is the ascending order in
which streams and cursors are reached (log entry 32). SET PORT SETTINGS is answered in the order it sets (R155, R161); LOAD
CLASS ENTRIES replaces the entries it names and no other (R47); LOAD FIELD MAP replaces map, rounding mode and overflow
key together (R48). Arguments out of range are refused BAD_REQUEST, LAST_ADMIN comes before TRAIL_FULL, and a full trail
refuses SET RETENTION and SET ROLES. Nothing else changes. -/
def Obligations.SettingsWrittenWhole : Prop :=
  (∀ (s : State) (p : PortId) (tag : Byte),
    s.admits p tag → (s.roles p).admin = true →
    (∀ (k : Fin 8) (days : Wire16), s.trail.entries.length < 128 →
        let d := min (wire16 (s.byteOrder p) days) 16383
        exec (.setRetention p tag (BitVec.ofNat 8 k.val) days) s = .next
          ({ s with
            settings := { s.settings with retention := s.settings.retention.set k d }
            trail := s.trail.append s.stamp .retentionChanged (some p) (.index k.val) d }.reply p tag .ok
            (.retentionSet d)))
      ∧ (∀ (code : Byte) (days : Wire16),
        (7 < code.toNat → exec (.setRetention p tag code days) s = .next (s.refuse p tag .badRequest))
          ∧ (code.toNat ≤ 7 → 128 ≤ s.trail.entries.length →
            exec (.setRetention p tag code days) s = .next (s.refuse p tag .trailFull)))
      ∧ (∀ (target code n m : Byte),
        ((3 < target.toNat ∨ 15 < code.toNat) →
            exec (.setRoles p tag target code) s = .next (s.refuse p tag .badRequest))
          ∧ ((3 < target.toNat ∨ 1 < code.toNat) →
            exec (.setPortSettings p tag target code n m) s = .next (s.refuse p tag .badRequest)))
      ∧ (∀ (profile mode first : Byte) (count : Wire16) (entries : List WireClassEntry),
        (3 < profile.toNat ∨ 7 < mode.toNat ∨ entries = [] ∨ entries.length ≠ wire16 (s.byteOrder p) count
          ∨ 256 < first.toNat + entries.length ∨ readClassEntries entries = none) →
        exec (.loadClassEntries p tag profile mode first count entries) s = .next (s.refuse p tag .badRequest))
      ∧ (∀ (profile : Byte) (targets : List Byte) (r o : Byte),
        (3 < profile.toNat ∨ targets.length ≠ 16 ∨ readTargets targets = none ∨ readRounding r = none
          ∨ readOverflow o = none
          ∨ ∃ map, readTargets targets = some map
            ∧ (mapsRequired map = false ∨ ∃ t : FieldTarget, t ≠ .ignore ∧ 1 < targetCount t map)) →
        exec (.loadFieldMap p tag profile targets r o) s = .next (s.refuse p tag .badRequest))
      ∧ (∀ (target : PortId) (a b c d : Bool) (code : Byte),
        code.toNat = a.toNat + 2 * b.toNat + 4 * c.toNat + 8 * d.toNat →
        let set : State :=
          { s with
            settings := { s.settings with
              ports := s.settings.ports.set target { s.settings.ports[target] with roles := ⟨a, b, c, d⟩ } }
            trail := s.trail.append s.stamp .rolesChanged (some p) (.roles target ⟨a, b, c, d⟩) 0 }
        ((d = true ∨ ∃ o : PortId, o ≠ target ∧ (s.roles o).admin = true) → s.trail.entries.length < 128 → a = true →
            b = true →
            exec (.setRoles p tag (BitVec.ofNat 8 target.val) code) s = .next (set.reply p tag .ok .empty))
          ∧ ((d = true ∨ ∃ o : PortId, o ≠ target ∧ (s.roles o).admin = true) → 128 ≤ s.trail.entries.length →
            exec (.setRoles p tag (BitVec.ofNat 8 target.val) code) s = .next (s.refuse p tag .trailFull))
          ∧ ((d = true ∨ ∃ o : PortId, o ≠ target ∧ (s.roles o).admin = true) → s.trail.entries.length < 128 →
            let stopped : State :=
              if a = true then set
              else ((List.finRange 12).filter (fun x => s.streams[x].owner = some target)).foldl State.withdrawStream set
            let freed : State :=
              if b = true then stopped
              else ((List.finRange 16).filter (fun c =>
                s.cursors[c].isOpen = true ∧ s.cursors[c].owner = some target)).foldl
                  (fun u c => u.withdrawCursor target c) stopped
            exec (.setRoles p tag (BitVec.ofNat 8 target.val) code) s = .next (freed.reply p tag .ok .empty))
          ∧ (d = false → (∀ o : PortId, o ≠ target → (s.roles o).admin = false) →
            exec (.setRoles p tag (BitVec.ofNat 8 target.val) code) s = .next (s.refuse p tag .lastAdmin)))
      ∧ (∀ (target : PortId) (order : ByteOrder) (code n m : Byte),
        code = (match order with | .little => 0 | .big => 1) →
        exec (.setPortSettings p tag (BitVec.ofNat 8 target.val) code n m) s = .next
          ({ s with
            settings := { s.settings with
              ports := s.settings.ports.set target
                { s.settings.ports[target] with
                  byteOrder := order, streamTimeout := n.toNat, cursorTimeout := m.toNat } } }.reply p tag .ok .empty))
      ∧ (∀ (k : Fin 4) (m : Fin 8) (first : Byte) (count : Wire16) (entries : List WireClassEntry)
          (es : List ClassEntry),
        readClassEntries entries = some es → entries.length = wire16 (s.byteOrder p) count → 1 ≤ entries.length →
        first.toNat + entries.length ≤ 256 →
        ∃ classes : Sparse ClassEntry,
          exec (.loadClassEntries p tag (BitVec.ofNat 8 k.val) (BitVec.ofNat 8 m.val) first count entries) s = .next
            ({ s with
              settings := { s.settings with
                profiles := s.settings.profiles.set k { s.settings.profiles[k] with classes } } }.reply p tag .ok
              .empty)
          ∧ ∀ key, Sparse.get {} key classes =
            if m.val * 256 + first.toNat ≤ key then
              (es[key - (m.val * 256 + first.toNat)]?).getD (Sparse.get {} key s.settings.profiles[k].classes)
            else Sparse.get {} key s.settings.profiles[k].classes)
      ∧ (∀ (k : Fin 4) (targets : List Byte) (r o : Byte) (map : Vector FieldTarget 16) (rounding : Rounding)
          (overflow : OverflowKey),
        targets.length = 16 → readTargets targets = some map.toList → readRounding r = some rounding →
        readOverflow o = some overflow → mapsRequired map.toList = true →
        (∀ t : FieldTarget, t ≠ .ignore → targetCount t map.toList ≤ 1) →
        exec (.loadFieldMap p tag (BitVec.ofNat 8 k.val) targets r o) s = .next
          ({ s with
            settings := { s.settings with
              profiles := s.settings.profiles.set k
                { s.settings.profiles[k] with map, rounding, overflow } } }.reply p tag .ok .empty)))
    ∧ (∀ (s : State) (x : StreamId) (st : Stream), s.streams[x] = st →
      let abandoned : Option HeadWait :=
        match s.headWait, s.staging with
        | some wait, StagingEntry.record y _ :: _ => if y = x then some .abandoned else some wait
        | wait, _ => wait
      let leaves (u : Stream) : State :=
        { s with
          waiting := s.waiting.filter (fun i => i ≠ WaitItem.post x ∧ i ≠ WaitItem.notice x)
          blocked := s.blocked.filter (· ≠ x)
          streams := s.streams.set x u }
      ((st.state = .idle ∨ st.abortBegun = true ∨ st.settled = true) → s.withdrawStream x = s)
        ∧ (st.state ≠ .idle → st.abortBegun = false → st.settled = false →
          (st.state = .closing → st.verdict = none → s.withdrawStream x =
              { leaves { st with abortCause := some .roleWithdrawn, storeFullNotice := false, abortAfterClose := true } with
                headWait := abandoned })
            ∧ ((st.state ≠ .closing ∨ st.verdict.isSome = true) → s.withdrawStream x =
              { leaves { st with
                  state := .aborting, abortCause := some .roleWithdrawn, storeFullNotice := false
                  countdown := .stopped, principal := {}, alternate := {}, heldByte := none, ready := none
                  pending := none, record := {}, skip := false, trailerBuild := {}, trailer := none, verdict := none
                  abortAfterClose := false } with
                staging := s.staging ++ [StagingEntry.abort x] })))
    ∧ ∀ (s : State) (target : PortId) (c : CursorId), s.powered = true → s.cursors[c].isOpen = true →
      let expired (u : State) : Host.Outcome State Fault Refusal :=
        exec (.cursorIdleExpiry c) { u with cursors := u.cursors.set c { u.cursors[c] with idle := .due } }
      (s.cursors[c].fetch = none → expired s = .next (s.withdrawCursor target c))
        ∧ ∀ (q : Fetch) (os : List Outstanding),
          s.cursors[c].fetch = some q → s.ports[target].outstanding = os →
          (⟨q.tag, .fetching c⟩ ∈ os ∨ ⟨q.tag, .delivering c⟩ ∈ os) →
          let answered (left : List Outstanding) : State :=
            { s with
              ports := s.ports.set target
                { s.ports[target] with
                  outstanding := left
                  unsent := s.ports[target].unsent.filter (fun r => r.fetched q.tag = false) }
              }.reply target q.tag .notPermitted .empty
          ((∀ o ∈ os, o.standing.cursor = some c → o.tag = q.tag) →
              expired (answered (os.filter (fun o => o.tag ≠ q.tag))) = .next (s.withdrawCursor target c))
            ∧ ∀ (held : Outstanding) (t : State), held ∈ os → held.tag ≠ q.tag →
              ((∃ count, held.standing = .heldFetch c count) ∨ held.standing = .heldClose c) →
              (∀ o ∈ os, o.standing.cursor = some c → o.tag = q.tag ∨ o = held) → (s.roles target).retrieve = false →
              expired (answered (os.filter (fun o => o.tag ≠ q.tag ∧ o.tag ≠ held.tag))) = .next t →
              s.withdrawCursor target c = t.refuse target held.tag .notPermitted

/-- Links and resets. A DOWN link comes UP with no outstanding request (R153). A port reset, by link loss or link reset,
discards the port's requests and the replies not yet left, reaches its streams and then its cursors, and then removes its
completion entries, which serves the wait list as COMPLETION_WAIT_SERVED does (R157, R35, R144, R45): a stream begins an
abort, has the cause of its abort replaced and a waiting store-full notice cleared (the clearing is log entry 19's), or,
settled, is IDLE; with every member of the wait list a stream in use, no completion entry of the port is left or posted;
a cursor is freed as at its idle expiry. That order is the model's choice (log entry 32), as is the mark on the head's wait (log entry 10). What the port had asked of the catalogue
stays outstanding without a reply: an OPEN FILE then makes its entry and the stream is aborted at once, an OPEN CURSOR
leaves no trace (R158); when it is answered is the model's choice (log entry 31). A module reset, by request or by the reset input held low for at least 10 µs and released, returns every
volatile part but the Day Clock and the links to its reset values and enters STARTING; a power-on also returns those
(R165). That its reply leaves in its step, that the reset is taken at the release, that a powered part may be powered on,
and that the store stays and nothing happens without supply, are the model's choices (log entries 31, 16, 17, 27). While
no clean-up has ended since the first power-on, the stored parts take their first-ever contents (R163; the mark is the
model's, log entry 3). The clean-up removes every INGESTING file, frees every segment still FILLING, marks every SUSPECT
one unreported, gives the start-up cause and ends STARTING (R166, R167), as one step (log entry 35). -/
def Obligations.LinksAndResets : Prop :=
  let discarded (s : State) (p : PortId) : List Opening :=
    s.openings.map (fun o => if o.port = p then { o with tag := none } else o)
  (∀ (s : State) (p : PortId),
    let reset : State :=
      { s with
        controller := .starting, resetLow := false
        openings := []
        ports := mapVector (fun q : PortState => { q with outstanding := [], unsent := [] }) s.ports
        files := s.files.map (fun e => (e.1, e.2.map (fun f => { f with pinCount := 0 })))
        streams := Vector.replicate 12 {}, staging := [], blocked := [], completions := [], waiting := []
        encodings := Vector.replicate 12 {}, headWait := none, storeFullEpisode := false, storePort := {}
        pass := {}, passWoken := false, sweep := {}, findings := [], cursors := Vector.replicate 16 {} }
    let first : State :=
      { reset with
        settings := {}, files := [], segments := [], freeList := [(0, 262144)], switches := []
        holds := Vector.replicate 32 {}, trail := {} }
    let begun : State := if s.initialised = true then reset else first
    (s.powered = true → s.ports[p].up = false → exec (.linkEstablished p) s = .next
        { s with
          openings := discarded s p
          ports := s.ports.set p { s.ports[p] with up := true, outstanding := [], unsent := [] } })
      ∧ (∀ tag, s.admits p tag → (s.roles p).admin = true → exec (.moduleReset p tag) s = .next
          { begun with replies := s.replies ++ [⟨p, tag, .ok, s.byteOrder p, .empty⟩] })
      ∧ (s.powered = true → s.resetLow = true → exec .resetInputReleased s = .next begun)
      ∧ exec .powerOn s = .next
        { begun with
          powered := true, clock := {}, ports := mapVector (fun q : PortState => { lineBusy := q.lineBusy }) s.ports }
      ∧ (s.powered = true → ∀ n, exec (.resetInputAsserted n) s =
        .next (if 10 ≤ n then { s with resetLow := true } else s))
      ∧ exec .powerLoss s = .next { s with powered := false }
      ∧ (s.powered = true → s.controller = .starting → s.resetLow = false → s.pass = {} →
        let removed : State :=
          ((s.heldFiles.filter (fun e => e.2.state = .ingesting)).map Prod.fst).foldl
            (fun u i => (u.removeFile i).getD u) { s with initialised := true }
        let freed : State :=
          ((removed.segments.filter (fun e => e.2.state = SegmentState.filling)).map Prod.fst).foldl
            (fun u n =>
              { u with
                segments := Sparse.set {} n { allocation := (u.segment n).allocation } u.segments
                freeList := Runs.push n u.freeList }) removed
        exec .startupCleanup s = .next
          { freed with
            controller := .ready
            segments := freed.segments.map (fun e : Nat × Segment =>
              if e.2.state = SegmentState.suspect then (e.1, { e.2 with unreported := true }) else e)
            pass := if s.clock.state = .unset then { again := true } else { state := .walking } })
      ∧ (∀ i f, s.file i = some f → f.state = .ingesting → s.removeFile i = some (s.releaseFile i f)))
    ∧ (∀ (s : State) (p : PortId), s.powered = true → s.ports[p].up = true →
      ∃ t : State,
        (let begun : State :=
            { s with
              openings := discarded s p
              ports := s.ports.set p { s.ports[p] with outstanding := [], unsent := [] } }
          let stopped : State :=
            ((List.finRange 12).filter (fun x => s.streams[x].owner = some p)).foldl State.resetStream begun
          let freed : State :=
            ((List.finRange 16).filter (fun c => s.cursors[c].isOpen = true ∧ s.cursors[c].owner = some p)).foldl
              State.freeCursorOf stopped
          (if s.completionsOf p = [] then t = freed
            else exec .completionWaitServed
              { freed with completions := s.completions.filter (fun e => e.port ≠ p) } = .next t))
        ∧ exec (.linkReset p) s = .next t
        ∧ ((∀ (i : WaitItem) (x : StreamId), i ∈ s.waiting → i = .post x ∨ i = .notice x →
            s.streams[x].state ≠ .idle ∧ s.streams[x].owner.isSome = true) →
          t.ports[p].outstanding = [] ∧ t.ports[p].unsent = [] ∧ (∀ e ∈ t.completions, e.port ≠ p)
            ∧ (∀ c : CursorId, t.cursors[c].isOpen = true → t.cursors[c].owner ≠ some p)
            ∧ ∀ x : StreamId, t.streams[x].owner = some p →
              t.streams[x].abortBegun = true ∨ t.streams[x].state = .idle))
    ∧ (∀ (s t : State) (p : PortId), s.powered = true → s.ports[p].up = true → exec (.linkReset p) s = .next t →
      exec (.linkLoss p) s = .next { t with ports := t.ports.set p { t.ports[p] with up := false } })
    ∧ (∀ (s : State) (x : StreamId) (st : Stream), s.streams[x] = st →
      let abandoned : Option HeadWait :=
        match s.headWait, s.staging with
        | some wait, StagingEntry.record y _ :: _ => if y = x then some .abandoned else some wait
        | wait, _ => wait
      let leaves (u : Stream) : State :=
        { s with
          waiting := s.waiting.filter (fun i => i ≠ WaitItem.post x ∧ i ≠ WaitItem.notice x)
          blocked := s.blocked.filter (· ≠ x)
          streams := s.streams.set x u }
      (st.state = .idle → s.resetStream x = s)
        ∧ (st.abortBegun = true →
          s.resetStream x = leaves { st with abortCause := some .portReset, storeFullNotice := false })
        ∧ (st.settled = true → s.resetStream x = leaves {})
        ∧ (st.state ≠ .idle → st.abortBegun = false → st.settled = false →
          (st.state = .closing → st.verdict = none → s.resetStream x =
              { leaves { st with abortCause := some .portReset, storeFullNotice := false, abortAfterClose := true } with
                headWait := abandoned })
            ∧ ((st.state ≠ .closing ∨ st.verdict.isSome = true) → s.resetStream x =
              { leaves { st with
                  state := .aborting, abortCause := some .portReset, storeFullNotice := false
                  countdown := .stopped, principal := {}, alternate := {}, heldByte := none, ready := none
                  pending := none, record := {}, skip := false, trailerBuild := {}, trailer := none, verdict := none
                  abortAfterClose := false } with
                staging := s.staging ++ [StagingEntry.abort x] })))
    ∧ (∀ (s : State) (c : CursorId), s.powered = true → s.cursors[c].isOpen = true →
      exec (.cursorIdleExpiry c) { s with cursors := s.cursors.set c { s.cursors[c] with idle := .due } } =
        .next (s.freeCursorOf c))
    ∧ ∀ (s : State) (p : PortId) (rest : List Opening),
      s.pending = [] → s.powered = true → (∀ o : PortId, s.ports[o].unsent = []) →
      let t : State := { s with openings := rest }
      (∀ b : OpeningFile, s.openings = ⟨p, none, .file b⟩ :: rest →
          ((s.findFile b.switchId b.sequence).isSome = true ∨ 131072 ≤ s.heldFiles.length → step s = .next t)
            ∧ (s.findFile b.switchId b.sequence = none → s.heldFiles.length < 131072 →
              step s = .next
                { t with
                  files := Sparse.set none s.lowestFreeFile (some
                    { switchId := b.switchId, sequence := b.sequence, fileDay := b.fileDay,
                      retentionClass := b.retentionClass, profile := b.profile.val,
                      rounding := s.settings.profiles[b.profile].rounding,
                      overflow := s.settings.profiles[b.profile].overflow, state := .ingesting, openingPort := p })
                    s.files
                  switches := Sparse.set {} b.switchId
                    { s.switch b.switchId with fileCount := (s.switch b.switchId).fileCount + 1 } s.switches
                  staging := s.staging ++ [StagingEntry.abort b.stream]
                  waiting := s.waiting.filter (fun i => i ≠ WaitItem.post b.stream ∧ i ≠ WaitItem.notice b.stream)
                  blocked := s.blocked.filter (· ≠ b.stream)
                  streams := s.streams.set b.stream
                    { state := .aborting, owner := some p, fileIndex := some s.lowestFreeFile,
                      switchId := some b.switchId, sequence := some b.sequence, profile := some b.profile,
                      abortCause := some .portReset } }))
        ∧ ∀ b : OpeningCursor, s.openings = ⟨p, none, .cursor b⟩ :: rest →
          (s.findFile b.switchId b.sequence = none → step s = .next t)
            ∧ ∀ (i : Nat) (f : File), s.findFile b.switchId b.sequence = some (i, f) → s.file i = some f →
              ((f.state = .ingesting ∨ f.state = .expiring) → step s = .next t)
                ∧ ((f.state = .accepted ∨ f.state = .disputed) → s.cursors[b.cursor] = {} →
                  (∀ r ∈ s.storePort.reads, r.1 ≠ b.cursor) →
                  (∀ d n live, s.storePort.current = some (.read d n live) → live = true → d ≠ b.cursor) →
                  ∃ files : Sparse (Option File),
                    step s = .next { t with files } ∧ ∀ j, Sparse.get none j files = s.file j)

/-- The informational requests change nothing but the reply: FILE INFO carries the entry with its switch's figures and
its expire day (R18), LIST FILES the references of the matching entries in ascending index up to the count, clamped to
64, with the index to go on at (R19), SEGMENT INFO the catalogue entry with its file's pair (R20); an argument out of its range
is refused BAD_REQUEST, and FILE INFO of a pair no entry holds NO_FILE. PART STATUS carries the
snapshot of the table of R162 at one moment, which every port may take in every controller state; that a reset input held
low shows as STARTING is the model's choice (log entry 27). -/
def Obligations.InformationChangesNothing : Prop :=
  ∀ (s : State) (p : PortId) (tag : Byte),
    (s.admits p tag → (s.roles p ≠ ⟨false, false, false, false⟩) →
        (∀ (w q : Wire16) (i : Nat) (f : File), wire16 (s.byteOrder p) w ≤ 1023 →
            s.findFile (wire16 (s.byteOrder p) w) (wire16 (s.byteOrder p) q) = some (i, f) →
            exec (.fileInfo p tag w q) s = .next (s.reply p tag .ok
              (.fileInfo i f (s.switch (wire16 (s.byteOrder p) w)).fileCount
                (s.switch (wire16 (s.byteOrder p) w)).expected
                (if s.retentionOf f.retentionClass = 0 then none
                  else some (f.fileDay + s.retentionOf f.retentionClass)))))
          ∧ (∀ (w a b : Wire16) (states count : Byte) (start : Wire32) (selector : Option Nat) (kinds : List FileState),
            readSelector (wire16 (s.byteOrder p) w) = some selector → readStates states = some kinds →
            wire16 (s.byteOrder p) a ≤ wire16 (s.byteOrder p) b → wire16 (s.byteOrder p) b ≤ 49709 →
            wire32 (s.byteOrder p) start ≤ 131071 →
            let found := (((s.heldFiles.filter (fun e =>
                decide (wire32 (s.byteOrder p) start ≤ e.1
                  ∧ (selector = none ∨ selector = some e.2.switchId)
                  ∧ wire16 (s.byteOrder p) a ≤ e.2.fileDay ∧ e.2.fileDay ≤ wire16 (s.byteOrder p) b
                  ∧ e.2.state ∈ kinds))).map (fun e =>
                FileReference.mk e.1 e.2.switchId e.2.sequence e.2.fileDay e.2.state)).take (min count.toNat 64))
            exec (.listFiles p tag w a b states start count) s = .next (s.reply p tag .ok (.files found
              (if min count.toNat 64 = 0 then some (wire32 (s.byteOrder p) start)
                else if found.length < min count.toNat 64 then none
                else found.getLast?.bind (fun r => if r.fileIndex < 131071 then some (r.fileIndex + 1) else none)))))
          ∧ (((s.roles p).audit = true ∨ (s.roles p).admin = true) → ∀ (n : Wire32) (f : File),
            wire32 (s.byteOrder p) n ≤ 262143 →
            let e := s.segment (wire32 (s.byteOrder p) n)
            (e.state = .free → exec (.segmentInfo p tag n) s = .next (s.reply p tag .ok (.segmentInfo e 0 0)))
              ∧ (e.state ≠ .free → s.file e.fileIndex = some f → exec (.segmentInfo p tag n) s =
                .next (s.reply p tag .ok (.segmentInfo e f.switchId f.sequence))))
          ∧ (∀ w q : Wire16,
            (1023 < wire16 (s.byteOrder p) w → exec (.fileInfo p tag w q) s = .next (s.refuse p tag .badRequest))
              ∧ (wire16 (s.byteOrder p) w ≤ 1023 →
                s.findFile (wire16 (s.byteOrder p) w) (wire16 (s.byteOrder p) q) = none →
                exec (.fileInfo p tag w q) s = .next (s.refuse p tag .noFile)))
          ∧ (∀ (w a b : Wire16) (states count : Byte) (start : Wire32),
            ((1023 < wire16 (s.byteOrder p) w ∧ wire16 (s.byteOrder p) w ≠ 65535)
              ∨ 49709 < wire16 (s.byteOrder p) a ∨ 49709 < wire16 (s.byteOrder p) b
              ∨ wire16 (s.byteOrder p) b < wire16 (s.byteOrder p) a ∨ states = 0 ∨ 15 < states.toNat
              ∨ 131071 < wire32 (s.byteOrder p) start) →
            exec (.listFiles p tag w a b states start count) s = .next (s.refuse p tag .badRequest))
          ∧ (((s.roles p).audit = true ∨ (s.roles p).admin = true) → ∀ n : Wire32,
            262143 < wire32 (s.byteOrder p) n →
            exec (.segmentInfo p tag n) s = .next (s.refuse p tag .badRequest)))
      ∧ (s.hears p = true → s.ports[p].outstanding.length < 8 → (∀ o ∈ s.ports[p].outstanding, o.tag ≠ tag) →
        ∃ q : PartStatus,
          exec (.partStatus p tag) s = .next (s.reply p tag .ok (.status q))
          ∧ q.partCode = 4800 ∧ q.revision = Config.revisionNumber
          ∧ (q.controller = .starting ↔ s.controller = .starting ∨ s.resetLow = true)
          ∧ q.ports.length = 4 ∧ (∀ k : PortId, q.ports[k.val]? = some (s.ports[k].up, s.settings.ports[k])) ∧ q.requester = p
          ∧ (q.alarms.storeFull = true ↔ Runs.toList s.freeList = [])
          ∧ (q.alarms.clockUnset = true ↔ s.clock.state = .unset) ∧ (q.alarms.holdover = true ↔ s.clock.state = .holdover)
          ∧ q.alarms.atLimit = s.clock.atLimit ∧ q.clock = s.clock
          ∧ q.filesHeld = s.heldFiles.length ∧ q.freeSegments = (Runs.toList s.freeList).length
          ∧ q.streamsBusy = ((List.finRange 12).filter (fun x => s.streams[x].state ≠ .idle)).length
          ∧ q.stagingRecords =
            s.staging.countP (fun e => match e with | .record _ _ => true | .close _ => false | .abort _ => false)
          ∧ q.completions = s.completions.length ∧ q.completionsOfPort = s.completions.countP (fun e => e.port = p)
          ∧ q.retention = s.settings.retention.toList
          ∧ q.activeHolds = ((List.finRange 32).filter (fun k => s.holds[k].active)).length ∧ q.holds = s.holds.toList
          ∧ q.pass = s.pass ∧ q.sweepState = s.sweep.state ∧ q.sweepPosition = s.sweep.position
          ∧ q.cycles = s.sweep.cycles ∧ q.visit = s.sweep.visit.map (fun v => v.segment) ∧ q.findings = s.findings.length
          ∧ q.window = s.settings.window ∧ q.rest = s.settings.rest ∧ q.freeze = s.settings.freeze
          ∧ q.trailHeld = s.trail.entries.length ∧ q.trailNext = s.trail.nextSequence
          ∧ q.openCursors = ((List.finRange 16).filter (fun c => s.cursors[c].isOpen)).length)

/-- R159: a port's attention line is asserted exactly while one of its conditions holds, whatever the link state. -/
def Obligations.AttentionFollowsConditions : Prop :=
  ∀ (s : State) (p : PortId), s.powered = true →
    (s.attention p = true ↔
      (∃ e ∈ s.completions, e.port = p)
        ∨ ((s.roles p).audit = true ∧ s.findings ≠ [])
        ∨ ((s.roles p).audit = true ∧ s.trail.entries ≠ [])
        ∨ ((s.roles p).admin = true
          ∧ (Runs.toList s.freeList = [] ∨ s.clock.state = .unset ∨ s.clock.state = .holdover
            ∨ s.clock.atLimit = true)))

/-- R127: the chain value of an appended entry is the dual-sum, restored from the last chain value, fed its 24 canonical
bytes; with the dual-sum of R52, whose value stays in its range. The canonical bytes, every number most significant byte
first: sequence, clock second, kind code, port (255 for "controller"), the ten subject bytes by kind, value. -/
def Obligations.ChainValueFollowsRule : Prop :=
  (∀ (d : DualSum) (b : Byte), d.feed b =
      { a := (d.a + b.toNat) % 65521, b := (d.b + (d.a + b.toNat) % 65521) % 65521 })
    ∧ (∀ (bytes : List Byte), dualSumOf bytes ≤ 4294049520)
    ∧ ∀ (t : Trail) (clock value : Nat) (kind : TrailKind) (port : Option PortId) (subject : Subject),
      let be (width n : Nat) : List Byte :=
        (List.range width).map (fun k => BitVec.ofNat 8 (n / 256 ^ (width - 1 - k)))
      let code (k : TrailKind) : Byte := match k with
        | .fileAccepted => 1 | .fileExpired => 2 | .holdPlaced => 3 | .holdReleased => 4 | .disputeCleared => 5
        | .quarantineSet => 6 | .quarantineCleared => 7 | .lossAccepted => 8 | .clockSet => 9 | .retentionChanged => 10
        | .rolesChanged => 11
      let bit (weight : Nat) (b : Bool) : Nat := if b = true then weight else 0
      let reasons (r : DisputeReasons) : Byte := BitVec.ofNat 8
        (bit 1 r.count + bit 2 r.duration + bit 4 r.check + bit 8 r.noTrailer + bit 16 r.trailerBad + bit 32 r.rejects)
      let roles (r : RoleSet) : Byte := BitVec.ofNat 8
        (bit 1 r.ingest + bit 2 r.retrieve + bit 4 r.audit + bit 8 r.admin)
      ∃ e : TrailEntry, ∃ form : List Byte,
        t.append clock kind port subject value =
            { t with
              entries := t.entries ++ [e], nextSequence := (t.nextSequence + 1) % 4294967296, lastChain := e.chain }
          ∧ e.sequence = t.nextSequence ∧ e.clock = clock ∧ e.kind = kind ∧ e.port = port ∧ e.subject = subject
          ∧ e.value = value ∧ form = e.canonical
          ∧ form = be 4 e.sequence ++ be 4 e.clock ++ [code kind, port.elim 255 (fun p => BitVec.ofNat 8 p.val)]
            ++ (match subject with
              | .file w q i r => be 2 w ++ be 2 q ++ be 4 i ++ [0, reasons r]
              | .index n => be 1 n ++ List.replicate 9 0
              | .clock old new => be 4 old ++ be 4 new ++ [0, 0]
              | .roles p r => be 1 p.val ++ [roles r] ++ List.replicate 8 0)
            ++ be 4 value
          ∧ form.length = 24
          ∧ e.chain =
            (form.foldl (fun d b =>
                ({ a := (d.a + b.toNat) % 65521, b := (d.b + (d.a + b.toNat) % 65521) % 65521 } : DualSum))
              { a := t.lastChain % 65536, b := t.lastChain / 65536 }).value
end

