-- ==== Sys2Proof/Laws/State.lean ====
section
/-! SUPPORT. One lemma for each field and each update of State, so that no later proof unfolds an update. -/

namespace Sys2Proof.Machine

variable (s : State)

/-! ### setStream -/

@[simp] theorem State.setStream_pending (x : StreamId) (st : Stream) : (s.setStream x st).pending = s.pending := rfl
@[simp] theorem State.setStream_powered (x : StreamId) (st : Stream) : (s.setStream x st).powered = s.powered := rfl
@[simp] theorem State.setStream_controller (x : StreamId) (st : Stream) : (s.setStream x st).controller = s.controller := rfl
@[simp] theorem State.setStream_resetLow (x : StreamId) (st : Stream) : (s.setStream x st).resetLow = s.resetLow := rfl
@[simp] theorem State.setStream_initialised (x : StreamId) (st : Stream) : (s.setStream x st).initialised = s.initialised := rfl
@[simp] theorem State.setStream_settings (x : StreamId) (st : Stream) : (s.setStream x st).settings = s.settings := rfl
@[simp] theorem State.setStream_ports (x : StreamId) (st : Stream) : (s.setStream x st).ports = s.ports := rfl
@[simp] theorem State.setStream_catalogueBusy (x : StreamId) (st : Stream) : (s.setStream x st).catalogueBusy = s.catalogueBusy := rfl
@[simp] theorem State.setStream_openings (x : StreamId) (st : Stream) : (s.setStream x st).openings = s.openings := rfl
@[simp] theorem State.setStream_replies (x : StreamId) (st : Stream) : (s.setStream x st).replies = s.replies := rfl
@[simp] theorem State.setStream_files (x : StreamId) (st : Stream) : (s.setStream x st).files = s.files := rfl
@[simp] theorem State.setStream_segments (x : StreamId) (st : Stream) : (s.setStream x st).segments = s.segments := rfl
@[simp] theorem State.setStream_freeList (x : StreamId) (st : Stream) : (s.setStream x st).freeList = s.freeList := rfl
@[simp] theorem State.setStream_switches (x : StreamId) (st : Stream) : (s.setStream x st).switches = s.switches := rfl
@[simp] theorem State.setStream_store (x : StreamId) (st : Stream) : (s.setStream x st).store = s.store := rfl
@[simp] theorem State.setStream_streams (x : StreamId) (st : Stream) : (s.setStream x st).streams = s.streams.set x st := rfl
@[simp] theorem State.setStream_staging (x : StreamId) (st : Stream) : (s.setStream x st).staging = s.staging := rfl
@[simp] theorem State.setStream_blocked (x : StreamId) (st : Stream) : (s.setStream x st).blocked = s.blocked := rfl
@[simp] theorem State.setStream_completions (x : StreamId) (st : Stream) : (s.setStream x st).completions = s.completions := rfl
@[simp] theorem State.setStream_waiting (x : StreamId) (st : Stream) : (s.setStream x st).waiting = s.waiting := rfl
@[simp] theorem State.setStream_encodings (x : StreamId) (st : Stream) : (s.setStream x st).encodings = s.encodings := rfl
@[simp] theorem State.setStream_headWait (x : StreamId) (st : Stream) : (s.setStream x st).headWait = s.headWait := rfl
@[simp] theorem State.setStream_storeFullEpisode (x : StreamId) (st : Stream) : (s.setStream x st).storeFullEpisode = s.storeFullEpisode := rfl
@[simp] theorem State.setStream_storePort (x : StreamId) (st : Stream) : (s.setStream x st).storePort = s.storePort := rfl
@[simp] theorem State.setStream_holds (x : StreamId) (st : Stream) : (s.setStream x st).holds = s.holds := rfl
@[simp] theorem State.setStream_pass (x : StreamId) (st : Stream) : (s.setStream x st).pass = s.pass := rfl
@[simp] theorem State.setStream_passWoken (x : StreamId) (st : Stream) : (s.setStream x st).passWoken = s.passWoken := rfl
@[simp] theorem State.setStream_sweep (x : StreamId) (st : Stream) : (s.setStream x st).sweep = s.sweep := rfl
@[simp] theorem State.setStream_findings (x : StreamId) (st : Stream) : (s.setStream x st).findings = s.findings := rfl
@[simp] theorem State.setStream_trail (x : StreamId) (st : Stream) : (s.setStream x st).trail = s.trail := rfl
@[simp] theorem State.setStream_cursors (x : StreamId) (st : Stream) : (s.setStream x st).cursors = s.cursors := rfl
@[simp] theorem State.setStream_clock (x : StreamId) (st : Stream) : (s.setStream x st).clock = s.clock := rfl

/-! ### updateStream -/

@[simp] theorem State.updateStream_pending (x : StreamId) (f : Stream → Stream) : (s.updateStream x f).pending = s.pending := rfl
@[simp] theorem State.updateStream_powered (x : StreamId) (f : Stream → Stream) : (s.updateStream x f).powered = s.powered := rfl
@[simp] theorem State.updateStream_controller (x : StreamId) (f : Stream → Stream) : (s.updateStream x f).controller = s.controller := rfl
@[simp] theorem State.updateStream_resetLow (x : StreamId) (f : Stream → Stream) : (s.updateStream x f).resetLow = s.resetLow := rfl
@[simp] theorem State.updateStream_initialised (x : StreamId) (f : Stream → Stream) : (s.updateStream x f).initialised = s.initialised := rfl
@[simp] theorem State.updateStream_settings (x : StreamId) (f : Stream → Stream) : (s.updateStream x f).settings = s.settings := rfl
@[simp] theorem State.updateStream_ports (x : StreamId) (f : Stream → Stream) : (s.updateStream x f).ports = s.ports := rfl
@[simp] theorem State.updateStream_catalogueBusy (x : StreamId) (f : Stream → Stream) : (s.updateStream x f).catalogueBusy = s.catalogueBusy := rfl
@[simp] theorem State.updateStream_openings (x : StreamId) (f : Stream → Stream) : (s.updateStream x f).openings = s.openings := rfl
@[simp] theorem State.updateStream_replies (x : StreamId) (f : Stream → Stream) : (s.updateStream x f).replies = s.replies := rfl
@[simp] theorem State.updateStream_files (x : StreamId) (f : Stream → Stream) : (s.updateStream x f).files = s.files := rfl
@[simp] theorem State.updateStream_segments (x : StreamId) (f : Stream → Stream) : (s.updateStream x f).segments = s.segments := rfl
@[simp] theorem State.updateStream_freeList (x : StreamId) (f : Stream → Stream) : (s.updateStream x f).freeList = s.freeList := rfl
@[simp] theorem State.updateStream_switches (x : StreamId) (f : Stream → Stream) : (s.updateStream x f).switches = s.switches := rfl
@[simp] theorem State.updateStream_store (x : StreamId) (f : Stream → Stream) : (s.updateStream x f).store = s.store := rfl
@[simp] theorem State.updateStream_streams (x : StreamId) (f : Stream → Stream) : (s.updateStream x f).streams = s.streams.set x (f s.streams[x]) := rfl
@[simp] theorem State.updateStream_staging (x : StreamId) (f : Stream → Stream) : (s.updateStream x f).staging = s.staging := rfl
@[simp] theorem State.updateStream_blocked (x : StreamId) (f : Stream → Stream) : (s.updateStream x f).blocked = s.blocked := rfl
@[simp] theorem State.updateStream_completions (x : StreamId) (f : Stream → Stream) : (s.updateStream x f).completions = s.completions := rfl
@[simp] theorem State.updateStream_waiting (x : StreamId) (f : Stream → Stream) : (s.updateStream x f).waiting = s.waiting := rfl
@[simp] theorem State.updateStream_encodings (x : StreamId) (f : Stream → Stream) : (s.updateStream x f).encodings = s.encodings := rfl
@[simp] theorem State.updateStream_headWait (x : StreamId) (f : Stream → Stream) : (s.updateStream x f).headWait = s.headWait := rfl
@[simp] theorem State.updateStream_storeFullEpisode (x : StreamId) (f : Stream → Stream) : (s.updateStream x f).storeFullEpisode = s.storeFullEpisode := rfl
@[simp] theorem State.updateStream_storePort (x : StreamId) (f : Stream → Stream) : (s.updateStream x f).storePort = s.storePort := rfl
@[simp] theorem State.updateStream_holds (x : StreamId) (f : Stream → Stream) : (s.updateStream x f).holds = s.holds := rfl
@[simp] theorem State.updateStream_pass (x : StreamId) (f : Stream → Stream) : (s.updateStream x f).pass = s.pass := rfl
@[simp] theorem State.updateStream_passWoken (x : StreamId) (f : Stream → Stream) : (s.updateStream x f).passWoken = s.passWoken := rfl
@[simp] theorem State.updateStream_sweep (x : StreamId) (f : Stream → Stream) : (s.updateStream x f).sweep = s.sweep := rfl
@[simp] theorem State.updateStream_findings (x : StreamId) (f : Stream → Stream) : (s.updateStream x f).findings = s.findings := rfl
@[simp] theorem State.updateStream_trail (x : StreamId) (f : Stream → Stream) : (s.updateStream x f).trail = s.trail := rfl
@[simp] theorem State.updateStream_cursors (x : StreamId) (f : Stream → Stream) : (s.updateStream x f).cursors = s.cursors := rfl
@[simp] theorem State.updateStream_clock (x : StreamId) (f : Stream → Stream) : (s.updateStream x f).clock = s.clock := rfl

/-! ### setEncoding -/

@[simp] theorem State.setEncoding_pending (x : StreamId) (c : Encoding) : (s.setEncoding x c).pending = s.pending := rfl
@[simp] theorem State.setEncoding_powered (x : StreamId) (c : Encoding) : (s.setEncoding x c).powered = s.powered := rfl
@[simp] theorem State.setEncoding_controller (x : StreamId) (c : Encoding) : (s.setEncoding x c).controller = s.controller := rfl
@[simp] theorem State.setEncoding_resetLow (x : StreamId) (c : Encoding) : (s.setEncoding x c).resetLow = s.resetLow := rfl
@[simp] theorem State.setEncoding_initialised (x : StreamId) (c : Encoding) : (s.setEncoding x c).initialised = s.initialised := rfl
@[simp] theorem State.setEncoding_settings (x : StreamId) (c : Encoding) : (s.setEncoding x c).settings = s.settings := rfl
@[simp] theorem State.setEncoding_ports (x : StreamId) (c : Encoding) : (s.setEncoding x c).ports = s.ports := rfl
@[simp] theorem State.setEncoding_catalogueBusy (x : StreamId) (c : Encoding) : (s.setEncoding x c).catalogueBusy = s.catalogueBusy := rfl
@[simp] theorem State.setEncoding_openings (x : StreamId) (c : Encoding) : (s.setEncoding x c).openings = s.openings := rfl
@[simp] theorem State.setEncoding_replies (x : StreamId) (c : Encoding) : (s.setEncoding x c).replies = s.replies := rfl
@[simp] theorem State.setEncoding_files (x : StreamId) (c : Encoding) : (s.setEncoding x c).files = s.files := rfl
@[simp] theorem State.setEncoding_segments (x : StreamId) (c : Encoding) : (s.setEncoding x c).segments = s.segments := rfl
@[simp] theorem State.setEncoding_freeList (x : StreamId) (c : Encoding) : (s.setEncoding x c).freeList = s.freeList := rfl
@[simp] theorem State.setEncoding_switches (x : StreamId) (c : Encoding) : (s.setEncoding x c).switches = s.switches := rfl
@[simp] theorem State.setEncoding_store (x : StreamId) (c : Encoding) : (s.setEncoding x c).store = s.store := rfl
@[simp] theorem State.setEncoding_streams (x : StreamId) (c : Encoding) : (s.setEncoding x c).streams = s.streams := rfl
@[simp] theorem State.setEncoding_staging (x : StreamId) (c : Encoding) : (s.setEncoding x c).staging = s.staging := rfl
@[simp] theorem State.setEncoding_blocked (x : StreamId) (c : Encoding) : (s.setEncoding x c).blocked = s.blocked := rfl
@[simp] theorem State.setEncoding_completions (x : StreamId) (c : Encoding) : (s.setEncoding x c).completions = s.completions := rfl
@[simp] theorem State.setEncoding_waiting (x : StreamId) (c : Encoding) : (s.setEncoding x c).waiting = s.waiting := rfl
@[simp] theorem State.setEncoding_encodings (x : StreamId) (c : Encoding) : (s.setEncoding x c).encodings = s.encodings.set x c := rfl
@[simp] theorem State.setEncoding_headWait (x : StreamId) (c : Encoding) : (s.setEncoding x c).headWait = s.headWait := rfl
@[simp] theorem State.setEncoding_storeFullEpisode (x : StreamId) (c : Encoding) : (s.setEncoding x c).storeFullEpisode = s.storeFullEpisode := rfl
@[simp] theorem State.setEncoding_storePort (x : StreamId) (c : Encoding) : (s.setEncoding x c).storePort = s.storePort := rfl
@[simp] theorem State.setEncoding_holds (x : StreamId) (c : Encoding) : (s.setEncoding x c).holds = s.holds := rfl
@[simp] theorem State.setEncoding_pass (x : StreamId) (c : Encoding) : (s.setEncoding x c).pass = s.pass := rfl
@[simp] theorem State.setEncoding_passWoken (x : StreamId) (c : Encoding) : (s.setEncoding x c).passWoken = s.passWoken := rfl
@[simp] theorem State.setEncoding_sweep (x : StreamId) (c : Encoding) : (s.setEncoding x c).sweep = s.sweep := rfl
@[simp] theorem State.setEncoding_findings (x : StreamId) (c : Encoding) : (s.setEncoding x c).findings = s.findings := rfl
@[simp] theorem State.setEncoding_trail (x : StreamId) (c : Encoding) : (s.setEncoding x c).trail = s.trail := rfl
@[simp] theorem State.setEncoding_cursors (x : StreamId) (c : Encoding) : (s.setEncoding x c).cursors = s.cursors := rfl
@[simp] theorem State.setEncoding_clock (x : StreamId) (c : Encoding) : (s.setEncoding x c).clock = s.clock := rfl

/-! ### updateEncoding -/

@[simp] theorem State.updateEncoding_pending (x : StreamId) (f : Encoding → Encoding) : (s.updateEncoding x f).pending = s.pending := rfl
@[simp] theorem State.updateEncoding_powered (x : StreamId) (f : Encoding → Encoding) : (s.updateEncoding x f).powered = s.powered := rfl
@[simp] theorem State.updateEncoding_controller (x : StreamId) (f : Encoding → Encoding) : (s.updateEncoding x f).controller = s.controller := rfl
@[simp] theorem State.updateEncoding_resetLow (x : StreamId) (f : Encoding → Encoding) : (s.updateEncoding x f).resetLow = s.resetLow := rfl
@[simp] theorem State.updateEncoding_initialised (x : StreamId) (f : Encoding → Encoding) : (s.updateEncoding x f).initialised = s.initialised := rfl
@[simp] theorem State.updateEncoding_settings (x : StreamId) (f : Encoding → Encoding) : (s.updateEncoding x f).settings = s.settings := rfl
@[simp] theorem State.updateEncoding_ports (x : StreamId) (f : Encoding → Encoding) : (s.updateEncoding x f).ports = s.ports := rfl
@[simp] theorem State.updateEncoding_catalogueBusy (x : StreamId) (f : Encoding → Encoding) : (s.updateEncoding x f).catalogueBusy = s.catalogueBusy := rfl
@[simp] theorem State.updateEncoding_openings (x : StreamId) (f : Encoding → Encoding) : (s.updateEncoding x f).openings = s.openings := rfl
@[simp] theorem State.updateEncoding_replies (x : StreamId) (f : Encoding → Encoding) : (s.updateEncoding x f).replies = s.replies := rfl
@[simp] theorem State.updateEncoding_files (x : StreamId) (f : Encoding → Encoding) : (s.updateEncoding x f).files = s.files := rfl
@[simp] theorem State.updateEncoding_segments (x : StreamId) (f : Encoding → Encoding) : (s.updateEncoding x f).segments = s.segments := rfl
@[simp] theorem State.updateEncoding_freeList (x : StreamId) (f : Encoding → Encoding) : (s.updateEncoding x f).freeList = s.freeList := rfl
@[simp] theorem State.updateEncoding_switches (x : StreamId) (f : Encoding → Encoding) : (s.updateEncoding x f).switches = s.switches := rfl
@[simp] theorem State.updateEncoding_store (x : StreamId) (f : Encoding → Encoding) : (s.updateEncoding x f).store = s.store := rfl
@[simp] theorem State.updateEncoding_streams (x : StreamId) (f : Encoding → Encoding) : (s.updateEncoding x f).streams = s.streams := rfl
@[simp] theorem State.updateEncoding_staging (x : StreamId) (f : Encoding → Encoding) : (s.updateEncoding x f).staging = s.staging := rfl
@[simp] theorem State.updateEncoding_blocked (x : StreamId) (f : Encoding → Encoding) : (s.updateEncoding x f).blocked = s.blocked := rfl
@[simp] theorem State.updateEncoding_completions (x : StreamId) (f : Encoding → Encoding) : (s.updateEncoding x f).completions = s.completions := rfl
@[simp] theorem State.updateEncoding_waiting (x : StreamId) (f : Encoding → Encoding) : (s.updateEncoding x f).waiting = s.waiting := rfl
@[simp] theorem State.updateEncoding_encodings (x : StreamId) (f : Encoding → Encoding) : (s.updateEncoding x f).encodings = s.encodings.set x (f s.encodings[x]) := rfl
@[simp] theorem State.updateEncoding_headWait (x : StreamId) (f : Encoding → Encoding) : (s.updateEncoding x f).headWait = s.headWait := rfl
@[simp] theorem State.updateEncoding_storeFullEpisode (x : StreamId) (f : Encoding → Encoding) : (s.updateEncoding x f).storeFullEpisode = s.storeFullEpisode := rfl
@[simp] theorem State.updateEncoding_storePort (x : StreamId) (f : Encoding → Encoding) : (s.updateEncoding x f).storePort = s.storePort := rfl
@[simp] theorem State.updateEncoding_holds (x : StreamId) (f : Encoding → Encoding) : (s.updateEncoding x f).holds = s.holds := rfl
@[simp] theorem State.updateEncoding_pass (x : StreamId) (f : Encoding → Encoding) : (s.updateEncoding x f).pass = s.pass := rfl
@[simp] theorem State.updateEncoding_passWoken (x : StreamId) (f : Encoding → Encoding) : (s.updateEncoding x f).passWoken = s.passWoken := rfl
@[simp] theorem State.updateEncoding_sweep (x : StreamId) (f : Encoding → Encoding) : (s.updateEncoding x f).sweep = s.sweep := rfl
@[simp] theorem State.updateEncoding_findings (x : StreamId) (f : Encoding → Encoding) : (s.updateEncoding x f).findings = s.findings := rfl
@[simp] theorem State.updateEncoding_trail (x : StreamId) (f : Encoding → Encoding) : (s.updateEncoding x f).trail = s.trail := rfl
@[simp] theorem State.updateEncoding_cursors (x : StreamId) (f : Encoding → Encoding) : (s.updateEncoding x f).cursors = s.cursors := rfl
@[simp] theorem State.updateEncoding_clock (x : StreamId) (f : Encoding → Encoding) : (s.updateEncoding x f).clock = s.clock := rfl

/-! ### setCursor -/

@[simp] theorem State.setCursor_pending (c : CursorId) (u : Cursor) : (s.setCursor c u).pending = s.pending := rfl
@[simp] theorem State.setCursor_powered (c : CursorId) (u : Cursor) : (s.setCursor c u).powered = s.powered := rfl
@[simp] theorem State.setCursor_controller (c : CursorId) (u : Cursor) : (s.setCursor c u).controller = s.controller := rfl
@[simp] theorem State.setCursor_resetLow (c : CursorId) (u : Cursor) : (s.setCursor c u).resetLow = s.resetLow := rfl
@[simp] theorem State.setCursor_initialised (c : CursorId) (u : Cursor) : (s.setCursor c u).initialised = s.initialised := rfl
@[simp] theorem State.setCursor_settings (c : CursorId) (u : Cursor) : (s.setCursor c u).settings = s.settings := rfl
@[simp] theorem State.setCursor_ports (c : CursorId) (u : Cursor) : (s.setCursor c u).ports = s.ports := rfl
@[simp] theorem State.setCursor_catalogueBusy (c : CursorId) (u : Cursor) : (s.setCursor c u).catalogueBusy = s.catalogueBusy := rfl
@[simp] theorem State.setCursor_openings (c : CursorId) (u : Cursor) : (s.setCursor c u).openings = s.openings := rfl
@[simp] theorem State.setCursor_replies (c : CursorId) (u : Cursor) : (s.setCursor c u).replies = s.replies := rfl
@[simp] theorem State.setCursor_files (c : CursorId) (u : Cursor) : (s.setCursor c u).files = s.files := rfl
@[simp] theorem State.setCursor_segments (c : CursorId) (u : Cursor) : (s.setCursor c u).segments = s.segments := rfl
@[simp] theorem State.setCursor_freeList (c : CursorId) (u : Cursor) : (s.setCursor c u).freeList = s.freeList := rfl
@[simp] theorem State.setCursor_switches (c : CursorId) (u : Cursor) : (s.setCursor c u).switches = s.switches := rfl
@[simp] theorem State.setCursor_store (c : CursorId) (u : Cursor) : (s.setCursor c u).store = s.store := rfl
@[simp] theorem State.setCursor_streams (c : CursorId) (u : Cursor) : (s.setCursor c u).streams = s.streams := rfl
@[simp] theorem State.setCursor_staging (c : CursorId) (u : Cursor) : (s.setCursor c u).staging = s.staging := rfl
@[simp] theorem State.setCursor_blocked (c : CursorId) (u : Cursor) : (s.setCursor c u).blocked = s.blocked := rfl
@[simp] theorem State.setCursor_completions (c : CursorId) (u : Cursor) : (s.setCursor c u).completions = s.completions := rfl
@[simp] theorem State.setCursor_waiting (c : CursorId) (u : Cursor) : (s.setCursor c u).waiting = s.waiting := rfl
@[simp] theorem State.setCursor_encodings (c : CursorId) (u : Cursor) : (s.setCursor c u).encodings = s.encodings := rfl
@[simp] theorem State.setCursor_headWait (c : CursorId) (u : Cursor) : (s.setCursor c u).headWait = s.headWait := rfl
@[simp] theorem State.setCursor_storeFullEpisode (c : CursorId) (u : Cursor) : (s.setCursor c u).storeFullEpisode = s.storeFullEpisode := rfl
@[simp] theorem State.setCursor_storePort (c : CursorId) (u : Cursor) : (s.setCursor c u).storePort = s.storePort := rfl
@[simp] theorem State.setCursor_holds (c : CursorId) (u : Cursor) : (s.setCursor c u).holds = s.holds := rfl
@[simp] theorem State.setCursor_pass (c : CursorId) (u : Cursor) : (s.setCursor c u).pass = s.pass := rfl
@[simp] theorem State.setCursor_passWoken (c : CursorId) (u : Cursor) : (s.setCursor c u).passWoken = s.passWoken := rfl
@[simp] theorem State.setCursor_sweep (c : CursorId) (u : Cursor) : (s.setCursor c u).sweep = s.sweep := rfl
@[simp] theorem State.setCursor_findings (c : CursorId) (u : Cursor) : (s.setCursor c u).findings = s.findings := rfl
@[simp] theorem State.setCursor_trail (c : CursorId) (u : Cursor) : (s.setCursor c u).trail = s.trail := rfl
@[simp] theorem State.setCursor_cursors (c : CursorId) (u : Cursor) : (s.setCursor c u).cursors = s.cursors.set c u := rfl
@[simp] theorem State.setCursor_clock (c : CursorId) (u : Cursor) : (s.setCursor c u).clock = s.clock := rfl

/-! ### updateCursor -/

@[simp] theorem State.updateCursor_pending (c : CursorId) (f : Cursor → Cursor) : (s.updateCursor c f).pending = s.pending := rfl
@[simp] theorem State.updateCursor_powered (c : CursorId) (f : Cursor → Cursor) : (s.updateCursor c f).powered = s.powered := rfl
@[simp] theorem State.updateCursor_controller (c : CursorId) (f : Cursor → Cursor) : (s.updateCursor c f).controller = s.controller := rfl
@[simp] theorem State.updateCursor_resetLow (c : CursorId) (f : Cursor → Cursor) : (s.updateCursor c f).resetLow = s.resetLow := rfl
@[simp] theorem State.updateCursor_initialised (c : CursorId) (f : Cursor → Cursor) : (s.updateCursor c f).initialised = s.initialised := rfl
@[simp] theorem State.updateCursor_settings (c : CursorId) (f : Cursor → Cursor) : (s.updateCursor c f).settings = s.settings := rfl
@[simp] theorem State.updateCursor_ports (c : CursorId) (f : Cursor → Cursor) : (s.updateCursor c f).ports = s.ports := rfl
@[simp] theorem State.updateCursor_catalogueBusy (c : CursorId) (f : Cursor → Cursor) : (s.updateCursor c f).catalogueBusy = s.catalogueBusy := rfl
@[simp] theorem State.updateCursor_openings (c : CursorId) (f : Cursor → Cursor) : (s.updateCursor c f).openings = s.openings := rfl
@[simp] theorem State.updateCursor_replies (c : CursorId) (f : Cursor → Cursor) : (s.updateCursor c f).replies = s.replies := rfl
@[simp] theorem State.updateCursor_files (c : CursorId) (f : Cursor → Cursor) : (s.updateCursor c f).files = s.files := rfl
@[simp] theorem State.updateCursor_segments (c : CursorId) (f : Cursor → Cursor) : (s.updateCursor c f).segments = s.segments := rfl
@[simp] theorem State.updateCursor_freeList (c : CursorId) (f : Cursor → Cursor) : (s.updateCursor c f).freeList = s.freeList := rfl
@[simp] theorem State.updateCursor_switches (c : CursorId) (f : Cursor → Cursor) : (s.updateCursor c f).switches = s.switches := rfl
@[simp] theorem State.updateCursor_store (c : CursorId) (f : Cursor → Cursor) : (s.updateCursor c f).store = s.store := rfl
@[simp] theorem State.updateCursor_streams (c : CursorId) (f : Cursor → Cursor) : (s.updateCursor c f).streams = s.streams := rfl
@[simp] theorem State.updateCursor_staging (c : CursorId) (f : Cursor → Cursor) : (s.updateCursor c f).staging = s.staging := rfl
@[simp] theorem State.updateCursor_blocked (c : CursorId) (f : Cursor → Cursor) : (s.updateCursor c f).blocked = s.blocked := rfl
@[simp] theorem State.updateCursor_completions (c : CursorId) (f : Cursor → Cursor) : (s.updateCursor c f).completions = s.completions := rfl
@[simp] theorem State.updateCursor_waiting (c : CursorId) (f : Cursor → Cursor) : (s.updateCursor c f).waiting = s.waiting := rfl
@[simp] theorem State.updateCursor_encodings (c : CursorId) (f : Cursor → Cursor) : (s.updateCursor c f).encodings = s.encodings := rfl
@[simp] theorem State.updateCursor_headWait (c : CursorId) (f : Cursor → Cursor) : (s.updateCursor c f).headWait = s.headWait := rfl
@[simp] theorem State.updateCursor_storeFullEpisode (c : CursorId) (f : Cursor → Cursor) : (s.updateCursor c f).storeFullEpisode = s.storeFullEpisode := rfl
@[simp] theorem State.updateCursor_storePort (c : CursorId) (f : Cursor → Cursor) : (s.updateCursor c f).storePort = s.storePort := rfl
@[simp] theorem State.updateCursor_holds (c : CursorId) (f : Cursor → Cursor) : (s.updateCursor c f).holds = s.holds := rfl
@[simp] theorem State.updateCursor_pass (c : CursorId) (f : Cursor → Cursor) : (s.updateCursor c f).pass = s.pass := rfl
@[simp] theorem State.updateCursor_passWoken (c : CursorId) (f : Cursor → Cursor) : (s.updateCursor c f).passWoken = s.passWoken := rfl
@[simp] theorem State.updateCursor_sweep (c : CursorId) (f : Cursor → Cursor) : (s.updateCursor c f).sweep = s.sweep := rfl
@[simp] theorem State.updateCursor_findings (c : CursorId) (f : Cursor → Cursor) : (s.updateCursor c f).findings = s.findings := rfl
@[simp] theorem State.updateCursor_trail (c : CursorId) (f : Cursor → Cursor) : (s.updateCursor c f).trail = s.trail := rfl
@[simp] theorem State.updateCursor_cursors (c : CursorId) (f : Cursor → Cursor) : (s.updateCursor c f).cursors = s.cursors.set c (f s.cursors[c]) := rfl
@[simp] theorem State.updateCursor_clock (c : CursorId) (f : Cursor → Cursor) : (s.updateCursor c f).clock = s.clock := rfl

/-! ### setPort -/

@[simp] theorem State.setPort_pending (p : PortId) (q : PortState) : (s.setPort p q).pending = s.pending := rfl
@[simp] theorem State.setPort_powered (p : PortId) (q : PortState) : (s.setPort p q).powered = s.powered := rfl
@[simp] theorem State.setPort_controller (p : PortId) (q : PortState) : (s.setPort p q).controller = s.controller := rfl
@[simp] theorem State.setPort_resetLow (p : PortId) (q : PortState) : (s.setPort p q).resetLow = s.resetLow := rfl
@[simp] theorem State.setPort_initialised (p : PortId) (q : PortState) : (s.setPort p q).initialised = s.initialised := rfl
@[simp] theorem State.setPort_settings (p : PortId) (q : PortState) : (s.setPort p q).settings = s.settings := rfl
@[simp] theorem State.setPort_ports (p : PortId) (q : PortState) : (s.setPort p q).ports = s.ports.set p q := rfl
@[simp] theorem State.setPort_catalogueBusy (p : PortId) (q : PortState) : (s.setPort p q).catalogueBusy = s.catalogueBusy := rfl
@[simp] theorem State.setPort_openings (p : PortId) (q : PortState) : (s.setPort p q).openings = s.openings := rfl
@[simp] theorem State.setPort_replies (p : PortId) (q : PortState) : (s.setPort p q).replies = s.replies := rfl
@[simp] theorem State.setPort_files (p : PortId) (q : PortState) : (s.setPort p q).files = s.files := rfl
@[simp] theorem State.setPort_segments (p : PortId) (q : PortState) : (s.setPort p q).segments = s.segments := rfl
@[simp] theorem State.setPort_freeList (p : PortId) (q : PortState) : (s.setPort p q).freeList = s.freeList := rfl
@[simp] theorem State.setPort_switches (p : PortId) (q : PortState) : (s.setPort p q).switches = s.switches := rfl
@[simp] theorem State.setPort_store (p : PortId) (q : PortState) : (s.setPort p q).store = s.store := rfl
@[simp] theorem State.setPort_streams (p : PortId) (q : PortState) : (s.setPort p q).streams = s.streams := rfl
@[simp] theorem State.setPort_staging (p : PortId) (q : PortState) : (s.setPort p q).staging = s.staging := rfl
@[simp] theorem State.setPort_blocked (p : PortId) (q : PortState) : (s.setPort p q).blocked = s.blocked := rfl
@[simp] theorem State.setPort_completions (p : PortId) (q : PortState) : (s.setPort p q).completions = s.completions := rfl
@[simp] theorem State.setPort_waiting (p : PortId) (q : PortState) : (s.setPort p q).waiting = s.waiting := rfl
@[simp] theorem State.setPort_encodings (p : PortId) (q : PortState) : (s.setPort p q).encodings = s.encodings := rfl
@[simp] theorem State.setPort_headWait (p : PortId) (q : PortState) : (s.setPort p q).headWait = s.headWait := rfl
@[simp] theorem State.setPort_storeFullEpisode (p : PortId) (q : PortState) : (s.setPort p q).storeFullEpisode = s.storeFullEpisode := rfl
@[simp] theorem State.setPort_storePort (p : PortId) (q : PortState) : (s.setPort p q).storePort = s.storePort := rfl
@[simp] theorem State.setPort_holds (p : PortId) (q : PortState) : (s.setPort p q).holds = s.holds := rfl
@[simp] theorem State.setPort_pass (p : PortId) (q : PortState) : (s.setPort p q).pass = s.pass := rfl
@[simp] theorem State.setPort_passWoken (p : PortId) (q : PortState) : (s.setPort p q).passWoken = s.passWoken := rfl
@[simp] theorem State.setPort_sweep (p : PortId) (q : PortState) : (s.setPort p q).sweep = s.sweep := rfl
@[simp] theorem State.setPort_findings (p : PortId) (q : PortState) : (s.setPort p q).findings = s.findings := rfl
@[simp] theorem State.setPort_trail (p : PortId) (q : PortState) : (s.setPort p q).trail = s.trail := rfl
@[simp] theorem State.setPort_cursors (p : PortId) (q : PortState) : (s.setPort p q).cursors = s.cursors := rfl
@[simp] theorem State.setPort_clock (p : PortId) (q : PortState) : (s.setPort p q).clock = s.clock := rfl

/-! ### setFile -/

@[simp] theorem State.setFile_pending (i : Nat) (f : File) : (s.setFile i f).pending = s.pending := rfl
@[simp] theorem State.setFile_powered (i : Nat) (f : File) : (s.setFile i f).powered = s.powered := rfl
@[simp] theorem State.setFile_controller (i : Nat) (f : File) : (s.setFile i f).controller = s.controller := rfl
@[simp] theorem State.setFile_resetLow (i : Nat) (f : File) : (s.setFile i f).resetLow = s.resetLow := rfl
@[simp] theorem State.setFile_initialised (i : Nat) (f : File) : (s.setFile i f).initialised = s.initialised := rfl
@[simp] theorem State.setFile_settings (i : Nat) (f : File) : (s.setFile i f).settings = s.settings := rfl
@[simp] theorem State.setFile_ports (i : Nat) (f : File) : (s.setFile i f).ports = s.ports := rfl
@[simp] theorem State.setFile_catalogueBusy (i : Nat) (f : File) : (s.setFile i f).catalogueBusy = s.catalogueBusy := rfl
@[simp] theorem State.setFile_openings (i : Nat) (f : File) : (s.setFile i f).openings = s.openings := rfl
@[simp] theorem State.setFile_replies (i : Nat) (f : File) : (s.setFile i f).replies = s.replies := rfl
@[simp] theorem State.setFile_files (i : Nat) (f : File) : (s.setFile i f).files = Sparse.set none i (some f) s.files := rfl
@[simp] theorem State.setFile_segments (i : Nat) (f : File) : (s.setFile i f).segments = s.segments := rfl
@[simp] theorem State.setFile_freeList (i : Nat) (f : File) : (s.setFile i f).freeList = s.freeList := rfl
@[simp] theorem State.setFile_switches (i : Nat) (f : File) : (s.setFile i f).switches = s.switches := rfl
@[simp] theorem State.setFile_store (i : Nat) (f : File) : (s.setFile i f).store = s.store := rfl
@[simp] theorem State.setFile_streams (i : Nat) (f : File) : (s.setFile i f).streams = s.streams := rfl
@[simp] theorem State.setFile_staging (i : Nat) (f : File) : (s.setFile i f).staging = s.staging := rfl
@[simp] theorem State.setFile_blocked (i : Nat) (f : File) : (s.setFile i f).blocked = s.blocked := rfl
@[simp] theorem State.setFile_completions (i : Nat) (f : File) : (s.setFile i f).completions = s.completions := rfl
@[simp] theorem State.setFile_waiting (i : Nat) (f : File) : (s.setFile i f).waiting = s.waiting := rfl
@[simp] theorem State.setFile_encodings (i : Nat) (f : File) : (s.setFile i f).encodings = s.encodings := rfl
@[simp] theorem State.setFile_headWait (i : Nat) (f : File) : (s.setFile i f).headWait = s.headWait := rfl
@[simp] theorem State.setFile_storeFullEpisode (i : Nat) (f : File) : (s.setFile i f).storeFullEpisode = s.storeFullEpisode := rfl
@[simp] theorem State.setFile_storePort (i : Nat) (f : File) : (s.setFile i f).storePort = s.storePort := rfl
@[simp] theorem State.setFile_holds (i : Nat) (f : File) : (s.setFile i f).holds = s.holds := rfl
@[simp] theorem State.setFile_pass (i : Nat) (f : File) : (s.setFile i f).pass = s.pass := rfl
@[simp] theorem State.setFile_passWoken (i : Nat) (f : File) : (s.setFile i f).passWoken = s.passWoken := rfl
@[simp] theorem State.setFile_sweep (i : Nat) (f : File) : (s.setFile i f).sweep = s.sweep := rfl
@[simp] theorem State.setFile_findings (i : Nat) (f : File) : (s.setFile i f).findings = s.findings := rfl
@[simp] theorem State.setFile_trail (i : Nat) (f : File) : (s.setFile i f).trail = s.trail := rfl
@[simp] theorem State.setFile_cursors (i : Nat) (f : File) : (s.setFile i f).cursors = s.cursors := rfl
@[simp] theorem State.setFile_clock (i : Nat) (f : File) : (s.setFile i f).clock = s.clock := rfl

/-! ### dropFile -/

@[simp] theorem State.dropFile_pending (i : Nat) : (s.dropFile i).pending = s.pending := rfl
@[simp] theorem State.dropFile_powered (i : Nat) : (s.dropFile i).powered = s.powered := rfl
@[simp] theorem State.dropFile_controller (i : Nat) : (s.dropFile i).controller = s.controller := rfl
@[simp] theorem State.dropFile_resetLow (i : Nat) : (s.dropFile i).resetLow = s.resetLow := rfl
@[simp] theorem State.dropFile_initialised (i : Nat) : (s.dropFile i).initialised = s.initialised := rfl
@[simp] theorem State.dropFile_settings (i : Nat) : (s.dropFile i).settings = s.settings := rfl
@[simp] theorem State.dropFile_ports (i : Nat) : (s.dropFile i).ports = s.ports := rfl
@[simp] theorem State.dropFile_catalogueBusy (i : Nat) : (s.dropFile i).catalogueBusy = s.catalogueBusy := rfl
@[simp] theorem State.dropFile_openings (i : Nat) : (s.dropFile i).openings = s.openings := rfl
@[simp] theorem State.dropFile_replies (i : Nat) : (s.dropFile i).replies = s.replies := rfl
@[simp] theorem State.dropFile_files (i : Nat) : (s.dropFile i).files = Sparse.set none i none s.files := rfl
@[simp] theorem State.dropFile_segments (i : Nat) : (s.dropFile i).segments = s.segments := rfl
@[simp] theorem State.dropFile_freeList (i : Nat) : (s.dropFile i).freeList = s.freeList := rfl
@[simp] theorem State.dropFile_switches (i : Nat) : (s.dropFile i).switches = s.switches := rfl
@[simp] theorem State.dropFile_store (i : Nat) : (s.dropFile i).store = s.store := rfl
@[simp] theorem State.dropFile_streams (i : Nat) : (s.dropFile i).streams = s.streams := rfl
@[simp] theorem State.dropFile_staging (i : Nat) : (s.dropFile i).staging = s.staging := rfl
@[simp] theorem State.dropFile_blocked (i : Nat) : (s.dropFile i).blocked = s.blocked := rfl
@[simp] theorem State.dropFile_completions (i : Nat) : (s.dropFile i).completions = s.completions := rfl
@[simp] theorem State.dropFile_waiting (i : Nat) : (s.dropFile i).waiting = s.waiting := rfl
@[simp] theorem State.dropFile_encodings (i : Nat) : (s.dropFile i).encodings = s.encodings := rfl
@[simp] theorem State.dropFile_headWait (i : Nat) : (s.dropFile i).headWait = s.headWait := rfl
@[simp] theorem State.dropFile_storeFullEpisode (i : Nat) : (s.dropFile i).storeFullEpisode = s.storeFullEpisode := rfl
@[simp] theorem State.dropFile_storePort (i : Nat) : (s.dropFile i).storePort = s.storePort := rfl
@[simp] theorem State.dropFile_holds (i : Nat) : (s.dropFile i).holds = s.holds := rfl
@[simp] theorem State.dropFile_pass (i : Nat) : (s.dropFile i).pass = s.pass := rfl
@[simp] theorem State.dropFile_passWoken (i : Nat) : (s.dropFile i).passWoken = s.passWoken := rfl
@[simp] theorem State.dropFile_sweep (i : Nat) : (s.dropFile i).sweep = s.sweep := rfl
@[simp] theorem State.dropFile_findings (i : Nat) : (s.dropFile i).findings = s.findings := rfl
@[simp] theorem State.dropFile_trail (i : Nat) : (s.dropFile i).trail = s.trail := rfl
@[simp] theorem State.dropFile_cursors (i : Nat) : (s.dropFile i).cursors = s.cursors := rfl
@[simp] theorem State.dropFile_clock (i : Nat) : (s.dropFile i).clock = s.clock := rfl

/-! ### setSegment -/

@[simp] theorem State.setSegment_pending (n : Nat) (e : Segment) : (s.setSegment n e).pending = s.pending := rfl
@[simp] theorem State.setSegment_powered (n : Nat) (e : Segment) : (s.setSegment n e).powered = s.powered := rfl
@[simp] theorem State.setSegment_controller (n : Nat) (e : Segment) : (s.setSegment n e).controller = s.controller := rfl
@[simp] theorem State.setSegment_resetLow (n : Nat) (e : Segment) : (s.setSegment n e).resetLow = s.resetLow := rfl
@[simp] theorem State.setSegment_initialised (n : Nat) (e : Segment) : (s.setSegment n e).initialised = s.initialised := rfl
@[simp] theorem State.setSegment_settings (n : Nat) (e : Segment) : (s.setSegment n e).settings = s.settings := rfl
@[simp] theorem State.setSegment_ports (n : Nat) (e : Segment) : (s.setSegment n e).ports = s.ports := rfl
@[simp] theorem State.setSegment_catalogueBusy (n : Nat) (e : Segment) : (s.setSegment n e).catalogueBusy = s.catalogueBusy := rfl
@[simp] theorem State.setSegment_openings (n : Nat) (e : Segment) : (s.setSegment n e).openings = s.openings := rfl
@[simp] theorem State.setSegment_replies (n : Nat) (e : Segment) : (s.setSegment n e).replies = s.replies := rfl
@[simp] theorem State.setSegment_files (n : Nat) (e : Segment) : (s.setSegment n e).files = s.files := rfl
@[simp] theorem State.setSegment_segments (n : Nat) (e : Segment) : (s.setSegment n e).segments = Sparse.set {} n e s.segments := rfl
@[simp] theorem State.setSegment_freeList (n : Nat) (e : Segment) : (s.setSegment n e).freeList = s.freeList := rfl
@[simp] theorem State.setSegment_switches (n : Nat) (e : Segment) : (s.setSegment n e).switches = s.switches := rfl
@[simp] theorem State.setSegment_store (n : Nat) (e : Segment) : (s.setSegment n e).store = s.store := rfl
@[simp] theorem State.setSegment_streams (n : Nat) (e : Segment) : (s.setSegment n e).streams = s.streams := rfl
@[simp] theorem State.setSegment_staging (n : Nat) (e : Segment) : (s.setSegment n e).staging = s.staging := rfl
@[simp] theorem State.setSegment_blocked (n : Nat) (e : Segment) : (s.setSegment n e).blocked = s.blocked := rfl
@[simp] theorem State.setSegment_completions (n : Nat) (e : Segment) : (s.setSegment n e).completions = s.completions := rfl
@[simp] theorem State.setSegment_waiting (n : Nat) (e : Segment) : (s.setSegment n e).waiting = s.waiting := rfl
@[simp] theorem State.setSegment_encodings (n : Nat) (e : Segment) : (s.setSegment n e).encodings = s.encodings := rfl
@[simp] theorem State.setSegment_headWait (n : Nat) (e : Segment) : (s.setSegment n e).headWait = s.headWait := rfl
@[simp] theorem State.setSegment_storeFullEpisode (n : Nat) (e : Segment) : (s.setSegment n e).storeFullEpisode = s.storeFullEpisode := rfl
@[simp] theorem State.setSegment_storePort (n : Nat) (e : Segment) : (s.setSegment n e).storePort = s.storePort := rfl
@[simp] theorem State.setSegment_holds (n : Nat) (e : Segment) : (s.setSegment n e).holds = s.holds := rfl
@[simp] theorem State.setSegment_pass (n : Nat) (e : Segment) : (s.setSegment n e).pass = s.pass := rfl
@[simp] theorem State.setSegment_passWoken (n : Nat) (e : Segment) : (s.setSegment n e).passWoken = s.passWoken := rfl
@[simp] theorem State.setSegment_sweep (n : Nat) (e : Segment) : (s.setSegment n e).sweep = s.sweep := rfl
@[simp] theorem State.setSegment_findings (n : Nat) (e : Segment) : (s.setSegment n e).findings = s.findings := rfl
@[simp] theorem State.setSegment_trail (n : Nat) (e : Segment) : (s.setSegment n e).trail = s.trail := rfl
@[simp] theorem State.setSegment_cursors (n : Nat) (e : Segment) : (s.setSegment n e).cursors = s.cursors := rfl
@[simp] theorem State.setSegment_clock (n : Nat) (e : Segment) : (s.setSegment n e).clock = s.clock := rfl

/-! ### setSwitch -/

@[simp] theorem State.setSwitch_pending (w : Nat) (e : SwitchEntry) : (s.setSwitch w e).pending = s.pending := rfl
@[simp] theorem State.setSwitch_powered (w : Nat) (e : SwitchEntry) : (s.setSwitch w e).powered = s.powered := rfl
@[simp] theorem State.setSwitch_controller (w : Nat) (e : SwitchEntry) : (s.setSwitch w e).controller = s.controller := rfl
@[simp] theorem State.setSwitch_resetLow (w : Nat) (e : SwitchEntry) : (s.setSwitch w e).resetLow = s.resetLow := rfl
@[simp] theorem State.setSwitch_initialised (w : Nat) (e : SwitchEntry) : (s.setSwitch w e).initialised = s.initialised := rfl
@[simp] theorem State.setSwitch_settings (w : Nat) (e : SwitchEntry) : (s.setSwitch w e).settings = s.settings := rfl
@[simp] theorem State.setSwitch_ports (w : Nat) (e : SwitchEntry) : (s.setSwitch w e).ports = s.ports := rfl
@[simp] theorem State.setSwitch_catalogueBusy (w : Nat) (e : SwitchEntry) : (s.setSwitch w e).catalogueBusy = s.catalogueBusy := rfl
@[simp] theorem State.setSwitch_openings (w : Nat) (e : SwitchEntry) : (s.setSwitch w e).openings = s.openings := rfl
@[simp] theorem State.setSwitch_replies (w : Nat) (e : SwitchEntry) : (s.setSwitch w e).replies = s.replies := rfl
@[simp] theorem State.setSwitch_files (w : Nat) (e : SwitchEntry) : (s.setSwitch w e).files = s.files := rfl
@[simp] theorem State.setSwitch_segments (w : Nat) (e : SwitchEntry) : (s.setSwitch w e).segments = s.segments := rfl
@[simp] theorem State.setSwitch_freeList (w : Nat) (e : SwitchEntry) : (s.setSwitch w e).freeList = s.freeList := rfl
@[simp] theorem State.setSwitch_switches (w : Nat) (e : SwitchEntry) : (s.setSwitch w e).switches = Sparse.set {} w e s.switches := rfl
@[simp] theorem State.setSwitch_store (w : Nat) (e : SwitchEntry) : (s.setSwitch w e).store = s.store := rfl
@[simp] theorem State.setSwitch_streams (w : Nat) (e : SwitchEntry) : (s.setSwitch w e).streams = s.streams := rfl
@[simp] theorem State.setSwitch_staging (w : Nat) (e : SwitchEntry) : (s.setSwitch w e).staging = s.staging := rfl
@[simp] theorem State.setSwitch_blocked (w : Nat) (e : SwitchEntry) : (s.setSwitch w e).blocked = s.blocked := rfl
@[simp] theorem State.setSwitch_completions (w : Nat) (e : SwitchEntry) : (s.setSwitch w e).completions = s.completions := rfl
@[simp] theorem State.setSwitch_waiting (w : Nat) (e : SwitchEntry) : (s.setSwitch w e).waiting = s.waiting := rfl
@[simp] theorem State.setSwitch_encodings (w : Nat) (e : SwitchEntry) : (s.setSwitch w e).encodings = s.encodings := rfl
@[simp] theorem State.setSwitch_headWait (w : Nat) (e : SwitchEntry) : (s.setSwitch w e).headWait = s.headWait := rfl
@[simp] theorem State.setSwitch_storeFullEpisode (w : Nat) (e : SwitchEntry) : (s.setSwitch w e).storeFullEpisode = s.storeFullEpisode := rfl
@[simp] theorem State.setSwitch_storePort (w : Nat) (e : SwitchEntry) : (s.setSwitch w e).storePort = s.storePort := rfl
@[simp] theorem State.setSwitch_holds (w : Nat) (e : SwitchEntry) : (s.setSwitch w e).holds = s.holds := rfl
@[simp] theorem State.setSwitch_pass (w : Nat) (e : SwitchEntry) : (s.setSwitch w e).pass = s.pass := rfl
@[simp] theorem State.setSwitch_passWoken (w : Nat) (e : SwitchEntry) : (s.setSwitch w e).passWoken = s.passWoken := rfl
@[simp] theorem State.setSwitch_sweep (w : Nat) (e : SwitchEntry) : (s.setSwitch w e).sweep = s.sweep := rfl
@[simp] theorem State.setSwitch_findings (w : Nat) (e : SwitchEntry) : (s.setSwitch w e).findings = s.findings := rfl
@[simp] theorem State.setSwitch_trail (w : Nat) (e : SwitchEntry) : (s.setSwitch w e).trail = s.trail := rfl
@[simp] theorem State.setSwitch_cursors (w : Nat) (e : SwitchEntry) : (s.setSwitch w e).cursors = s.cursors := rfl
@[simp] theorem State.setSwitch_clock (w : Nat) (e : SwitchEntry) : (s.setSwitch w e).clock = s.clock := rfl

/-! ### form -/

@[simp] theorem State.form_pending (p : PortId) (tag : Byte) (status : Status) (body : ReplyBody) (entries : List Outstanding) : (s.form p tag status body entries).pending = s.pending := rfl
@[simp] theorem State.form_powered (p : PortId) (tag : Byte) (status : Status) (body : ReplyBody) (entries : List Outstanding) : (s.form p tag status body entries).powered = s.powered := rfl
@[simp] theorem State.form_controller (p : PortId) (tag : Byte) (status : Status) (body : ReplyBody) (entries : List Outstanding) : (s.form p tag status body entries).controller = s.controller := rfl
@[simp] theorem State.form_resetLow (p : PortId) (tag : Byte) (status : Status) (body : ReplyBody) (entries : List Outstanding) : (s.form p tag status body entries).resetLow = s.resetLow := rfl
@[simp] theorem State.form_initialised (p : PortId) (tag : Byte) (status : Status) (body : ReplyBody) (entries : List Outstanding) : (s.form p tag status body entries).initialised = s.initialised := rfl
@[simp] theorem State.form_settings (p : PortId) (tag : Byte) (status : Status) (body : ReplyBody) (entries : List Outstanding) : (s.form p tag status body entries).settings = s.settings := rfl
@[simp] theorem State.form_ports (p : PortId) (tag : Byte) (status : Status) (body : ReplyBody) (entries : List Outstanding) : (s.form p tag status body entries).ports = if s.ports[p].lineBusy then s.ports.set p { s.ports[p] with outstanding := s.ports[p].outstanding ++ entries, unsent := s.ports[p].unsent ++ [⟨p, tag, status, s.byteOrder p, body⟩] } else s.ports := rfl
@[simp] theorem State.form_catalogueBusy (p : PortId) (tag : Byte) (status : Status) (body : ReplyBody) (entries : List Outstanding) : (s.form p tag status body entries).catalogueBusy = s.catalogueBusy := rfl
@[simp] theorem State.form_openings (p : PortId) (tag : Byte) (status : Status) (body : ReplyBody) (entries : List Outstanding) : (s.form p tag status body entries).openings = s.openings := rfl
@[simp] theorem State.form_replies (p : PortId) (tag : Byte) (status : Status) (body : ReplyBody) (entries : List Outstanding) : (s.form p tag status body entries).replies = if s.ports[p].lineBusy then s.replies else s.replies ++ [⟨p, tag, status, s.byteOrder p, body⟩] := rfl
@[simp] theorem State.form_files (p : PortId) (tag : Byte) (status : Status) (body : ReplyBody) (entries : List Outstanding) : (s.form p tag status body entries).files = s.files := rfl
@[simp] theorem State.form_segments (p : PortId) (tag : Byte) (status : Status) (body : ReplyBody) (entries : List Outstanding) : (s.form p tag status body entries).segments = s.segments := rfl
@[simp] theorem State.form_freeList (p : PortId) (tag : Byte) (status : Status) (body : ReplyBody) (entries : List Outstanding) : (s.form p tag status body entries).freeList = s.freeList := rfl
@[simp] theorem State.form_switches (p : PortId) (tag : Byte) (status : Status) (body : ReplyBody) (entries : List Outstanding) : (s.form p tag status body entries).switches = s.switches := rfl
@[simp] theorem State.form_store (p : PortId) (tag : Byte) (status : Status) (body : ReplyBody) (entries : List Outstanding) : (s.form p tag status body entries).store = s.store := rfl
@[simp] theorem State.form_streams (p : PortId) (tag : Byte) (status : Status) (body : ReplyBody) (entries : List Outstanding) : (s.form p tag status body entries).streams = s.streams := rfl
@[simp] theorem State.form_staging (p : PortId) (tag : Byte) (status : Status) (body : ReplyBody) (entries : List Outstanding) : (s.form p tag status body entries).staging = s.staging := rfl
@[simp] theorem State.form_blocked (p : PortId) (tag : Byte) (status : Status) (body : ReplyBody) (entries : List Outstanding) : (s.form p tag status body entries).blocked = s.blocked := rfl
@[simp] theorem State.form_completions (p : PortId) (tag : Byte) (status : Status) (body : ReplyBody) (entries : List Outstanding) : (s.form p tag status body entries).completions = s.completions := rfl
@[simp] theorem State.form_waiting (p : PortId) (tag : Byte) (status : Status) (body : ReplyBody) (entries : List Outstanding) : (s.form p tag status body entries).waiting = s.waiting := rfl
@[simp] theorem State.form_encodings (p : PortId) (tag : Byte) (status : Status) (body : ReplyBody) (entries : List Outstanding) : (s.form p tag status body entries).encodings = s.encodings := rfl
@[simp] theorem State.form_headWait (p : PortId) (tag : Byte) (status : Status) (body : ReplyBody) (entries : List Outstanding) : (s.form p tag status body entries).headWait = s.headWait := rfl
@[simp] theorem State.form_storeFullEpisode (p : PortId) (tag : Byte) (status : Status) (body : ReplyBody) (entries : List Outstanding) : (s.form p tag status body entries).storeFullEpisode = s.storeFullEpisode := rfl
@[simp] theorem State.form_storePort (p : PortId) (tag : Byte) (status : Status) (body : ReplyBody) (entries : List Outstanding) : (s.form p tag status body entries).storePort = s.storePort := rfl
@[simp] theorem State.form_holds (p : PortId) (tag : Byte) (status : Status) (body : ReplyBody) (entries : List Outstanding) : (s.form p tag status body entries).holds = s.holds := rfl
@[simp] theorem State.form_pass (p : PortId) (tag : Byte) (status : Status) (body : ReplyBody) (entries : List Outstanding) : (s.form p tag status body entries).pass = s.pass := rfl
@[simp] theorem State.form_passWoken (p : PortId) (tag : Byte) (status : Status) (body : ReplyBody) (entries : List Outstanding) : (s.form p tag status body entries).passWoken = s.passWoken := rfl
@[simp] theorem State.form_sweep (p : PortId) (tag : Byte) (status : Status) (body : ReplyBody) (entries : List Outstanding) : (s.form p tag status body entries).sweep = s.sweep := rfl
@[simp] theorem State.form_findings (p : PortId) (tag : Byte) (status : Status) (body : ReplyBody) (entries : List Outstanding) : (s.form p tag status body entries).findings = s.findings := rfl
@[simp] theorem State.form_trail (p : PortId) (tag : Byte) (status : Status) (body : ReplyBody) (entries : List Outstanding) : (s.form p tag status body entries).trail = s.trail := rfl
@[simp] theorem State.form_cursors (p : PortId) (tag : Byte) (status : Status) (body : ReplyBody) (entries : List Outstanding) : (s.form p tag status body entries).cursors = s.cursors := rfl
@[simp] theorem State.form_clock (p : PortId) (tag : Byte) (status : Status) (body : ReplyBody) (entries : List Outstanding) : (s.form p tag status body entries).clock = s.clock := rfl

/-! ### turnAway -/

@[simp] theorem State.turnAway_pending (p : PortId) (tag : Byte) (status : Status) : (s.turnAway p tag status).pending = s.pending := rfl
@[simp] theorem State.turnAway_powered (p : PortId) (tag : Byte) (status : Status) : (s.turnAway p tag status).powered = s.powered := rfl
@[simp] theorem State.turnAway_controller (p : PortId) (tag : Byte) (status : Status) : (s.turnAway p tag status).controller = s.controller := rfl
@[simp] theorem State.turnAway_resetLow (p : PortId) (tag : Byte) (status : Status) : (s.turnAway p tag status).resetLow = s.resetLow := rfl
@[simp] theorem State.turnAway_initialised (p : PortId) (tag : Byte) (status : Status) : (s.turnAway p tag status).initialised = s.initialised := rfl
@[simp] theorem State.turnAway_settings (p : PortId) (tag : Byte) (status : Status) : (s.turnAway p tag status).settings = s.settings := rfl
@[simp] theorem State.turnAway_ports (p : PortId) (tag : Byte) (status : Status) : (s.turnAway p tag status).ports = if s.ports[p].lineBusy then s.ports.set p { s.ports[p] with outstanding := s.ports[p].outstanding ++ [], unsent := s.ports[p].unsent ++ [⟨p, tag, status, s.byteOrder p, .empty⟩] } else s.ports := rfl
@[simp] theorem State.turnAway_catalogueBusy (p : PortId) (tag : Byte) (status : Status) : (s.turnAway p tag status).catalogueBusy = s.catalogueBusy := rfl
@[simp] theorem State.turnAway_openings (p : PortId) (tag : Byte) (status : Status) : (s.turnAway p tag status).openings = s.openings := rfl
@[simp] theorem State.turnAway_replies (p : PortId) (tag : Byte) (status : Status) : (s.turnAway p tag status).replies = if s.ports[p].lineBusy then s.replies else s.replies ++ [⟨p, tag, status, s.byteOrder p, .empty⟩] := rfl
@[simp] theorem State.turnAway_files (p : PortId) (tag : Byte) (status : Status) : (s.turnAway p tag status).files = s.files := rfl
@[simp] theorem State.turnAway_segments (p : PortId) (tag : Byte) (status : Status) : (s.turnAway p tag status).segments = s.segments := rfl
@[simp] theorem State.turnAway_freeList (p : PortId) (tag : Byte) (status : Status) : (s.turnAway p tag status).freeList = s.freeList := rfl
@[simp] theorem State.turnAway_switches (p : PortId) (tag : Byte) (status : Status) : (s.turnAway p tag status).switches = s.switches := rfl
@[simp] theorem State.turnAway_store (p : PortId) (tag : Byte) (status : Status) : (s.turnAway p tag status).store = s.store := rfl
@[simp] theorem State.turnAway_streams (p : PortId) (tag : Byte) (status : Status) : (s.turnAway p tag status).streams = s.streams := rfl
@[simp] theorem State.turnAway_staging (p : PortId) (tag : Byte) (status : Status) : (s.turnAway p tag status).staging = s.staging := rfl
@[simp] theorem State.turnAway_blocked (p : PortId) (tag : Byte) (status : Status) : (s.turnAway p tag status).blocked = s.blocked := rfl
@[simp] theorem State.turnAway_completions (p : PortId) (tag : Byte) (status : Status) : (s.turnAway p tag status).completions = s.completions := rfl
@[simp] theorem State.turnAway_waiting (p : PortId) (tag : Byte) (status : Status) : (s.turnAway p tag status).waiting = s.waiting := rfl
@[simp] theorem State.turnAway_encodings (p : PortId) (tag : Byte) (status : Status) : (s.turnAway p tag status).encodings = s.encodings := rfl
@[simp] theorem State.turnAway_headWait (p : PortId) (tag : Byte) (status : Status) : (s.turnAway p tag status).headWait = s.headWait := rfl
@[simp] theorem State.turnAway_storeFullEpisode (p : PortId) (tag : Byte) (status : Status) : (s.turnAway p tag status).storeFullEpisode = s.storeFullEpisode := rfl
@[simp] theorem State.turnAway_storePort (p : PortId) (tag : Byte) (status : Status) : (s.turnAway p tag status).storePort = s.storePort := rfl
@[simp] theorem State.turnAway_holds (p : PortId) (tag : Byte) (status : Status) : (s.turnAway p tag status).holds = s.holds := rfl
@[simp] theorem State.turnAway_pass (p : PortId) (tag : Byte) (status : Status) : (s.turnAway p tag status).pass = s.pass := rfl
@[simp] theorem State.turnAway_passWoken (p : PortId) (tag : Byte) (status : Status) : (s.turnAway p tag status).passWoken = s.passWoken := rfl
@[simp] theorem State.turnAway_sweep (p : PortId) (tag : Byte) (status : Status) : (s.turnAway p tag status).sweep = s.sweep := rfl
@[simp] theorem State.turnAway_findings (p : PortId) (tag : Byte) (status : Status) : (s.turnAway p tag status).findings = s.findings := rfl
@[simp] theorem State.turnAway_trail (p : PortId) (tag : Byte) (status : Status) : (s.turnAway p tag status).trail = s.trail := rfl
@[simp] theorem State.turnAway_cursors (p : PortId) (tag : Byte) (status : Status) : (s.turnAway p tag status).cursors = s.cursors := rfl
@[simp] theorem State.turnAway_clock (p : PortId) (tag : Byte) (status : Status) : (s.turnAway p tag status).clock = s.clock := rfl

/-! ### reply -/

@[simp] theorem State.reply_pending (p : PortId) (tag : Byte) (status : Status) (body : ReplyBody) : (s.reply p tag status body).pending = s.pending := rfl
@[simp] theorem State.reply_powered (p : PortId) (tag : Byte) (status : Status) (body : ReplyBody) : (s.reply p tag status body).powered = s.powered := rfl
@[simp] theorem State.reply_controller (p : PortId) (tag : Byte) (status : Status) (body : ReplyBody) : (s.reply p tag status body).controller = s.controller := rfl
@[simp] theorem State.reply_resetLow (p : PortId) (tag : Byte) (status : Status) (body : ReplyBody) : (s.reply p tag status body).resetLow = s.resetLow := rfl
@[simp] theorem State.reply_initialised (p : PortId) (tag : Byte) (status : Status) (body : ReplyBody) : (s.reply p tag status body).initialised = s.initialised := rfl
@[simp] theorem State.reply_settings (p : PortId) (tag : Byte) (status : Status) (body : ReplyBody) : (s.reply p tag status body).settings = s.settings := rfl
@[simp] theorem State.reply_ports (p : PortId) (tag : Byte) (status : Status) (body : ReplyBody) : (s.reply p tag status body).ports = if s.ports[p].lineBusy then s.ports.set p { s.ports[p] with outstanding := s.ports[p].outstanding ++ [⟨tag, .answered⟩], unsent := s.ports[p].unsent ++ [⟨p, tag, status, s.byteOrder p, body⟩] } else s.ports := rfl
@[simp] theorem State.reply_catalogueBusy (p : PortId) (tag : Byte) (status : Status) (body : ReplyBody) : (s.reply p tag status body).catalogueBusy = s.catalogueBusy := rfl
@[simp] theorem State.reply_openings (p : PortId) (tag : Byte) (status : Status) (body : ReplyBody) : (s.reply p tag status body).openings = s.openings := rfl
@[simp] theorem State.reply_replies (p : PortId) (tag : Byte) (status : Status) (body : ReplyBody) : (s.reply p tag status body).replies = if s.ports[p].lineBusy then s.replies else s.replies ++ [⟨p, tag, status, s.byteOrder p, body⟩] := rfl
@[simp] theorem State.reply_files (p : PortId) (tag : Byte) (status : Status) (body : ReplyBody) : (s.reply p tag status body).files = s.files := rfl
@[simp] theorem State.reply_segments (p : PortId) (tag : Byte) (status : Status) (body : ReplyBody) : (s.reply p tag status body).segments = s.segments := rfl
@[simp] theorem State.reply_freeList (p : PortId) (tag : Byte) (status : Status) (body : ReplyBody) : (s.reply p tag status body).freeList = s.freeList := rfl
@[simp] theorem State.reply_switches (p : PortId) (tag : Byte) (status : Status) (body : ReplyBody) : (s.reply p tag status body).switches = s.switches := rfl
@[simp] theorem State.reply_store (p : PortId) (tag : Byte) (status : Status) (body : ReplyBody) : (s.reply p tag status body).store = s.store := rfl
@[simp] theorem State.reply_streams (p : PortId) (tag : Byte) (status : Status) (body : ReplyBody) : (s.reply p tag status body).streams = s.streams := rfl
@[simp] theorem State.reply_staging (p : PortId) (tag : Byte) (status : Status) (body : ReplyBody) : (s.reply p tag status body).staging = s.staging := rfl
@[simp] theorem State.reply_blocked (p : PortId) (tag : Byte) (status : Status) (body : ReplyBody) : (s.reply p tag status body).blocked = s.blocked := rfl
@[simp] theorem State.reply_completions (p : PortId) (tag : Byte) (status : Status) (body : ReplyBody) : (s.reply p tag status body).completions = s.completions := rfl
@[simp] theorem State.reply_waiting (p : PortId) (tag : Byte) (status : Status) (body : ReplyBody) : (s.reply p tag status body).waiting = s.waiting := rfl
@[simp] theorem State.reply_encodings (p : PortId) (tag : Byte) (status : Status) (body : ReplyBody) : (s.reply p tag status body).encodings = s.encodings := rfl
@[simp] theorem State.reply_headWait (p : PortId) (tag : Byte) (status : Status) (body : ReplyBody) : (s.reply p tag status body).headWait = s.headWait := rfl
@[simp] theorem State.reply_storeFullEpisode (p : PortId) (tag : Byte) (status : Status) (body : ReplyBody) : (s.reply p tag status body).storeFullEpisode = s.storeFullEpisode := rfl
@[simp] theorem State.reply_storePort (p : PortId) (tag : Byte) (status : Status) (body : ReplyBody) : (s.reply p tag status body).storePort = s.storePort := rfl
@[simp] theorem State.reply_holds (p : PortId) (tag : Byte) (status : Status) (body : ReplyBody) : (s.reply p tag status body).holds = s.holds := rfl
@[simp] theorem State.reply_pass (p : PortId) (tag : Byte) (status : Status) (body : ReplyBody) : (s.reply p tag status body).pass = s.pass := rfl
@[simp] theorem State.reply_passWoken (p : PortId) (tag : Byte) (status : Status) (body : ReplyBody) : (s.reply p tag status body).passWoken = s.passWoken := rfl
@[simp] theorem State.reply_sweep (p : PortId) (tag : Byte) (status : Status) (body : ReplyBody) : (s.reply p tag status body).sweep = s.sweep := rfl
@[simp] theorem State.reply_findings (p : PortId) (tag : Byte) (status : Status) (body : ReplyBody) : (s.reply p tag status body).findings = s.findings := rfl
@[simp] theorem State.reply_trail (p : PortId) (tag : Byte) (status : Status) (body : ReplyBody) : (s.reply p tag status body).trail = s.trail := rfl
@[simp] theorem State.reply_cursors (p : PortId) (tag : Byte) (status : Status) (body : ReplyBody) : (s.reply p tag status body).cursors = s.cursors := rfl
@[simp] theorem State.reply_clock (p : PortId) (tag : Byte) (status : Status) (body : ReplyBody) : (s.reply p tag status body).clock = s.clock := rfl

/-! ### refuse -/

@[simp] theorem State.refuse_pending (p : PortId) (tag : Byte) (status : Status) : (s.refuse p tag status).pending = s.pending := rfl
@[simp] theorem State.refuse_powered (p : PortId) (tag : Byte) (status : Status) : (s.refuse p tag status).powered = s.powered := rfl
@[simp] theorem State.refuse_controller (p : PortId) (tag : Byte) (status : Status) : (s.refuse p tag status).controller = s.controller := rfl
@[simp] theorem State.refuse_resetLow (p : PortId) (tag : Byte) (status : Status) : (s.refuse p tag status).resetLow = s.resetLow := rfl
@[simp] theorem State.refuse_initialised (p : PortId) (tag : Byte) (status : Status) : (s.refuse p tag status).initialised = s.initialised := rfl
@[simp] theorem State.refuse_settings (p : PortId) (tag : Byte) (status : Status) : (s.refuse p tag status).settings = s.settings := rfl
@[simp] theorem State.refuse_ports (p : PortId) (tag : Byte) (status : Status) : (s.refuse p tag status).ports = if s.ports[p].lineBusy then s.ports.set p { s.ports[p] with outstanding := s.ports[p].outstanding ++ [⟨tag, .answered⟩], unsent := s.ports[p].unsent ++ [⟨p, tag, status, s.byteOrder p, .empty⟩] } else s.ports := rfl
@[simp] theorem State.refuse_catalogueBusy (p : PortId) (tag : Byte) (status : Status) : (s.refuse p tag status).catalogueBusy = s.catalogueBusy := rfl
@[simp] theorem State.refuse_openings (p : PortId) (tag : Byte) (status : Status) : (s.refuse p tag status).openings = s.openings := rfl
@[simp] theorem State.refuse_replies (p : PortId) (tag : Byte) (status : Status) : (s.refuse p tag status).replies = if s.ports[p].lineBusy then s.replies else s.replies ++ [⟨p, tag, status, s.byteOrder p, .empty⟩] := rfl
@[simp] theorem State.refuse_files (p : PortId) (tag : Byte) (status : Status) : (s.refuse p tag status).files = s.files := rfl
@[simp] theorem State.refuse_segments (p : PortId) (tag : Byte) (status : Status) : (s.refuse p tag status).segments = s.segments := rfl
@[simp] theorem State.refuse_freeList (p : PortId) (tag : Byte) (status : Status) : (s.refuse p tag status).freeList = s.freeList := rfl
@[simp] theorem State.refuse_switches (p : PortId) (tag : Byte) (status : Status) : (s.refuse p tag status).switches = s.switches := rfl
@[simp] theorem State.refuse_store (p : PortId) (tag : Byte) (status : Status) : (s.refuse p tag status).store = s.store := rfl
@[simp] theorem State.refuse_streams (p : PortId) (tag : Byte) (status : Status) : (s.refuse p tag status).streams = s.streams := rfl
@[simp] theorem State.refuse_staging (p : PortId) (tag : Byte) (status : Status) : (s.refuse p tag status).staging = s.staging := rfl
@[simp] theorem State.refuse_blocked (p : PortId) (tag : Byte) (status : Status) : (s.refuse p tag status).blocked = s.blocked := rfl
@[simp] theorem State.refuse_completions (p : PortId) (tag : Byte) (status : Status) : (s.refuse p tag status).completions = s.completions := rfl
@[simp] theorem State.refuse_waiting (p : PortId) (tag : Byte) (status : Status) : (s.refuse p tag status).waiting = s.waiting := rfl
@[simp] theorem State.refuse_encodings (p : PortId) (tag : Byte) (status : Status) : (s.refuse p tag status).encodings = s.encodings := rfl
@[simp] theorem State.refuse_headWait (p : PortId) (tag : Byte) (status : Status) : (s.refuse p tag status).headWait = s.headWait := rfl
@[simp] theorem State.refuse_storeFullEpisode (p : PortId) (tag : Byte) (status : Status) : (s.refuse p tag status).storeFullEpisode = s.storeFullEpisode := rfl
@[simp] theorem State.refuse_storePort (p : PortId) (tag : Byte) (status : Status) : (s.refuse p tag status).storePort = s.storePort := rfl
@[simp] theorem State.refuse_holds (p : PortId) (tag : Byte) (status : Status) : (s.refuse p tag status).holds = s.holds := rfl
@[simp] theorem State.refuse_pass (p : PortId) (tag : Byte) (status : Status) : (s.refuse p tag status).pass = s.pass := rfl
@[simp] theorem State.refuse_passWoken (p : PortId) (tag : Byte) (status : Status) : (s.refuse p tag status).passWoken = s.passWoken := rfl
@[simp] theorem State.refuse_sweep (p : PortId) (tag : Byte) (status : Status) : (s.refuse p tag status).sweep = s.sweep := rfl
@[simp] theorem State.refuse_findings (p : PortId) (tag : Byte) (status : Status) : (s.refuse p tag status).findings = s.findings := rfl
@[simp] theorem State.refuse_trail (p : PortId) (tag : Byte) (status : Status) : (s.refuse p tag status).trail = s.trail := rfl
@[simp] theorem State.refuse_cursors (p : PortId) (tag : Byte) (status : Status) : (s.refuse p tag status).cursors = s.cursors := rfl
@[simp] theorem State.refuse_clock (p : PortId) (tag : Byte) (status : Status) : (s.refuse p tag status).clock = s.clock := rfl

/-! ### freeTag -/

@[simp] theorem State.freeTag_pending (p : PortId) (tag : Byte) : (s.freeTag p tag).pending = s.pending := rfl
@[simp] theorem State.freeTag_powered (p : PortId) (tag : Byte) : (s.freeTag p tag).powered = s.powered := rfl
@[simp] theorem State.freeTag_controller (p : PortId) (tag : Byte) : (s.freeTag p tag).controller = s.controller := rfl
@[simp] theorem State.freeTag_resetLow (p : PortId) (tag : Byte) : (s.freeTag p tag).resetLow = s.resetLow := rfl
@[simp] theorem State.freeTag_initialised (p : PortId) (tag : Byte) : (s.freeTag p tag).initialised = s.initialised := rfl
@[simp] theorem State.freeTag_settings (p : PortId) (tag : Byte) : (s.freeTag p tag).settings = s.settings := rfl
@[simp] theorem State.freeTag_ports (p : PortId) (tag : Byte) : (s.freeTag p tag).ports = s.ports.set p { s.ports[p] with outstanding := s.ports[p].outstanding.filter (fun o => o.tag ≠ tag) } := rfl
@[simp] theorem State.freeTag_catalogueBusy (p : PortId) (tag : Byte) : (s.freeTag p tag).catalogueBusy = s.catalogueBusy := rfl
@[simp] theorem State.freeTag_openings (p : PortId) (tag : Byte) : (s.freeTag p tag).openings = s.openings := rfl
@[simp] theorem State.freeTag_replies (p : PortId) (tag : Byte) : (s.freeTag p tag).replies = s.replies := rfl
@[simp] theorem State.freeTag_files (p : PortId) (tag : Byte) : (s.freeTag p tag).files = s.files := rfl
@[simp] theorem State.freeTag_segments (p : PortId) (tag : Byte) : (s.freeTag p tag).segments = s.segments := rfl
@[simp] theorem State.freeTag_freeList (p : PortId) (tag : Byte) : (s.freeTag p tag).freeList = s.freeList := rfl
@[simp] theorem State.freeTag_switches (p : PortId) (tag : Byte) : (s.freeTag p tag).switches = s.switches := rfl
@[simp] theorem State.freeTag_store (p : PortId) (tag : Byte) : (s.freeTag p tag).store = s.store := rfl
@[simp] theorem State.freeTag_streams (p : PortId) (tag : Byte) : (s.freeTag p tag).streams = s.streams := rfl
@[simp] theorem State.freeTag_staging (p : PortId) (tag : Byte) : (s.freeTag p tag).staging = s.staging := rfl
@[simp] theorem State.freeTag_blocked (p : PortId) (tag : Byte) : (s.freeTag p tag).blocked = s.blocked := rfl
@[simp] theorem State.freeTag_completions (p : PortId) (tag : Byte) : (s.freeTag p tag).completions = s.completions := rfl
@[simp] theorem State.freeTag_waiting (p : PortId) (tag : Byte) : (s.freeTag p tag).waiting = s.waiting := rfl
@[simp] theorem State.freeTag_encodings (p : PortId) (tag : Byte) : (s.freeTag p tag).encodings = s.encodings := rfl
@[simp] theorem State.freeTag_headWait (p : PortId) (tag : Byte) : (s.freeTag p tag).headWait = s.headWait := rfl
@[simp] theorem State.freeTag_storeFullEpisode (p : PortId) (tag : Byte) : (s.freeTag p tag).storeFullEpisode = s.storeFullEpisode := rfl
@[simp] theorem State.freeTag_storePort (p : PortId) (tag : Byte) : (s.freeTag p tag).storePort = s.storePort := rfl
@[simp] theorem State.freeTag_holds (p : PortId) (tag : Byte) : (s.freeTag p tag).holds = s.holds := rfl
@[simp] theorem State.freeTag_pass (p : PortId) (tag : Byte) : (s.freeTag p tag).pass = s.pass := rfl
@[simp] theorem State.freeTag_passWoken (p : PortId) (tag : Byte) : (s.freeTag p tag).passWoken = s.passWoken := rfl
@[simp] theorem State.freeTag_sweep (p : PortId) (tag : Byte) : (s.freeTag p tag).sweep = s.sweep := rfl
@[simp] theorem State.freeTag_findings (p : PortId) (tag : Byte) : (s.freeTag p tag).findings = s.findings := rfl
@[simp] theorem State.freeTag_trail (p : PortId) (tag : Byte) : (s.freeTag p tag).trail = s.trail := rfl
@[simp] theorem State.freeTag_cursors (p : PortId) (tag : Byte) : (s.freeTag p tag).cursors = s.cursors := rfl
@[simp] theorem State.freeTag_clock (p : PortId) (tag : Byte) : (s.freeTag p tag).clock = s.clock := rfl

/-! ### setStanding -/

@[simp] theorem State.setStanding_pending (p : PortId) (tag : Byte) (standing : Standing) : (s.setStanding p tag standing).pending = s.pending := rfl
@[simp] theorem State.setStanding_powered (p : PortId) (tag : Byte) (standing : Standing) : (s.setStanding p tag standing).powered = s.powered := rfl
@[simp] theorem State.setStanding_controller (p : PortId) (tag : Byte) (standing : Standing) : (s.setStanding p tag standing).controller = s.controller := rfl
@[simp] theorem State.setStanding_resetLow (p : PortId) (tag : Byte) (standing : Standing) : (s.setStanding p tag standing).resetLow = s.resetLow := rfl
@[simp] theorem State.setStanding_initialised (p : PortId) (tag : Byte) (standing : Standing) : (s.setStanding p tag standing).initialised = s.initialised := rfl
@[simp] theorem State.setStanding_settings (p : PortId) (tag : Byte) (standing : Standing) : (s.setStanding p tag standing).settings = s.settings := rfl
@[simp] theorem State.setStanding_ports (p : PortId) (tag : Byte) (standing : Standing) : (s.setStanding p tag standing).ports = s.ports.set p { s.ports[p] with outstanding := s.ports[p].outstanding.map (fun o => if o.tag = tag then ⟨tag, standing⟩ else o) } := rfl
@[simp] theorem State.setStanding_catalogueBusy (p : PortId) (tag : Byte) (standing : Standing) : (s.setStanding p tag standing).catalogueBusy = s.catalogueBusy := rfl
@[simp] theorem State.setStanding_openings (p : PortId) (tag : Byte) (standing : Standing) : (s.setStanding p tag standing).openings = s.openings := rfl
@[simp] theorem State.setStanding_replies (p : PortId) (tag : Byte) (standing : Standing) : (s.setStanding p tag standing).replies = s.replies := rfl
@[simp] theorem State.setStanding_files (p : PortId) (tag : Byte) (standing : Standing) : (s.setStanding p tag standing).files = s.files := rfl
@[simp] theorem State.setStanding_segments (p : PortId) (tag : Byte) (standing : Standing) : (s.setStanding p tag standing).segments = s.segments := rfl
@[simp] theorem State.setStanding_freeList (p : PortId) (tag : Byte) (standing : Standing) : (s.setStanding p tag standing).freeList = s.freeList := rfl
@[simp] theorem State.setStanding_switches (p : PortId) (tag : Byte) (standing : Standing) : (s.setStanding p tag standing).switches = s.switches := rfl
@[simp] theorem State.setStanding_store (p : PortId) (tag : Byte) (standing : Standing) : (s.setStanding p tag standing).store = s.store := rfl
@[simp] theorem State.setStanding_streams (p : PortId) (tag : Byte) (standing : Standing) : (s.setStanding p tag standing).streams = s.streams := rfl
@[simp] theorem State.setStanding_staging (p : PortId) (tag : Byte) (standing : Standing) : (s.setStanding p tag standing).staging = s.staging := rfl
@[simp] theorem State.setStanding_blocked (p : PortId) (tag : Byte) (standing : Standing) : (s.setStanding p tag standing).blocked = s.blocked := rfl
@[simp] theorem State.setStanding_completions (p : PortId) (tag : Byte) (standing : Standing) : (s.setStanding p tag standing).completions = s.completions := rfl
@[simp] theorem State.setStanding_waiting (p : PortId) (tag : Byte) (standing : Standing) : (s.setStanding p tag standing).waiting = s.waiting := rfl
@[simp] theorem State.setStanding_encodings (p : PortId) (tag : Byte) (standing : Standing) : (s.setStanding p tag standing).encodings = s.encodings := rfl
@[simp] theorem State.setStanding_headWait (p : PortId) (tag : Byte) (standing : Standing) : (s.setStanding p tag standing).headWait = s.headWait := rfl
@[simp] theorem State.setStanding_storeFullEpisode (p : PortId) (tag : Byte) (standing : Standing) : (s.setStanding p tag standing).storeFullEpisode = s.storeFullEpisode := rfl
@[simp] theorem State.setStanding_storePort (p : PortId) (tag : Byte) (standing : Standing) : (s.setStanding p tag standing).storePort = s.storePort := rfl
@[simp] theorem State.setStanding_holds (p : PortId) (tag : Byte) (standing : Standing) : (s.setStanding p tag standing).holds = s.holds := rfl
@[simp] theorem State.setStanding_pass (p : PortId) (tag : Byte) (standing : Standing) : (s.setStanding p tag standing).pass = s.pass := rfl
@[simp] theorem State.setStanding_passWoken (p : PortId) (tag : Byte) (standing : Standing) : (s.setStanding p tag standing).passWoken = s.passWoken := rfl
@[simp] theorem State.setStanding_sweep (p : PortId) (tag : Byte) (standing : Standing) : (s.setStanding p tag standing).sweep = s.sweep := rfl
@[simp] theorem State.setStanding_findings (p : PortId) (tag : Byte) (standing : Standing) : (s.setStanding p tag standing).findings = s.findings := rfl
@[simp] theorem State.setStanding_trail (p : PortId) (tag : Byte) (standing : Standing) : (s.setStanding p tag standing).trail = s.trail := rfl
@[simp] theorem State.setStanding_cursors (p : PortId) (tag : Byte) (standing : Standing) : (s.setStanding p tag standing).cursors = s.cursors := rfl
@[simp] theorem State.setStanding_clock (p : PortId) (tag : Byte) (standing : Standing) : (s.setStanding p tag standing).clock = s.clock := rfl

/-! ### takeEntry -/

@[simp] theorem State.takeEntry_pending (p : PortId) (tag : Byte) (standing : Standing) : (s.takeEntry p tag standing).pending = s.pending := rfl
@[simp] theorem State.takeEntry_powered (p : PortId) (tag : Byte) (standing : Standing) : (s.takeEntry p tag standing).powered = s.powered := rfl
@[simp] theorem State.takeEntry_controller (p : PortId) (tag : Byte) (standing : Standing) : (s.takeEntry p tag standing).controller = s.controller := rfl
@[simp] theorem State.takeEntry_resetLow (p : PortId) (tag : Byte) (standing : Standing) : (s.takeEntry p tag standing).resetLow = s.resetLow := rfl
@[simp] theorem State.takeEntry_initialised (p : PortId) (tag : Byte) (standing : Standing) : (s.takeEntry p tag standing).initialised = s.initialised := rfl
@[simp] theorem State.takeEntry_settings (p : PortId) (tag : Byte) (standing : Standing) : (s.takeEntry p tag standing).settings = s.settings := rfl
@[simp] theorem State.takeEntry_ports (p : PortId) (tag : Byte) (standing : Standing) : (s.takeEntry p tag standing).ports = s.ports.set p { s.ports[p] with outstanding := s.ports[p].outstanding ++ [⟨tag, standing⟩] } := rfl
@[simp] theorem State.takeEntry_catalogueBusy (p : PortId) (tag : Byte) (standing : Standing) : (s.takeEntry p tag standing).catalogueBusy = s.catalogueBusy := rfl
@[simp] theorem State.takeEntry_openings (p : PortId) (tag : Byte) (standing : Standing) : (s.takeEntry p tag standing).openings = s.openings := rfl
@[simp] theorem State.takeEntry_replies (p : PortId) (tag : Byte) (standing : Standing) : (s.takeEntry p tag standing).replies = s.replies := rfl
@[simp] theorem State.takeEntry_files (p : PortId) (tag : Byte) (standing : Standing) : (s.takeEntry p tag standing).files = s.files := rfl
@[simp] theorem State.takeEntry_segments (p : PortId) (tag : Byte) (standing : Standing) : (s.takeEntry p tag standing).segments = s.segments := rfl
@[simp] theorem State.takeEntry_freeList (p : PortId) (tag : Byte) (standing : Standing) : (s.takeEntry p tag standing).freeList = s.freeList := rfl
@[simp] theorem State.takeEntry_switches (p : PortId) (tag : Byte) (standing : Standing) : (s.takeEntry p tag standing).switches = s.switches := rfl
@[simp] theorem State.takeEntry_store (p : PortId) (tag : Byte) (standing : Standing) : (s.takeEntry p tag standing).store = s.store := rfl
@[simp] theorem State.takeEntry_streams (p : PortId) (tag : Byte) (standing : Standing) : (s.takeEntry p tag standing).streams = s.streams := rfl
@[simp] theorem State.takeEntry_staging (p : PortId) (tag : Byte) (standing : Standing) : (s.takeEntry p tag standing).staging = s.staging := rfl
@[simp] theorem State.takeEntry_blocked (p : PortId) (tag : Byte) (standing : Standing) : (s.takeEntry p tag standing).blocked = s.blocked := rfl
@[simp] theorem State.takeEntry_completions (p : PortId) (tag : Byte) (standing : Standing) : (s.takeEntry p tag standing).completions = s.completions := rfl
@[simp] theorem State.takeEntry_waiting (p : PortId) (tag : Byte) (standing : Standing) : (s.takeEntry p tag standing).waiting = s.waiting := rfl
@[simp] theorem State.takeEntry_encodings (p : PortId) (tag : Byte) (standing : Standing) : (s.takeEntry p tag standing).encodings = s.encodings := rfl
@[simp] theorem State.takeEntry_headWait (p : PortId) (tag : Byte) (standing : Standing) : (s.takeEntry p tag standing).headWait = s.headWait := rfl
@[simp] theorem State.takeEntry_storeFullEpisode (p : PortId) (tag : Byte) (standing : Standing) : (s.takeEntry p tag standing).storeFullEpisode = s.storeFullEpisode := rfl
@[simp] theorem State.takeEntry_storePort (p : PortId) (tag : Byte) (standing : Standing) : (s.takeEntry p tag standing).storePort = s.storePort := rfl
@[simp] theorem State.takeEntry_holds (p : PortId) (tag : Byte) (standing : Standing) : (s.takeEntry p tag standing).holds = s.holds := rfl
@[simp] theorem State.takeEntry_pass (p : PortId) (tag : Byte) (standing : Standing) : (s.takeEntry p tag standing).pass = s.pass := rfl
@[simp] theorem State.takeEntry_passWoken (p : PortId) (tag : Byte) (standing : Standing) : (s.takeEntry p tag standing).passWoken = s.passWoken := rfl
@[simp] theorem State.takeEntry_sweep (p : PortId) (tag : Byte) (standing : Standing) : (s.takeEntry p tag standing).sweep = s.sweep := rfl
@[simp] theorem State.takeEntry_findings (p : PortId) (tag : Byte) (standing : Standing) : (s.takeEntry p tag standing).findings = s.findings := rfl
@[simp] theorem State.takeEntry_trail (p : PortId) (tag : Byte) (standing : Standing) : (s.takeEntry p tag standing).trail = s.trail := rfl
@[simp] theorem State.takeEntry_cursors (p : PortId) (tag : Byte) (standing : Standing) : (s.takeEntry p tag standing).cursors = s.cursors := rfl
@[simp] theorem State.takeEntry_clock (p : PortId) (tag : Byte) (standing : Standing) : (s.takeEntry p tag standing).clock = s.clock := rfl

/-! ### askCatalogue -/

@[simp] theorem State.askCatalogue_pending (p : PortId) (tag : Byte) (request : OpeningRequest) : (s.askCatalogue p tag request).pending = s.pending := rfl
@[simp] theorem State.askCatalogue_powered (p : PortId) (tag : Byte) (request : OpeningRequest) : (s.askCatalogue p tag request).powered = s.powered := rfl
@[simp] theorem State.askCatalogue_controller (p : PortId) (tag : Byte) (request : OpeningRequest) : (s.askCatalogue p tag request).controller = s.controller := rfl
@[simp] theorem State.askCatalogue_resetLow (p : PortId) (tag : Byte) (request : OpeningRequest) : (s.askCatalogue p tag request).resetLow = s.resetLow := rfl
@[simp] theorem State.askCatalogue_initialised (p : PortId) (tag : Byte) (request : OpeningRequest) : (s.askCatalogue p tag request).initialised = s.initialised := rfl
@[simp] theorem State.askCatalogue_settings (p : PortId) (tag : Byte) (request : OpeningRequest) : (s.askCatalogue p tag request).settings = s.settings := rfl
@[simp] theorem State.askCatalogue_ports (p : PortId) (tag : Byte) (request : OpeningRequest) : (s.askCatalogue p tag request).ports = s.ports.set p { s.ports[p] with outstanding := s.ports[p].outstanding ++ [⟨tag, .opening⟩] } := rfl
@[simp] theorem State.askCatalogue_catalogueBusy (p : PortId) (tag : Byte) (request : OpeningRequest) : (s.askCatalogue p tag request).catalogueBusy = s.catalogueBusy := rfl
@[simp] theorem State.askCatalogue_openings (p : PortId) (tag : Byte) (request : OpeningRequest) : (s.askCatalogue p tag request).openings = s.openings ++ [⟨p, some tag, request⟩] := rfl
@[simp] theorem State.askCatalogue_replies (p : PortId) (tag : Byte) (request : OpeningRequest) : (s.askCatalogue p tag request).replies = s.replies := rfl
@[simp] theorem State.askCatalogue_files (p : PortId) (tag : Byte) (request : OpeningRequest) : (s.askCatalogue p tag request).files = s.files := rfl
@[simp] theorem State.askCatalogue_segments (p : PortId) (tag : Byte) (request : OpeningRequest) : (s.askCatalogue p tag request).segments = s.segments := rfl
@[simp] theorem State.askCatalogue_freeList (p : PortId) (tag : Byte) (request : OpeningRequest) : (s.askCatalogue p tag request).freeList = s.freeList := rfl
@[simp] theorem State.askCatalogue_switches (p : PortId) (tag : Byte) (request : OpeningRequest) : (s.askCatalogue p tag request).switches = s.switches := rfl
@[simp] theorem State.askCatalogue_store (p : PortId) (tag : Byte) (request : OpeningRequest) : (s.askCatalogue p tag request).store = s.store := rfl
@[simp] theorem State.askCatalogue_streams (p : PortId) (tag : Byte) (request : OpeningRequest) : (s.askCatalogue p tag request).streams = s.streams := rfl
@[simp] theorem State.askCatalogue_staging (p : PortId) (tag : Byte) (request : OpeningRequest) : (s.askCatalogue p tag request).staging = s.staging := rfl
@[simp] theorem State.askCatalogue_blocked (p : PortId) (tag : Byte) (request : OpeningRequest) : (s.askCatalogue p tag request).blocked = s.blocked := rfl
@[simp] theorem State.askCatalogue_completions (p : PortId) (tag : Byte) (request : OpeningRequest) : (s.askCatalogue p tag request).completions = s.completions := rfl
@[simp] theorem State.askCatalogue_waiting (p : PortId) (tag : Byte) (request : OpeningRequest) : (s.askCatalogue p tag request).waiting = s.waiting := rfl
@[simp] theorem State.askCatalogue_encodings (p : PortId) (tag : Byte) (request : OpeningRequest) : (s.askCatalogue p tag request).encodings = s.encodings := rfl
@[simp] theorem State.askCatalogue_headWait (p : PortId) (tag : Byte) (request : OpeningRequest) : (s.askCatalogue p tag request).headWait = s.headWait := rfl
@[simp] theorem State.askCatalogue_storeFullEpisode (p : PortId) (tag : Byte) (request : OpeningRequest) : (s.askCatalogue p tag request).storeFullEpisode = s.storeFullEpisode := rfl
@[simp] theorem State.askCatalogue_storePort (p : PortId) (tag : Byte) (request : OpeningRequest) : (s.askCatalogue p tag request).storePort = s.storePort := rfl
@[simp] theorem State.askCatalogue_holds (p : PortId) (tag : Byte) (request : OpeningRequest) : (s.askCatalogue p tag request).holds = s.holds := rfl
@[simp] theorem State.askCatalogue_pass (p : PortId) (tag : Byte) (request : OpeningRequest) : (s.askCatalogue p tag request).pass = s.pass := rfl
@[simp] theorem State.askCatalogue_passWoken (p : PortId) (tag : Byte) (request : OpeningRequest) : (s.askCatalogue p tag request).passWoken = s.passWoken := rfl
@[simp] theorem State.askCatalogue_sweep (p : PortId) (tag : Byte) (request : OpeningRequest) : (s.askCatalogue p tag request).sweep = s.sweep := rfl
@[simp] theorem State.askCatalogue_findings (p : PortId) (tag : Byte) (request : OpeningRequest) : (s.askCatalogue p tag request).findings = s.findings := rfl
@[simp] theorem State.askCatalogue_trail (p : PortId) (tag : Byte) (request : OpeningRequest) : (s.askCatalogue p tag request).trail = s.trail := rfl
@[simp] theorem State.askCatalogue_cursors (p : PortId) (tag : Byte) (request : OpeningRequest) : (s.askCatalogue p tag request).cursors = s.cursors := rfl
@[simp] theorem State.askCatalogue_clock (p : PortId) (tag : Byte) (request : OpeningRequest) : (s.askCatalogue p tag request).clock = s.clock := rfl

/-! ### discardRequests -/

@[simp] theorem State.discardRequests_pending (p : PortId) : (s.discardRequests p).pending = s.pending := rfl
@[simp] theorem State.discardRequests_powered (p : PortId) : (s.discardRequests p).powered = s.powered := rfl
@[simp] theorem State.discardRequests_controller (p : PortId) : (s.discardRequests p).controller = s.controller := rfl
@[simp] theorem State.discardRequests_resetLow (p : PortId) : (s.discardRequests p).resetLow = s.resetLow := rfl
@[simp] theorem State.discardRequests_initialised (p : PortId) : (s.discardRequests p).initialised = s.initialised := rfl
@[simp] theorem State.discardRequests_settings (p : PortId) : (s.discardRequests p).settings = s.settings := rfl
@[simp] theorem State.discardRequests_ports (p : PortId) : (s.discardRequests p).ports = s.ports.set p { s.ports[p] with outstanding := [], unsent := [] } := rfl
@[simp] theorem State.discardRequests_catalogueBusy (p : PortId) : (s.discardRequests p).catalogueBusy = s.catalogueBusy := rfl
@[simp] theorem State.discardRequests_openings (p : PortId) : (s.discardRequests p).openings = s.openings.map (fun o => if o.port = p then { o with tag := none } else o) := rfl
@[simp] theorem State.discardRequests_replies (p : PortId) : (s.discardRequests p).replies = s.replies := rfl
@[simp] theorem State.discardRequests_files (p : PortId) : (s.discardRequests p).files = s.files := rfl
@[simp] theorem State.discardRequests_segments (p : PortId) : (s.discardRequests p).segments = s.segments := rfl
@[simp] theorem State.discardRequests_freeList (p : PortId) : (s.discardRequests p).freeList = s.freeList := rfl
@[simp] theorem State.discardRequests_switches (p : PortId) : (s.discardRequests p).switches = s.switches := rfl
@[simp] theorem State.discardRequests_store (p : PortId) : (s.discardRequests p).store = s.store := rfl
@[simp] theorem State.discardRequests_streams (p : PortId) : (s.discardRequests p).streams = s.streams := rfl
@[simp] theorem State.discardRequests_staging (p : PortId) : (s.discardRequests p).staging = s.staging := rfl
@[simp] theorem State.discardRequests_blocked (p : PortId) : (s.discardRequests p).blocked = s.blocked := rfl
@[simp] theorem State.discardRequests_completions (p : PortId) : (s.discardRequests p).completions = s.completions := rfl
@[simp] theorem State.discardRequests_waiting (p : PortId) : (s.discardRequests p).waiting = s.waiting := rfl
@[simp] theorem State.discardRequests_encodings (p : PortId) : (s.discardRequests p).encodings = s.encodings := rfl
@[simp] theorem State.discardRequests_headWait (p : PortId) : (s.discardRequests p).headWait = s.headWait := rfl
@[simp] theorem State.discardRequests_storeFullEpisode (p : PortId) : (s.discardRequests p).storeFullEpisode = s.storeFullEpisode := rfl
@[simp] theorem State.discardRequests_storePort (p : PortId) : (s.discardRequests p).storePort = s.storePort := rfl
@[simp] theorem State.discardRequests_holds (p : PortId) : (s.discardRequests p).holds = s.holds := rfl
@[simp] theorem State.discardRequests_pass (p : PortId) : (s.discardRequests p).pass = s.pass := rfl
@[simp] theorem State.discardRequests_passWoken (p : PortId) : (s.discardRequests p).passWoken = s.passWoken := rfl
@[simp] theorem State.discardRequests_sweep (p : PortId) : (s.discardRequests p).sweep = s.sweep := rfl
@[simp] theorem State.discardRequests_findings (p : PortId) : (s.discardRequests p).findings = s.findings := rfl
@[simp] theorem State.discardRequests_trail (p : PortId) : (s.discardRequests p).trail = s.trail := rfl
@[simp] theorem State.discardRequests_cursors (p : PortId) : (s.discardRequests p).cursors = s.cursors := rfl
@[simp] theorem State.discardRequests_clock (p : PortId) : (s.discardRequests p).clock = s.clock := rfl

/-! ### endFetch -/

@[simp] theorem State.endFetch_pending (p : PortId) (c : CursorId) : (s.endFetch p c).pending = s.pending := rfl
@[simp] theorem State.endFetch_powered (p : PortId) (c : CursorId) : (s.endFetch p c).powered = s.powered := rfl
@[simp] theorem State.endFetch_controller (p : PortId) (c : CursorId) : (s.endFetch p c).controller = s.controller := rfl
@[simp] theorem State.endFetch_resetLow (p : PortId) (c : CursorId) : (s.endFetch p c).resetLow = s.resetLow := rfl
@[simp] theorem State.endFetch_initialised (p : PortId) (c : CursorId) : (s.endFetch p c).initialised = s.initialised := rfl
@[simp] theorem State.endFetch_settings (p : PortId) (c : CursorId) : (s.endFetch p c).settings = s.settings := rfl
@[simp] theorem State.endFetch_ports (p : PortId) (c : CursorId) : (s.endFetch p c).ports = s.ports := rfl
@[simp] theorem State.endFetch_catalogueBusy (p : PortId) (c : CursorId) : (s.endFetch p c).catalogueBusy = s.catalogueBusy := rfl
@[simp] theorem State.endFetch_openings (p : PortId) (c : CursorId) : (s.endFetch p c).openings = s.openings := rfl
@[simp] theorem State.endFetch_replies (p : PortId) (c : CursorId) : (s.endFetch p c).replies = s.replies := rfl
@[simp] theorem State.endFetch_files (p : PortId) (c : CursorId) : (s.endFetch p c).files = s.files := rfl
@[simp] theorem State.endFetch_segments (p : PortId) (c : CursorId) : (s.endFetch p c).segments = s.segments := rfl
@[simp] theorem State.endFetch_freeList (p : PortId) (c : CursorId) : (s.endFetch p c).freeList = s.freeList := rfl
@[simp] theorem State.endFetch_switches (p : PortId) (c : CursorId) : (s.endFetch p c).switches = s.switches := rfl
@[simp] theorem State.endFetch_store (p : PortId) (c : CursorId) : (s.endFetch p c).store = s.store := rfl
@[simp] theorem State.endFetch_streams (p : PortId) (c : CursorId) : (s.endFetch p c).streams = s.streams := rfl
@[simp] theorem State.endFetch_staging (p : PortId) (c : CursorId) : (s.endFetch p c).staging = s.staging := rfl
@[simp] theorem State.endFetch_blocked (p : PortId) (c : CursorId) : (s.endFetch p c).blocked = s.blocked := rfl
@[simp] theorem State.endFetch_completions (p : PortId) (c : CursorId) : (s.endFetch p c).completions = s.completions := rfl
@[simp] theorem State.endFetch_waiting (p : PortId) (c : CursorId) : (s.endFetch p c).waiting = s.waiting := rfl
@[simp] theorem State.endFetch_encodings (p : PortId) (c : CursorId) : (s.endFetch p c).encodings = s.encodings := rfl
@[simp] theorem State.endFetch_headWait (p : PortId) (c : CursorId) : (s.endFetch p c).headWait = s.headWait := rfl
@[simp] theorem State.endFetch_storeFullEpisode (p : PortId) (c : CursorId) : (s.endFetch p c).storeFullEpisode = s.storeFullEpisode := rfl
@[simp] theorem State.endFetch_storePort (p : PortId) (c : CursorId) : (s.endFetch p c).storePort = s.storePort := rfl
@[simp] theorem State.endFetch_holds (p : PortId) (c : CursorId) : (s.endFetch p c).holds = s.holds := rfl
@[simp] theorem State.endFetch_pass (p : PortId) (c : CursorId) : (s.endFetch p c).pass = s.pass := rfl
@[simp] theorem State.endFetch_passWoken (p : PortId) (c : CursorId) : (s.endFetch p c).passWoken = s.passWoken := rfl
@[simp] theorem State.endFetch_sweep (p : PortId) (c : CursorId) : (s.endFetch p c).sweep = s.sweep := rfl
@[simp] theorem State.endFetch_findings (p : PortId) (c : CursorId) : (s.endFetch p c).findings = s.findings := rfl
@[simp] theorem State.endFetch_trail (p : PortId) (c : CursorId) : (s.endFetch p c).trail = s.trail := rfl
@[simp] theorem State.endFetch_cursors (p : PortId) (c : CursorId) : (s.endFetch p c).cursors = s.cursors.set c { s.cursors[c] with fetch := none, idle := .load (s.cursorSeconds p) } := rfl
@[simp] theorem State.endFetch_clock (p : PortId) (c : CursorId) : (s.endFetch p c).clock = s.clock := rfl

/-! ### dropFetched -/

@[simp] theorem State.dropFetched_pending (p : PortId) (tag : Byte) : (s.dropFetched p tag).pending = s.pending := rfl
@[simp] theorem State.dropFetched_powered (p : PortId) (tag : Byte) : (s.dropFetched p tag).powered = s.powered := rfl
@[simp] theorem State.dropFetched_controller (p : PortId) (tag : Byte) : (s.dropFetched p tag).controller = s.controller := rfl
@[simp] theorem State.dropFetched_resetLow (p : PortId) (tag : Byte) : (s.dropFetched p tag).resetLow = s.resetLow := rfl
@[simp] theorem State.dropFetched_initialised (p : PortId) (tag : Byte) : (s.dropFetched p tag).initialised = s.initialised := rfl
@[simp] theorem State.dropFetched_settings (p : PortId) (tag : Byte) : (s.dropFetched p tag).settings = s.settings := rfl
@[simp] theorem State.dropFetched_ports (p : PortId) (tag : Byte) : (s.dropFetched p tag).ports = s.ports.set p { s.ports[p] with unsent := s.ports[p].unsent.filter (fun r => !r.fetched tag) } := rfl
@[simp] theorem State.dropFetched_catalogueBusy (p : PortId) (tag : Byte) : (s.dropFetched p tag).catalogueBusy = s.catalogueBusy := rfl
@[simp] theorem State.dropFetched_openings (p : PortId) (tag : Byte) : (s.dropFetched p tag).openings = s.openings := rfl
@[simp] theorem State.dropFetched_replies (p : PortId) (tag : Byte) : (s.dropFetched p tag).replies = s.replies := rfl
@[simp] theorem State.dropFetched_files (p : PortId) (tag : Byte) : (s.dropFetched p tag).files = s.files := rfl
@[simp] theorem State.dropFetched_segments (p : PortId) (tag : Byte) : (s.dropFetched p tag).segments = s.segments := rfl
@[simp] theorem State.dropFetched_freeList (p : PortId) (tag : Byte) : (s.dropFetched p tag).freeList = s.freeList := rfl
@[simp] theorem State.dropFetched_switches (p : PortId) (tag : Byte) : (s.dropFetched p tag).switches = s.switches := rfl
@[simp] theorem State.dropFetched_store (p : PortId) (tag : Byte) : (s.dropFetched p tag).store = s.store := rfl
@[simp] theorem State.dropFetched_streams (p : PortId) (tag : Byte) : (s.dropFetched p tag).streams = s.streams := rfl
@[simp] theorem State.dropFetched_staging (p : PortId) (tag : Byte) : (s.dropFetched p tag).staging = s.staging := rfl
@[simp] theorem State.dropFetched_blocked (p : PortId) (tag : Byte) : (s.dropFetched p tag).blocked = s.blocked := rfl
@[simp] theorem State.dropFetched_completions (p : PortId) (tag : Byte) : (s.dropFetched p tag).completions = s.completions := rfl
@[simp] theorem State.dropFetched_waiting (p : PortId) (tag : Byte) : (s.dropFetched p tag).waiting = s.waiting := rfl
@[simp] theorem State.dropFetched_encodings (p : PortId) (tag : Byte) : (s.dropFetched p tag).encodings = s.encodings := rfl
@[simp] theorem State.dropFetched_headWait (p : PortId) (tag : Byte) : (s.dropFetched p tag).headWait = s.headWait := rfl
@[simp] theorem State.dropFetched_storeFullEpisode (p : PortId) (tag : Byte) : (s.dropFetched p tag).storeFullEpisode = s.storeFullEpisode := rfl
@[simp] theorem State.dropFetched_storePort (p : PortId) (tag : Byte) : (s.dropFetched p tag).storePort = s.storePort := rfl
@[simp] theorem State.dropFetched_holds (p : PortId) (tag : Byte) : (s.dropFetched p tag).holds = s.holds := rfl
@[simp] theorem State.dropFetched_pass (p : PortId) (tag : Byte) : (s.dropFetched p tag).pass = s.pass := rfl
@[simp] theorem State.dropFetched_passWoken (p : PortId) (tag : Byte) : (s.dropFetched p tag).passWoken = s.passWoken := rfl
@[simp] theorem State.dropFetched_sweep (p : PortId) (tag : Byte) : (s.dropFetched p tag).sweep = s.sweep := rfl
@[simp] theorem State.dropFetched_findings (p : PortId) (tag : Byte) : (s.dropFetched p tag).findings = s.findings := rfl
@[simp] theorem State.dropFetched_trail (p : PortId) (tag : Byte) : (s.dropFetched p tag).trail = s.trail := rfl
@[simp] theorem State.dropFetched_cursors (p : PortId) (tag : Byte) : (s.dropFetched p tag).cursors = s.cursors := rfl
@[simp] theorem State.dropFetched_clock (p : PortId) (tag : Byte) : (s.dropFetched p tag).clock = s.clock := rfl

/-! ### record -/

@[simp] theorem State.record_pending (kind : TrailKind) (port : Option PortId) (subject : Subject) (value : Nat) : (s.record kind port subject value).pending = s.pending := rfl
@[simp] theorem State.record_powered (kind : TrailKind) (port : Option PortId) (subject : Subject) (value : Nat) : (s.record kind port subject value).powered = s.powered := rfl
@[simp] theorem State.record_controller (kind : TrailKind) (port : Option PortId) (subject : Subject) (value : Nat) : (s.record kind port subject value).controller = s.controller := rfl
@[simp] theorem State.record_resetLow (kind : TrailKind) (port : Option PortId) (subject : Subject) (value : Nat) : (s.record kind port subject value).resetLow = s.resetLow := rfl
@[simp] theorem State.record_initialised (kind : TrailKind) (port : Option PortId) (subject : Subject) (value : Nat) : (s.record kind port subject value).initialised = s.initialised := rfl
@[simp] theorem State.record_settings (kind : TrailKind) (port : Option PortId) (subject : Subject) (value : Nat) : (s.record kind port subject value).settings = s.settings := rfl
@[simp] theorem State.record_ports (kind : TrailKind) (port : Option PortId) (subject : Subject) (value : Nat) : (s.record kind port subject value).ports = s.ports := rfl
@[simp] theorem State.record_catalogueBusy (kind : TrailKind) (port : Option PortId) (subject : Subject) (value : Nat) : (s.record kind port subject value).catalogueBusy = s.catalogueBusy := rfl
@[simp] theorem State.record_openings (kind : TrailKind) (port : Option PortId) (subject : Subject) (value : Nat) : (s.record kind port subject value).openings = s.openings := rfl
@[simp] theorem State.record_replies (kind : TrailKind) (port : Option PortId) (subject : Subject) (value : Nat) : (s.record kind port subject value).replies = s.replies := rfl
@[simp] theorem State.record_files (kind : TrailKind) (port : Option PortId) (subject : Subject) (value : Nat) : (s.record kind port subject value).files = s.files := rfl
@[simp] theorem State.record_segments (kind : TrailKind) (port : Option PortId) (subject : Subject) (value : Nat) : (s.record kind port subject value).segments = s.segments := rfl
@[simp] theorem State.record_freeList (kind : TrailKind) (port : Option PortId) (subject : Subject) (value : Nat) : (s.record kind port subject value).freeList = s.freeList := rfl
@[simp] theorem State.record_switches (kind : TrailKind) (port : Option PortId) (subject : Subject) (value : Nat) : (s.record kind port subject value).switches = s.switches := rfl
@[simp] theorem State.record_store (kind : TrailKind) (port : Option PortId) (subject : Subject) (value : Nat) : (s.record kind port subject value).store = s.store := rfl
@[simp] theorem State.record_streams (kind : TrailKind) (port : Option PortId) (subject : Subject) (value : Nat) : (s.record kind port subject value).streams = s.streams := rfl
@[simp] theorem State.record_staging (kind : TrailKind) (port : Option PortId) (subject : Subject) (value : Nat) : (s.record kind port subject value).staging = s.staging := rfl
@[simp] theorem State.record_blocked (kind : TrailKind) (port : Option PortId) (subject : Subject) (value : Nat) : (s.record kind port subject value).blocked = s.blocked := rfl
@[simp] theorem State.record_completions (kind : TrailKind) (port : Option PortId) (subject : Subject) (value : Nat) : (s.record kind port subject value).completions = s.completions := rfl
@[simp] theorem State.record_waiting (kind : TrailKind) (port : Option PortId) (subject : Subject) (value : Nat) : (s.record kind port subject value).waiting = s.waiting := rfl
@[simp] theorem State.record_encodings (kind : TrailKind) (port : Option PortId) (subject : Subject) (value : Nat) : (s.record kind port subject value).encodings = s.encodings := rfl
@[simp] theorem State.record_headWait (kind : TrailKind) (port : Option PortId) (subject : Subject) (value : Nat) : (s.record kind port subject value).headWait = s.headWait := rfl
@[simp] theorem State.record_storeFullEpisode (kind : TrailKind) (port : Option PortId) (subject : Subject) (value : Nat) : (s.record kind port subject value).storeFullEpisode = s.storeFullEpisode := rfl
@[simp] theorem State.record_storePort (kind : TrailKind) (port : Option PortId) (subject : Subject) (value : Nat) : (s.record kind port subject value).storePort = s.storePort := rfl
@[simp] theorem State.record_holds (kind : TrailKind) (port : Option PortId) (subject : Subject) (value : Nat) : (s.record kind port subject value).holds = s.holds := rfl
@[simp] theorem State.record_pass (kind : TrailKind) (port : Option PortId) (subject : Subject) (value : Nat) : (s.record kind port subject value).pass = s.pass := rfl
@[simp] theorem State.record_passWoken (kind : TrailKind) (port : Option PortId) (subject : Subject) (value : Nat) : (s.record kind port subject value).passWoken = s.passWoken := rfl
@[simp] theorem State.record_sweep (kind : TrailKind) (port : Option PortId) (subject : Subject) (value : Nat) : (s.record kind port subject value).sweep = s.sweep := rfl
@[simp] theorem State.record_findings (kind : TrailKind) (port : Option PortId) (subject : Subject) (value : Nat) : (s.record kind port subject value).findings = s.findings := rfl
@[simp] theorem State.record_trail (kind : TrailKind) (port : Option PortId) (subject : Subject) (value : Nat) : (s.record kind port subject value).trail = s.trail.append s.stamp kind port subject value := rfl
@[simp] theorem State.record_cursors (kind : TrailKind) (port : Option PortId) (subject : Subject) (value : Nat) : (s.record kind port subject value).cursors = s.cursors := rfl
@[simp] theorem State.record_clock (kind : TrailKind) (port : Option PortId) (subject : Subject) (value : Nat) : (s.record kind port subject value).clock = s.clock := rfl

/-! ### leaveLists -/

@[simp] theorem State.leaveLists_pending (x : StreamId) : (s.leaveLists x).pending = s.pending := rfl
@[simp] theorem State.leaveLists_powered (x : StreamId) : (s.leaveLists x).powered = s.powered := rfl
@[simp] theorem State.leaveLists_controller (x : StreamId) : (s.leaveLists x).controller = s.controller := rfl
@[simp] theorem State.leaveLists_resetLow (x : StreamId) : (s.leaveLists x).resetLow = s.resetLow := rfl
@[simp] theorem State.leaveLists_initialised (x : StreamId) : (s.leaveLists x).initialised = s.initialised := rfl
@[simp] theorem State.leaveLists_settings (x : StreamId) : (s.leaveLists x).settings = s.settings := rfl
@[simp] theorem State.leaveLists_ports (x : StreamId) : (s.leaveLists x).ports = s.ports := rfl
@[simp] theorem State.leaveLists_catalogueBusy (x : StreamId) : (s.leaveLists x).catalogueBusy = s.catalogueBusy := rfl
@[simp] theorem State.leaveLists_openings (x : StreamId) : (s.leaveLists x).openings = s.openings := rfl
@[simp] theorem State.leaveLists_replies (x : StreamId) : (s.leaveLists x).replies = s.replies := rfl
@[simp] theorem State.leaveLists_files (x : StreamId) : (s.leaveLists x).files = s.files := rfl
@[simp] theorem State.leaveLists_segments (x : StreamId) : (s.leaveLists x).segments = s.segments := rfl
@[simp] theorem State.leaveLists_freeList (x : StreamId) : (s.leaveLists x).freeList = s.freeList := rfl
@[simp] theorem State.leaveLists_switches (x : StreamId) : (s.leaveLists x).switches = s.switches := rfl
@[simp] theorem State.leaveLists_store (x : StreamId) : (s.leaveLists x).store = s.store := rfl
@[simp] theorem State.leaveLists_streams (x : StreamId) : (s.leaveLists x).streams = s.streams := rfl
@[simp] theorem State.leaveLists_staging (x : StreamId) : (s.leaveLists x).staging = s.staging := rfl
@[simp] theorem State.leaveLists_blocked (x : StreamId) : (s.leaveLists x).blocked = s.blocked.filter (· ≠ x) := rfl
@[simp] theorem State.leaveLists_completions (x : StreamId) : (s.leaveLists x).completions = s.completions := rfl
@[simp] theorem State.leaveLists_waiting (x : StreamId) : (s.leaveLists x).waiting = s.waiting.filter (fun i => i ≠ WaitItem.post x ∧ i ≠ WaitItem.notice x) := rfl
@[simp] theorem State.leaveLists_encodings (x : StreamId) : (s.leaveLists x).encodings = s.encodings := rfl
@[simp] theorem State.leaveLists_headWait (x : StreamId) : (s.leaveLists x).headWait = s.headWait := rfl
@[simp] theorem State.leaveLists_storeFullEpisode (x : StreamId) : (s.leaveLists x).storeFullEpisode = s.storeFullEpisode := rfl
@[simp] theorem State.leaveLists_storePort (x : StreamId) : (s.leaveLists x).storePort = s.storePort := rfl
@[simp] theorem State.leaveLists_holds (x : StreamId) : (s.leaveLists x).holds = s.holds := rfl
@[simp] theorem State.leaveLists_pass (x : StreamId) : (s.leaveLists x).pass = s.pass := rfl
@[simp] theorem State.leaveLists_passWoken (x : StreamId) : (s.leaveLists x).passWoken = s.passWoken := rfl
@[simp] theorem State.leaveLists_sweep (x : StreamId) : (s.leaveLists x).sweep = s.sweep := rfl
@[simp] theorem State.leaveLists_findings (x : StreamId) : (s.leaveLists x).findings = s.findings := rfl
@[simp] theorem State.leaveLists_trail (x : StreamId) : (s.leaveLists x).trail = s.trail := rfl
@[simp] theorem State.leaveLists_cursors (x : StreamId) : (s.leaveLists x).cursors = s.cursors := rfl
@[simp] theorem State.leaveLists_clock (x : StreamId) : (s.leaveLists x).clock = s.clock := rfl

/-! ### recordCause -/

@[simp] theorem State.recordCause_pending (x : StreamId) (cause : AbortCause) : (s.recordCause x cause).pending = s.pending := rfl
@[simp] theorem State.recordCause_powered (x : StreamId) (cause : AbortCause) : (s.recordCause x cause).powered = s.powered := rfl
@[simp] theorem State.recordCause_controller (x : StreamId) (cause : AbortCause) : (s.recordCause x cause).controller = s.controller := rfl
@[simp] theorem State.recordCause_resetLow (x : StreamId) (cause : AbortCause) : (s.recordCause x cause).resetLow = s.resetLow := rfl
@[simp] theorem State.recordCause_initialised (x : StreamId) (cause : AbortCause) : (s.recordCause x cause).initialised = s.initialised := rfl
@[simp] theorem State.recordCause_settings (x : StreamId) (cause : AbortCause) : (s.recordCause x cause).settings = s.settings := rfl
@[simp] theorem State.recordCause_ports (x : StreamId) (cause : AbortCause) : (s.recordCause x cause).ports = s.ports := rfl
@[simp] theorem State.recordCause_catalogueBusy (x : StreamId) (cause : AbortCause) : (s.recordCause x cause).catalogueBusy = s.catalogueBusy := rfl
@[simp] theorem State.recordCause_openings (x : StreamId) (cause : AbortCause) : (s.recordCause x cause).openings = s.openings := rfl
@[simp] theorem State.recordCause_replies (x : StreamId) (cause : AbortCause) : (s.recordCause x cause).replies = s.replies := rfl
@[simp] theorem State.recordCause_files (x : StreamId) (cause : AbortCause) : (s.recordCause x cause).files = s.files := rfl
@[simp] theorem State.recordCause_segments (x : StreamId) (cause : AbortCause) : (s.recordCause x cause).segments = s.segments := rfl
@[simp] theorem State.recordCause_freeList (x : StreamId) (cause : AbortCause) : (s.recordCause x cause).freeList = s.freeList := rfl
@[simp] theorem State.recordCause_switches (x : StreamId) (cause : AbortCause) : (s.recordCause x cause).switches = s.switches := rfl
@[simp] theorem State.recordCause_store (x : StreamId) (cause : AbortCause) : (s.recordCause x cause).store = s.store := rfl
@[simp] theorem State.recordCause_streams (x : StreamId) (cause : AbortCause) : (s.recordCause x cause).streams = s.streams.set x { s.streams[x] with abortCause := some cause, storeFullNotice := false } := rfl
@[simp] theorem State.recordCause_staging (x : StreamId) (cause : AbortCause) : (s.recordCause x cause).staging = s.staging := rfl
@[simp] theorem State.recordCause_blocked (x : StreamId) (cause : AbortCause) : (s.recordCause x cause).blocked = s.blocked.filter (· ≠ x) := rfl
@[simp] theorem State.recordCause_completions (x : StreamId) (cause : AbortCause) : (s.recordCause x cause).completions = s.completions := rfl
@[simp] theorem State.recordCause_waiting (x : StreamId) (cause : AbortCause) : (s.recordCause x cause).waiting = s.waiting.filter (fun i => i ≠ WaitItem.post x ∧ i ≠ WaitItem.notice x) := rfl
@[simp] theorem State.recordCause_encodings (x : StreamId) (cause : AbortCause) : (s.recordCause x cause).encodings = s.encodings := rfl
@[simp] theorem State.recordCause_headWait (x : StreamId) (cause : AbortCause) : (s.recordCause x cause).headWait = s.headWait := rfl
@[simp] theorem State.recordCause_storeFullEpisode (x : StreamId) (cause : AbortCause) : (s.recordCause x cause).storeFullEpisode = s.storeFullEpisode := rfl
@[simp] theorem State.recordCause_storePort (x : StreamId) (cause : AbortCause) : (s.recordCause x cause).storePort = s.storePort := rfl
@[simp] theorem State.recordCause_holds (x : StreamId) (cause : AbortCause) : (s.recordCause x cause).holds = s.holds := rfl
@[simp] theorem State.recordCause_pass (x : StreamId) (cause : AbortCause) : (s.recordCause x cause).pass = s.pass := rfl
@[simp] theorem State.recordCause_passWoken (x : StreamId) (cause : AbortCause) : (s.recordCause x cause).passWoken = s.passWoken := rfl
@[simp] theorem State.recordCause_sweep (x : StreamId) (cause : AbortCause) : (s.recordCause x cause).sweep = s.sweep := rfl
@[simp] theorem State.recordCause_findings (x : StreamId) (cause : AbortCause) : (s.recordCause x cause).findings = s.findings := rfl
@[simp] theorem State.recordCause_trail (x : StreamId) (cause : AbortCause) : (s.recordCause x cause).trail = s.trail := rfl
@[simp] theorem State.recordCause_cursors (x : StreamId) (cause : AbortCause) : (s.recordCause x cause).cursors = s.cursors := rfl
@[simp] theorem State.recordCause_clock (x : StreamId) (cause : AbortCause) : (s.recordCause x cause).clock = s.clock := rfl

/-! ### dropNotice -/

@[simp] theorem State.dropNotice_pending (x : StreamId) : (s.dropNotice x).pending = s.pending := rfl
@[simp] theorem State.dropNotice_powered (x : StreamId) : (s.dropNotice x).powered = s.powered := rfl
@[simp] theorem State.dropNotice_controller (x : StreamId) : (s.dropNotice x).controller = s.controller := rfl
@[simp] theorem State.dropNotice_resetLow (x : StreamId) : (s.dropNotice x).resetLow = s.resetLow := rfl
@[simp] theorem State.dropNotice_initialised (x : StreamId) : (s.dropNotice x).initialised = s.initialised := rfl
@[simp] theorem State.dropNotice_settings (x : StreamId) : (s.dropNotice x).settings = s.settings := rfl
@[simp] theorem State.dropNotice_ports (x : StreamId) : (s.dropNotice x).ports = s.ports := rfl
@[simp] theorem State.dropNotice_catalogueBusy (x : StreamId) : (s.dropNotice x).catalogueBusy = s.catalogueBusy := rfl
@[simp] theorem State.dropNotice_openings (x : StreamId) : (s.dropNotice x).openings = s.openings := rfl
@[simp] theorem State.dropNotice_replies (x : StreamId) : (s.dropNotice x).replies = s.replies := rfl
@[simp] theorem State.dropNotice_files (x : StreamId) : (s.dropNotice x).files = s.files := rfl
@[simp] theorem State.dropNotice_segments (x : StreamId) : (s.dropNotice x).segments = s.segments := rfl
@[simp] theorem State.dropNotice_freeList (x : StreamId) : (s.dropNotice x).freeList = s.freeList := rfl
@[simp] theorem State.dropNotice_switches (x : StreamId) : (s.dropNotice x).switches = s.switches := rfl
@[simp] theorem State.dropNotice_store (x : StreamId) : (s.dropNotice x).store = s.store := rfl
@[simp] theorem State.dropNotice_streams (x : StreamId) : (s.dropNotice x).streams = s.streams.set x { s.streams[x] with storeFullNotice := false } := rfl
@[simp] theorem State.dropNotice_staging (x : StreamId) : (s.dropNotice x).staging = s.staging := rfl
@[simp] theorem State.dropNotice_blocked (x : StreamId) : (s.dropNotice x).blocked = s.blocked := rfl
@[simp] theorem State.dropNotice_completions (x : StreamId) : (s.dropNotice x).completions = s.completions := rfl
@[simp] theorem State.dropNotice_waiting (x : StreamId) : (s.dropNotice x).waiting = s.waiting.filter (· ≠ WaitItem.notice x) := rfl
@[simp] theorem State.dropNotice_encodings (x : StreamId) : (s.dropNotice x).encodings = s.encodings := rfl
@[simp] theorem State.dropNotice_headWait (x : StreamId) : (s.dropNotice x).headWait = s.headWait := rfl
@[simp] theorem State.dropNotice_storeFullEpisode (x : StreamId) : (s.dropNotice x).storeFullEpisode = s.storeFullEpisode := rfl
@[simp] theorem State.dropNotice_storePort (x : StreamId) : (s.dropNotice x).storePort = s.storePort := rfl
@[simp] theorem State.dropNotice_holds (x : StreamId) : (s.dropNotice x).holds = s.holds := rfl
@[simp] theorem State.dropNotice_pass (x : StreamId) : (s.dropNotice x).pass = s.pass := rfl
@[simp] theorem State.dropNotice_passWoken (x : StreamId) : (s.dropNotice x).passWoken = s.passWoken := rfl
@[simp] theorem State.dropNotice_sweep (x : StreamId) : (s.dropNotice x).sweep = s.sweep := rfl
@[simp] theorem State.dropNotice_findings (x : StreamId) : (s.dropNotice x).findings = s.findings := rfl
@[simp] theorem State.dropNotice_trail (x : StreamId) : (s.dropNotice x).trail = s.trail := rfl
@[simp] theorem State.dropNotice_cursors (x : StreamId) : (s.dropNotice x).cursors = s.cursors := rfl
@[simp] theorem State.dropNotice_clock (x : StreamId) : (s.dropNotice x).clock = s.clock := rfl

/-! ### leaveHead -/

@[simp] theorem State.leaveHead_pending : s.leaveHead.pending = s.pending := rfl
@[simp] theorem State.leaveHead_powered : s.leaveHead.powered = s.powered := rfl
@[simp] theorem State.leaveHead_controller : s.leaveHead.controller = s.controller := rfl
@[simp] theorem State.leaveHead_resetLow : s.leaveHead.resetLow = s.resetLow := rfl
@[simp] theorem State.leaveHead_initialised : s.leaveHead.initialised = s.initialised := rfl
@[simp] theorem State.leaveHead_settings : s.leaveHead.settings = s.settings := rfl
@[simp] theorem State.leaveHead_ports : s.leaveHead.ports = s.ports := rfl
@[simp] theorem State.leaveHead_catalogueBusy : s.leaveHead.catalogueBusy = s.catalogueBusy := rfl
@[simp] theorem State.leaveHead_openings : s.leaveHead.openings = s.openings := rfl
@[simp] theorem State.leaveHead_replies : s.leaveHead.replies = s.replies := rfl
@[simp] theorem State.leaveHead_files : s.leaveHead.files = s.files := rfl
@[simp] theorem State.leaveHead_segments : s.leaveHead.segments = s.segments := rfl
@[simp] theorem State.leaveHead_freeList : s.leaveHead.freeList = s.freeList := rfl
@[simp] theorem State.leaveHead_switches : s.leaveHead.switches = s.switches := rfl
@[simp] theorem State.leaveHead_store : s.leaveHead.store = s.store := rfl
@[simp] theorem State.leaveHead_streams : s.leaveHead.streams = s.streams := rfl
@[simp] theorem State.leaveHead_staging : s.leaveHead.staging = s.staging.tail := rfl
@[simp] theorem State.leaveHead_blocked : s.leaveHead.blocked = s.blocked := rfl
@[simp] theorem State.leaveHead_completions : s.leaveHead.completions = s.completions := rfl
@[simp] theorem State.leaveHead_waiting : s.leaveHead.waiting = s.waiting := rfl
@[simp] theorem State.leaveHead_encodings : s.leaveHead.encodings = s.encodings := rfl
@[simp] theorem State.leaveHead_headWait : s.leaveHead.headWait = none := rfl
@[simp] theorem State.leaveHead_storeFullEpisode : s.leaveHead.storeFullEpisode = s.storeFullEpisode := rfl
@[simp] theorem State.leaveHead_storePort : s.leaveHead.storePort = s.storePort := rfl
@[simp] theorem State.leaveHead_holds : s.leaveHead.holds = s.holds := rfl
@[simp] theorem State.leaveHead_pass : s.leaveHead.pass = s.pass := rfl
@[simp] theorem State.leaveHead_passWoken : s.leaveHead.passWoken = s.passWoken := rfl
@[simp] theorem State.leaveHead_sweep : s.leaveHead.sweep = s.sweep := rfl
@[simp] theorem State.leaveHead_findings : s.leaveHead.findings = s.findings := rfl
@[simp] theorem State.leaveHead_trail : s.leaveHead.trail = s.trail := rfl
@[simp] theorem State.leaveHead_cursors : s.leaveHead.cursors = s.cursors := rfl
@[simp] theorem State.leaveHead_clock : s.leaveHead.clock = s.clock := rfl

/-! ### setPortSettings -/

@[simp] theorem State.setPortSettings_pending (p : PortId) (t : PortSettings) : (s.setPortSettings p t).pending = s.pending := rfl
@[simp] theorem State.setPortSettings_powered (p : PortId) (t : PortSettings) : (s.setPortSettings p t).powered = s.powered := rfl
@[simp] theorem State.setPortSettings_controller (p : PortId) (t : PortSettings) : (s.setPortSettings p t).controller = s.controller := rfl
@[simp] theorem State.setPortSettings_resetLow (p : PortId) (t : PortSettings) : (s.setPortSettings p t).resetLow = s.resetLow := rfl
@[simp] theorem State.setPortSettings_initialised (p : PortId) (t : PortSettings) : (s.setPortSettings p t).initialised = s.initialised := rfl
@[simp] theorem State.setPortSettings_settings (p : PortId) (t : PortSettings) : (s.setPortSettings p t).settings = { s.settings with ports := s.settings.ports.set p t } := rfl
@[simp] theorem State.setPortSettings_ports (p : PortId) (t : PortSettings) : (s.setPortSettings p t).ports = s.ports := rfl
@[simp] theorem State.setPortSettings_catalogueBusy (p : PortId) (t : PortSettings) : (s.setPortSettings p t).catalogueBusy = s.catalogueBusy := rfl
@[simp] theorem State.setPortSettings_openings (p : PortId) (t : PortSettings) : (s.setPortSettings p t).openings = s.openings := rfl
@[simp] theorem State.setPortSettings_replies (p : PortId) (t : PortSettings) : (s.setPortSettings p t).replies = s.replies := rfl
@[simp] theorem State.setPortSettings_files (p : PortId) (t : PortSettings) : (s.setPortSettings p t).files = s.files := rfl
@[simp] theorem State.setPortSettings_segments (p : PortId) (t : PortSettings) : (s.setPortSettings p t).segments = s.segments := rfl
@[simp] theorem State.setPortSettings_freeList (p : PortId) (t : PortSettings) : (s.setPortSettings p t).freeList = s.freeList := rfl
@[simp] theorem State.setPortSettings_switches (p : PortId) (t : PortSettings) : (s.setPortSettings p t).switches = s.switches := rfl
@[simp] theorem State.setPortSettings_store (p : PortId) (t : PortSettings) : (s.setPortSettings p t).store = s.store := rfl
@[simp] theorem State.setPortSettings_streams (p : PortId) (t : PortSettings) : (s.setPortSettings p t).streams = s.streams := rfl
@[simp] theorem State.setPortSettings_staging (p : PortId) (t : PortSettings) : (s.setPortSettings p t).staging = s.staging := rfl
@[simp] theorem State.setPortSettings_blocked (p : PortId) (t : PortSettings) : (s.setPortSettings p t).blocked = s.blocked := rfl
@[simp] theorem State.setPortSettings_completions (p : PortId) (t : PortSettings) : (s.setPortSettings p t).completions = s.completions := rfl
@[simp] theorem State.setPortSettings_waiting (p : PortId) (t : PortSettings) : (s.setPortSettings p t).waiting = s.waiting := rfl
@[simp] theorem State.setPortSettings_encodings (p : PortId) (t : PortSettings) : (s.setPortSettings p t).encodings = s.encodings := rfl
@[simp] theorem State.setPortSettings_headWait (p : PortId) (t : PortSettings) : (s.setPortSettings p t).headWait = s.headWait := rfl
@[simp] theorem State.setPortSettings_storeFullEpisode (p : PortId) (t : PortSettings) : (s.setPortSettings p t).storeFullEpisode = s.storeFullEpisode := rfl
@[simp] theorem State.setPortSettings_storePort (p : PortId) (t : PortSettings) : (s.setPortSettings p t).storePort = s.storePort := rfl
@[simp] theorem State.setPortSettings_holds (p : PortId) (t : PortSettings) : (s.setPortSettings p t).holds = s.holds := rfl
@[simp] theorem State.setPortSettings_pass (p : PortId) (t : PortSettings) : (s.setPortSettings p t).pass = s.pass := rfl
@[simp] theorem State.setPortSettings_passWoken (p : PortId) (t : PortSettings) : (s.setPortSettings p t).passWoken = s.passWoken := rfl
@[simp] theorem State.setPortSettings_sweep (p : PortId) (t : PortSettings) : (s.setPortSettings p t).sweep = s.sweep := rfl
@[simp] theorem State.setPortSettings_findings (p : PortId) (t : PortSettings) : (s.setPortSettings p t).findings = s.findings := rfl
@[simp] theorem State.setPortSettings_trail (p : PortId) (t : PortSettings) : (s.setPortSettings p t).trail = s.trail := rfl
@[simp] theorem State.setPortSettings_cursors (p : PortId) (t : PortSettings) : (s.setPortSettings p t).cursors = s.cursors := rfl
@[simp] theorem State.setPortSettings_clock (p : PortId) (t : PortSettings) : (s.setPortSettings p t).clock = s.clock := rfl

end Sys2Proof.Machine
end

