-- ==== Sys2Proof/Laws/Tables.lean ====
section
/-! SUPPORT. Laws of the sparse tables, of the segment store and of the Free Segment List: a read after a write, every
other place alone, and the canonical form kept by every operation. -/

namespace Sys2Proof.Machine

variable {α : Type}

/-! ## Reading after writing -/

theorem Sparse.get_insert (d : α) (k j : Nat) (v : α) (m : Sparse α) :
    Sparse.get d j (Sparse.insert k v m) = if j = k then v else Sparse.get d j m := by
  induction m with
  | nil => simp [Sparse.insert, Sparse.get, eq_comm]
  | cons e rest ih =>
    obtain ⟨i, w⟩ := e
    simp only [Sparse.insert]
    split
    · simp only [Sparse.get, eq_comm (a := k)]
    · split
      · subst i
        simp only [Sparse.get, eq_comm (a := k)]
        split <;> rfl
      · simp only [Sparse.get, ih]
        split
        · subst i
          rw [if_neg (by omega)]
        · rfl

theorem Sparse.get_filter (d : α) (k j : Nat) (m : Sparse α) :
    Sparse.get d j (m.filter (fun e => e.1 ≠ k)) = if j = k then d else Sparse.get d j m := by
  induction m with
  | nil => simp [Sparse.get]
  | cons e rest ih =>
    obtain ⟨i, w⟩ := e
    by_cases h : i = k
    · subst i
      simp only [ne_eq, not_true_eq_false, decide_false, Bool.false_eq_true, not_false_eq_true,
        List.filter_cons_of_neg, Sparse.get]
      rw [ih]
      by_cases hj : j = k
      · simp [hj]
      · simp [hj, Ne.symm hj]
    · rw [List.filter_cons_of_pos (by simpa using h)]
      simp only [Sparse.get]
      rw [ih]
      by_cases hj : i = j
      · subst i
        simp [h]
      · simp [hj]

theorem Sparse.get_set [DecidableEq α] (d : α) (k j : Nat) (v : α) (m : Sparse α) :
    Sparse.get d j (Sparse.set d k v m) = if j = k then v else Sparse.get d j m := by
  unfold Sparse.set
  split
  · rename_i h
    rw [Sparse.get_filter, h]
  · exact Sparse.get_insert d k j v m

@[simp] theorem Sparse.get_set_same [DecidableEq α] (d : α) (k : Nat) (v : α) (m : Sparse α) :
    Sparse.get d k (Sparse.set d k v m) = v := by simp [Sparse.get_set]

theorem Sparse.get_set_other [DecidableEq α] (d : α) {k j : Nat} (v : α) (m : Sparse α) (h : j ≠ k) :
    Sparse.get d j (Sparse.set d k v m) = Sparse.get d j m := by simp [Sparse.get_set, h]

/-! ## The canonical form -/

theorem Sparse.keys_insert (k : Nat) (v : α) (m : Sparse α) (x : Nat) :
    x ∈ (Sparse.insert k v m).map Prod.fst ↔ x = k ∨ x ∈ m.map Prod.fst := by
  induction m with
  | nil => simp [Sparse.insert]
  | cons e rest ih =>
    obtain ⟨i, w⟩ := e
    simp only [Sparse.insert]
    split
    · simp
    · split
      · subst i; simp
      · simp only [List.map_cons, List.mem_cons, ih]
        tauto

theorem Sparse.rising_insert (k : Nat) (v : α) (m : Sparse α) (h : (m.map Prod.fst).Pairwise (· < ·)) :
    ((Sparse.insert k v m).map Prod.fst).Pairwise (· < ·) := by
  induction m with
  | nil => simp [Sparse.insert]
  | cons e rest ih =>
    obtain ⟨i, w⟩ := e
    simp only [List.map_cons, List.pairwise_cons] at h
    obtain ⟨hi, hr⟩ := h
    simp only [Sparse.insert]
    split
    · rename_i hk
      simp only [List.map_cons, List.pairwise_cons, List.mem_cons]
      refine ⟨?_, hi, hr⟩
      rintro x (rfl | hx)
      · exact hk
      · exact Nat.lt_trans hk (hi x hx)
    · split
      · subst i
        simpa only [List.map_cons, List.pairwise_cons] using And.intro hi hr
      · simp only [List.map_cons, List.pairwise_cons]
        refine ⟨fun x hx => ?_, ih hr⟩
        rcases (Sparse.keys_insert k v rest x).mp hx with rfl | hx
        · omega
        · exact hi x hx

theorem Sparse.mem_insert {k : Nat} {v : α} {m : Sparse α} {e : Nat × α} (h : e ∈ Sparse.insert k v m) :
    e = (k, v) ∨ e ∈ m := by
  induction m with
  | nil => simpa [Sparse.insert] using h
  | cons f rest ih =>
    obtain ⟨i, w⟩ := f
    simp only [Sparse.insert] at h
    split at h
    · simpa using h
    · split at h
      · rcases List.mem_cons.mp h with h | h
        · exact .inl h
        · exact .inr (List.mem_cons_of_mem _ h)
      · rcases List.mem_cons.mp h with h | h
        · exact .inr (h ▸ List.mem_cons_self ..)
        · exact (ih h).imp id (List.mem_cons_of_mem _)

/-- Every write keeps the canonical form. -/
theorem Sparse.wf_set [DecidableEq α] (d : α) (k : Nat) (v : α) (m : Sparse α) (h : Sparse.wf d m = true) :
    Sparse.wf d (Sparse.set d k v m) = true := by
  simp only [Sparse.wf, Bool.and_eq_true, decide_eq_true_eq, List.all_eq_true, ne_eq] at h ⊢
  obtain ⟨hr, hd⟩ := h
  unfold Sparse.set
  split
  · refine ⟨hr.sublist (List.Sublist.map _ List.filter_sublist), fun e he => hd e ?_⟩
    exact List.mem_of_mem_filter he
  · refine ⟨Sparse.rising_insert k v m hr, fun e he => ?_⟩
    rcases Sparse.mem_insert he with rfl | he
    · assumption
    · exact hd e he

/-! ## The segment store -/

/-- What one byte of the store reads as after a write of bytes from an address on. -/
theorem get_writeBytes (a x : Nat) (bs : List Byte) (m : List Host.Cell) :
    Sparse.get unwrittenByte x (writeBytes a bs m)
      = if a ≤ x then bs[x - a]?.getD (Sparse.get unwrittenByte x m) else Sparse.get unwrittenByte x m := by
  induction bs generalizing a m with
  | nil => simp [writeBytes]
  | cons b rest ih =>
    simp only [writeBytes]
    rw [ih, Sparse.get_set]
    rcases Nat.lt_trichotomy x a with h | h | h
    · simp [Nat.not_le.mpr h, Nat.not_le.mpr (Nat.lt_succ_of_lt h), Nat.ne_of_lt h]
    · subst x
      simp
    · have h1 : a + 1 ≤ x := h
      have h2 : a ≤ x := Nat.le_of_lt h
      obtain ⟨n, rfl⟩ : ∃ n, x = a + 1 + n := ⟨x - (a + 1), by omega⟩
      simp [show a + 1 + n - a = n + 1 by omega, show a ≤ a + 1 + n by omega, show a + 1 + n ≠ a by omega]

/-- Outside the bytes written the store reads as before. -/
theorem get_writeBytes_outside (a x : Nat) (bs : List Byte) (m : List Host.Cell)
    (h : x < a ∨ a + bs.length ≤ x) :
    Sparse.get unwrittenByte x (writeBytes a bs m) = Sparse.get unwrittenByte x m := by
  rw [get_writeBytes]
  split
  · rw [List.getElem?_eq_none (by omega)]
    rfl
  · rfl

/-- Inside them it reads as written. -/
theorem get_writeBytes_inside (a k : Nat) (bs : List Byte) (m : List Host.Cell) (h : k < bs.length) :
    Sparse.get unwrittenByte (a + k) (writeBytes a bs m) = bs[k] := by
  rw [get_writeBytes]
  simp [h]

/-- Writing bytes keeps the store's canonical form. -/
theorem storeWf_writeBytes (a : Nat) (bs : List Byte) (m : List Host.Cell) (h : storeWf m = true) :
    storeWf (writeBytes a bs m) = true := by
  induction bs generalizing a m with
  | nil => exact h
  | cons b rest ih => exact ih _ _ (Sparse.wf_set _ _ _ _ h)

/-- The store right after reset is in canonical form. -/
theorem storeWf_reset : storeWf State.reset.store = true := by decide

/-! ## The Free Segment List -/

/-- Taking the head: the numbers that remain, in order. -/
theorem Runs.toList_pop (r : List (Nat × Nat)) :
    Runs.toList r = match Runs.pop r with | none => [] | some (x, rest) => x :: Runs.toList rest := by
  induction r with
  | nil => rfl
  | cons e rest ih =>
    obtain ⟨a, n⟩ := e
    cases n with
    | zero => simpa [Runs.pop, Runs.toList] using ih
    | succ n =>
      simp only [Runs.pop, Runs.toList, List.range'_succ]
      split
      · subst n
        simp
      · simp [Runs.toList]

/-- A number appended stands behind all others. -/
theorem Runs.toList_push (x : Nat) (r : List (Nat × Nat)) : Runs.toList (Runs.push x r) = Runs.toList r ++ [x] := by
  induction r with
  | nil => simp [Runs.push, Runs.toList]
  | cons e rest ih =>
    cases rest with
    | nil =>
      obtain ⟨a, n⟩ := e
      simp only [Runs.push]
      split
      · subst x
        simp [Runs.toList, List.range'_concat]
      · simp [Runs.toList]
    | cons q rest =>
      simp only [Runs.push, Runs.toList] at ih ⊢
      rw [ih]
      simp

theorem Runs.count_eq_length (r : List (Nat × Nat)) : Runs.count r = (Runs.toList r).length := by
  induction r with
  | nil => rfl
  | cons e rest ih => simp [Runs.count, Runs.toList, ih]

/-! ## Vectors -/

@[simp] theorem getElem_mapVector {β : Type} {n : Nat} (f : α → β) (v : Vector α n) (i : Nat) (h : i < n) :
    (mapVector f v)[i] = f v[i] := by
  simp [mapVector]

@[simp] theorem getElem_set_fin {n : Nat} (v : Vector α n) (i : Fin n) (a : α) : (v.set i a)[i] = a := by simp

theorem getElem_set_fin_ne {n : Nat} (v : Vector α n) (i j : Fin n) (a : α) (h : i ≠ j) : (v.set i a)[j] = v[j] := by
  simp only [Fin.getElem_fin]
  exact Vector.getElem_set_ne _ _ (fun e => h (Fin.ext e))

@[simp] theorem set_set_fin {n : Nat} (v : Vector α n) (i : Fin n) (a b : α) : (v.set i a).set i b = v.set i b := by
  simp

end Sys2Proof.Machine
end

