-- ==== Sys2Proof/Laws/Ops.lean ====
section
/-! SUPPORT. For the shared operations, one lemma each that says once everything it can do. -/

namespace Sys2Proof.Machine

/-! ## Requests (R154) -/

/-- The tests made before an entry is taken let a request on exactly when an entry is free and its tag is (R154, orders 1
and 2). -/
theorem State.entryBar_eq_none (s : State) (p : PortId) (tag : Byte) :
    s.entryBar p tag = none ↔ s.ports[p].outstanding.length < 8 ∧ ∀ o ∈ s.ports[p].outstanding, o.tag ≠ tag := by
  have hu : s.tagInUse p tag = true ↔ ∃ o ∈ s.ports[p].outstanding, o.tag = tag := by simp [State.tagInUse]
  unfold State.entryBar Config.outstandingRequests
  split
  · rename_i h
    exact ⟨fun h' => (by cases h'), fun h' => absurd h'.1 (Nat.not_lt.mpr h)⟩
  rename_i h
  split
  · rename_i ht
    obtain ⟨o, ho, ht⟩ := hu.mp ht
    exact ⟨fun h' => (by cases h'), fun h' => absurd ht (h'.2 o ho)⟩
  · rename_i ht
    rw [hu] at ht
    exact ⟨fun _ => ⟨Nat.lt_of_not_le h, fun o ho hn => ht ⟨o, ho, hn⟩⟩, fun _ => rfl⟩

/-- The tests of the frame let a well-formed frame on exactly in READY, and PART STATUS always (R154, orders 3 and 4). -/
theorem State.frameBar_eq_none (s : State) (always : Bool) :
    s.frameBar true always = none ↔ always = true ∨ (s.controller = .ready ∧ s.resetLow = false) := by
  unfold State.frameBar State.isStarting
  cases always <;> cases s.controller <;> cases s.resetLow <;> simp

/-- An admitted request of a well-formed frame goes on. -/
theorem State.receive_admitted {s : State} {p : PortId} {tag : Byte} (k : State → State) (h : s.admits p tag) :
    s.receive p tag true false k = k s := by
  obtain ⟨h1, h2, h3, h4, h5⟩ := h
  have he := (State.entryBar_eq_none s p tag).mpr ⟨h3, h4⟩
  have hf := (State.frameBar_eq_none s false).mpr (.inr h5)
  simp only [State.receive, State.hears, h1, h2, he, hf, Bool.and_self, if_true]

/-- An admitted request of a permitted port is answered. -/
theorem State.request_admitted {s : State} {p : PortId} {tag : Byte} {need : RoleSet → Bool} (answer : State → Answer)
    (h : s.admits p tag) (hr : need (s.roles p) = true) :
    s.request p tag true need answer = (answer s).send p tag := by
  simp only [State.request, State.receive_admitted _ h, State.permit, hr, if_true]

/-- What an arriving frame can lead to: nothing, a refusal of R154 without or with an entry of the outstanding table, or
the request's going on. -/
theorem State.receive_cases (s : State) (p : PortId) (tag : Byte) (formOk always : Bool) (k : State → State) :
    (s.hears p = false ∧ s.receive p tag formOk always k = s)
      ∨ (∃ status, s.entryBar p tag = some status ∧ s.receive p tag formOk always k = s.turnAway p tag status)
      ∨ (∃ status, s.entryBar p tag = none ∧ s.frameBar formOk always = some status
          ∧ s.receive p tag formOk always k = s.refuse p tag status)
      ∨ (s.hears p = true ∧ s.entryBar p tag = none ∧ s.frameBar formOk always = none
          ∧ s.receive p tag formOk always k = k s) := by
  unfold State.receive
  split
  · rename_i h
    split
    · rename_i st he
      exact .inr (.inl ⟨st, he, rfl⟩)
    · rename_i st he hf
      exact .inr (.inr (.inl ⟨st, he, hf, rfl⟩))
    · rename_i he hf
      exact .inr (.inr (.inr ⟨h, he, hf, rfl⟩))
  · rename_i h
    exact .inl ⟨by simpa using h, rfl⟩

/-- What a request can lead to: nothing, a refusal with no other change, or its owning block's answer. -/
theorem State.request_cases (s : State) (p : PortId) (tag : Byte) (formOk : Bool) (need : RoleSet → Bool)
    (answer : State → Answer) :
    s.request p tag formOk need answer = s
      ∨ (∃ status, s.request p tag formOk need answer = s.turnAway p tag status)
      ∨ (∃ status, s.request p tag formOk need answer = s.refuse p tag status)
      ∨ (need (s.roles p) = true ∧ s.request p tag formOk need answer = (answer s).send p tag) := by
  unfold State.request
  rcases State.receive_cases s p tag formOk false
    (fun s => s.permit p tag need (fun s => (answer s).send p tag)) with h | ⟨st, -, h⟩ | ⟨st, -, -, h⟩ | ⟨-, -, -, h⟩
  · exact .inl h.2
  · exact .inr (.inl ⟨st, h⟩)
  · exact .inr (.inr (.inl ⟨st, h⟩))
  · rw [h]
    unfold State.permit
    split
    · rename_i hn
      exact .inr (.inr (.inr ⟨hn, rfl⟩))
    · exact .inr (.inr (.inl ⟨_, rfl⟩))

/-- What an admitted and permitted request that asks the catalogue can lead to: a refusal, the answer within the step, or
an entry that stands while the request waits for the catalogue. -/
theorem State.opening_admitted {α : Type} {s : State} {p : PortId} {tag : Byte} {need : RoleSet → Bool}
    (ask : State → Except Status α) (request : α → OpeningRequest) (answer : α → State → Answer) (h : s.admits p tag)
    (hr : need (s.roles p) = true) :
    (∃ status, ask s = .error status ∧ s.opening p tag need ask request answer = s.refuse p tag status)
      ∨ (∃ b, ask s = .ok b ∧ s.catalogueFree = true
          ∧ s.opening p tag need ask request answer = (answer b s).send p tag)
      ∨ (∃ b, ask s = .ok b ∧ s.catalogueFree = false
          ∧ s.opening p tag need ask request answer = s.askCatalogue p tag (request b)) := by
  unfold State.opening
  rw [State.receive_admitted _ h]
  simp only [State.permit, hr, if_true]
  cases ask s with
  | error status => exact .inl ⟨status, rfl, rfl⟩
  | ok b =>
    cases hb : s.catalogueFree with
    | true => exact .inr (.inl ⟨b, rfl, rfl, by simp⟩)
    | false => exact .inr (.inr ⟨b, rfl, rfl, by simp⟩)

/-- The catalogue answers at once exactly when it is not busy and nothing waits for its answer (log entry 31). -/
theorem State.catalogueFree_iff (s : State) : s.catalogueFree = true ↔ s.catalogueBusy = false ∧ s.openings = [] := by
  simp [State.catalogueFree]

/-! ## Replies (R154, R157) -/

/-- A reply formed while the line is free leaves, and the tables stay. -/
theorem State.form_free {s : State} {p : PortId} (tag : Byte) (status : Status) (body : ReplyBody)
    (entries : List Outstanding) (h : s.ports[p].lineBusy = false) :
    s.form p tag status body entries = { s with replies := s.replies ++ [⟨p, tag, status, s.byteOrder p, body⟩] } := by
  simp only [State.form, h, Bool.false_eq_true, if_false]

/-- A reply formed while the line is busy waits behind the port's others, and its entries stand in the table. -/
theorem State.form_busy {s : State} {p : PortId} (tag : Byte) (status : Status) (body : ReplyBody)
    (entries : List Outstanding) (h : s.ports[p].lineBusy = true) :
    s.form p tag status body entries
      = s.setPort p { s.ports[p] with
          outstanding := s.ports[p].outstanding ++ entries
          unsent := s.ports[p].unsent ++ [⟨p, tag, status, s.byteOrder p, body⟩] } := by
  simp only [State.form, State.setPort, h, if_true]

/-- A late answer: its entry is freed, or stands answered while the reply waits. -/
theorem State.answer_cases (s : State) (p : PortId) (tag : Byte) (status : Status) (body : ReplyBody) :
    ((∃ o ∈ s.ports[p].outstanding, o.tag = tag) ∧ s.answer p tag status body = (s.freeTag p tag).reply p tag status body)
      ∨ ((∀ o ∈ s.ports[p].outstanding, o.tag ≠ tag) ∧ s.answer p tag status body = s.form p tag status body []) := by
  unfold State.answer
  split
  · rename_i h
    exact .inl ⟨by simpa using h, rfl⟩
  · rename_i h
    exact .inr ⟨by simpa using h, rfl⟩

/-! ## The end of a fetch (R137) -/

/-- A fetch whose reply is formed: on a free line it ends and its entry is freed; on a busy one it stays in progress, its
countdown as it is, and its reply waits. -/
theorem State.answerFetch_cases {s : State} {c : CursorId} {p : PortId} {q : Fetch} (status : Status) (skipped : Nat)
    (ho : s.cursors[c].owner = some p) (hq : s.cursors[c].fetch = some q) :
    let body := ReplyBody.records q.gathered skipped s.cursors[c].nextOrdinal
    (s.ports[p].lineBusy = false ∧ s.answerFetch c status skipped = (s.endFetch p c).answer p q.tag status body)
      ∨ (s.ports[p].lineBusy = true
        ∧ s.answerFetch c status skipped = (s.setStanding p q.tag (.delivering c)).form p q.tag status body []
        ∧ (s.answerFetch c status skipped).cursors = s.cursors) := by
  cases h : s.ports[p].lineBusy with
  | false => exact .inl ⟨rfl, by simp only [State.answerFetch, ho, hq, h, Bool.false_eq_true, if_false]⟩
  | true =>
    have e : s.answerFetch c status skipped = (s.setStanding p q.tag (.delivering c)).form p q.tag status
        (.records q.gathered skipped s.cursors[c].nextOrdinal) [] := by
      simp only [State.answerFetch, ho, hq, h, if_true]
    exact .inr ⟨rfl, e, by simp [e]⟩

/-- With no fetch waiting to be sent on its line, a port's waiting replies only leave. -/
theorem State.sendWaiting_plain {s : State} {p : PortId}
    (h : ∀ o ∈ s.ports[p].outstanding, ∀ c, o.standing ≠ .delivering c) : s.sendWaiting p = s.emptyLine p := by
  have e : s.ports[p].outstanding.filterMap (fun o => o.standing.delivers) = [] := by
    rw [List.filterMap_eq_nil_iff]
    intro o ho
    have := h o ho
    cases hs : o.standing <;> simp_all [Standing.delivers]
  rw [State.sendWaiting, e]
  rfl

/-! ## Reservations (R24, R135) -/

/-- The stream OPEN FILE looks for is one that is openable. -/
theorem State.streamOpenable_iff (s : State) (x : StreamId) :
    s.streamOpenable x ↔ (decide (s.streams[x].state = .idle) && !s.streamReserved x) = true := by
  simp only [State.streamOpenable, State.streamReserved, Bool.and_eq_true, decide_eq_true_eq, Bool.not_eq_true',
    List.any_eq_false, Bool.not_eq_true]
  refine and_congr Iff.rfl ⟨fun h o ho => ?_, fun h o ho b hb => ?_⟩
  · have := h o ho
    split
    · rename_i b hb
      simpa using this b hb
    · rfl
  · simpa [hb] using h o ho

/-- OPEN FILE takes the lowest openable stream. -/
theorem State.freeStream_eq_some {s : State} {x : StreamId} (h : s.streamOpenable x)
    (hl : ∀ y : StreamId, y < x → ¬s.streamOpenable y) : s.freeStream = some x := by
  unfold State.freeStream
  rw [List.find?_eq_some_iff_getElem]
  refine ⟨(State.streamOpenable_iff s x).mp h, x.val, by simp, by simp, fun j hj => ?_⟩
  have := hl ⟨j, by omega⟩ (by simpa [Fin.lt_def] using hj)
  rw [State.streamOpenable_iff] at this
  simp only [List.getElem_finRange, Bool.not_eq_true']
  exact by simpa only [Bool.not_eq_true, Fin.cast_mk] using this

/-- With no openable stream OPEN FILE finds none. -/
theorem State.freeStream_eq_none {s : State} (h : ∀ x, ¬s.streamOpenable x) : s.freeStream = none := by
  unfold State.freeStream
  rw [List.find?_eq_none]
  intro x _
  have := h x
  rwa [State.streamOpenable_iff] at this

/-- The cursor OPEN CURSOR looks for is one that is openable. -/
theorem State.cursorOpenable_iff (s : State) (c : CursorId) :
    s.cursorOpenable c ↔ (!s.cursors[c].isOpen && !s.cursorReserved c) = true := by
  simp only [State.cursorOpenable, State.cursorReserved, Bool.and_eq_true, Bool.not_eq_true',
    List.any_eq_false, Bool.not_eq_true]
  refine and_congr Iff.rfl ⟨fun h o ho => ?_, fun h o ho b hb => ?_⟩
  · have := h o ho
    split
    · rename_i b hb
      simpa using this b hb
    · rfl
  · simpa [hb] using h o ho

/-! ## Posting (R41, R43) -/

/-- A waiting STORE_FULL notice is posted with its room, or everything stays. -/
theorem State.postNotice_cases (s : State) (x : StreamId) :
    (s.streams[x].storeFullNotice = true ∧ s.completionRoom s.streams[x].port = true
        ∧ s.postNotice x = { (s.post x .storeFull).updateStream x (fun st => { st with storeFullNotice := false }) with
            waiting := s.waiting.filter (· ≠ WaitItem.notice x) })
      ∨ s.postNotice x = s := by
  unfold State.postNotice
  simp only
  split
  · rename_i h
    simp only [Bool.and_eq_true] at h
    exact .inl ⟨h.1, h.2, rfl⟩
  · exact .inr rfl

/-- An attempt to post: the entry stands behind a notice posted first, or there is no room. -/
theorem State.tryPost_cases (s : State) (x : StreamId) (d : CompletionDetail) :
    (((s.postNotice x).completionRoom (s.postNotice x).streams[x].port = true)
        ∧ s.tryPost x d = ((s.postNotice x).post x d, true))
      ∨ s.tryPost x d = (s.postNotice x, false) := by
  unfold State.tryPost
  simp only
  split
  · rename_i h
    simp only [Bool.and_eq_true] at h
    exact .inl ⟨h.2, rfl⟩
  · exact .inr rfl

/-- There is room exactly with a place of the 64 and of the port's 32 free (R41). -/
theorem State.completionRoom_iff (s : State) (p : PortId) :
    s.completionRoom p = true ↔ s.completions.length < 64 ∧ (s.completionsOf p).length < 32 := by
  simp [State.completionRoom, Config.completionEntries, Config.completionEntriesOfPort]

/-- With room and no notice set an entry is posted at once. -/
theorem State.tryPost_room {s : State} {x : StreamId} (d : CompletionDetail)
    (hr : s.completionRoom s.streams[x].port = true) (hn : s.streams[x].storeFullNotice = false) :
    s.tryPost x d = (s.post x d, true) := by
  simp only [State.tryPost, State.postNotice, hn, hr, Bool.false_and, Bool.false_eq_true, if_false, Bool.not_false,
    Bool.true_and, if_true]

/-- Without room nothing is posted and nothing changes. -/
theorem State.tryPost_full {s : State} {x : StreamId} (d : CompletionDetail)
    (hr : s.completionRoom s.streams[x].port = false) : s.tryPost x d = (s, false) := by
  simp only [State.tryPost, State.postNotice, hr, Bool.and_false, Bool.false_eq_true, if_false]

/-- Removing entries of the Completion Queue serves the wait list on the shorter queue; removing none changes nothing
(R42). -/
theorem State.removeCompletions_cases (s : State) (kept : List Completion) :
    (kept.length < s.completions.length
        ∧ s.removeCompletions kept = s.waiting.foldl State.serveWaiting { s with completions := kept })
      ∨ (s.completions.length ≤ kept.length ∧ s.removeCompletions kept = s) := by
  unfold State.removeCompletions
  split
  · rename_i h
    exact .inl ⟨h, rfl⟩
  · rename_i h
    exact .inr ⟨Nat.le_of_not_lt h, rfl⟩

/-! ## A port reset's streams (R35) -/

/-- All that a port reset does to a stream: an abort begins; or, with one begun, the cause is replaced and a waiting notice
cleared; or a settled stream is IDLE; or nothing, the stream being IDLE. -/
theorem State.resetStream_cases (s : State) (x : StreamId) :
    (s.streams[x].abortable = true ∧ s.resetStream x = s.beginAbort x .portReset)
      ∨ (s.streams[x].abortBegun = true ∧ s.resetStream x = s.recordCause x .portReset)
      ∨ (s.streams[x].settled = true ∧ s.resetStream x = s.streamIdle x)
      ∨ (s.streams[x].state = .idle ∧ s.resetStream x = s) := by
  unfold State.resetStream
  simp only
  split
  · exact .inl ⟨‹_›, rfl⟩
  · rename_i h
    split
    · exact .inr (.inl ⟨‹_›, rfl⟩)
    · split
      · exact .inr (.inr (.inl ⟨‹_›, rfl⟩))
      · exact .inr (.inr (.inr ⟨by simp_all [Stream.abortable], rfl⟩))

/-! ## The bytes of a stream (R28) -/

/-- A stream with a byte left in its buffer has exhausted none. -/
theorem State.exhaust_of_nextByte {s : State} {x : StreamId} (h : s.streams[x].nextByte.isSome = true) :
    s.exhaust x = s := by
  have hl : s.streams[x].current.consumed < s.streams[x].current.bytes.length := by
    simpa [Stream.nextByte] using h
  unfold State.exhaust
  simp only
  rw [if_neg]
  rintro ⟨-, -, h'⟩
  omega

/-! ## The pass and the clock -/

/-- The retry of a pass waiting for trail room: a woken pass revisits its index, any other waits on (R99). -/
theorem State.passRetry_cases (s : State) :
    (s.pass.state = .waitingTrail ∧ s.passWoken = true ∧ s.passRetry = ({ s with passWoken := false }).walkAgain)
      ∨ s.passRetry = s := by
  unfold State.passRetry
  split
  · rename_i h
    exact .inl ⟨h.1, h.2, rfl⟩
  · exact .inr rfl

/-- An internal second is a period of grace, the loss of the reference with two ticks, or one tick (R147). -/
theorem State.elapse_cases (s : State) :
    (s.clock.state ≠ .holdover ∧ s.clock.internalSeconds = 0
        ∧ s.elapse = { s with clock := { s.clock with internalSeconds := 1 } })
      ∨ (s.clock.internalSeconds = 1
        ∧ s.elapse = (State.tick
          { s with
            clock := { s.clock with
              state := if s.clock.state = .unset then .unset else .holdover
              referencePresent := false, internalSeconds := 2 } }).tick)
      ∨ ((2 ≤ s.clock.internalSeconds ∨ (s.clock.state = .holdover ∧ s.clock.internalSeconds = 0))
        ∧ s.elapse = s.tick) := by
  unfold State.elapse
  simp only
  split
  · rename_i h
    exact .inl ⟨h.1, h.2, rfl⟩
  rename_i h
  split
  · rename_i h1
    exact .inr (.inl ⟨h1, rfl⟩)
  · rename_i h1
    refine .inr (.inr ⟨?_, rfl⟩)
    by_cases h0 : s.clock.internalSeconds = 0
    · exact .inr ⟨Decidable.byContradiction fun hs => h ⟨hs, h0⟩, h0⟩
    · exact .inl (by omega)

/-! ## Aborts (R34, R71) -/

/-- An abort leaves the head's wait as it is, or turns the wait of a record of the stream into an abandoned one. -/
theorem State.abandonHead_cases (s : State) (x : StreamId) :
    ((∃ w r rest, s.headWait = some w ∧ s.staging = .record x r :: rest)
        ∧ s.abandonHead x = { s with headWait := some .abandoned })
      ∨ s.abandonHead x = s := by
  unfold State.abandonHead
  split
  · rename_i w y r rest hw hs
    split
    · rename_i h
      subst h
      exact .inl ⟨⟨w, r, rest, hw, hs⟩, rfl⟩
    · exact .inr rfl
  · exact .inr rfl

/-! ## Links (R157) -/

/-- A port reset's first act empties the table and the unsent replies of its port and leaves every other port. -/
theorem State.discardRequests_other (s : State) {p q : PortId} (h : q ≠ p) :
    (s.discardRequests p).ports[q] = s.ports[q] := by
  simp only [State.discardRequests, State.setPort_ports]
  exact Vector.getElem_set_ne _ _ (fun h' => h (Fin.ext h'.symm))

/-! ## The idle step (log entry 31) -/

/-- The answer to a request outstanding in the catalogue goes to the request that asked it, or, a port reset having
discarded that, to none (R158). -/
theorem State.answerOpening_cases (s : State) (o : Opening) :
    (∃ tag, o.tag = some tag
        ∧ s.answerOpening o = (s.openingAnswer o.port o.request).sendLate o.port tag)
      ∨ (o.tag = none ∧ s.answerOpening o = s.runOn o.port o.request) := by
  unfold State.answerOpening
  split
  · rename_i tag h
    exact .inl ⟨tag, h, rfl⟩
  · rename_i h
    exact .inr ⟨h, rfl⟩

/-- What the step on an empty queue can do: nothing, the leaving of one port's waiting replies, or the answer to the
oldest request outstanding in the catalogue. -/
theorem State.idle_cases (s : State) :
    s.idle = s ∨ (∃ p, s.ports[p].unsent ≠ [] ∧ s.idle = s.sendWaiting p)
      ∨ (∃ o rest, s.openings = o :: rest ∧ s.idle = ({ s with openings := rest }).answerOpening o) := by
  unfold State.idle
  split
  · exact .inl rfl
  split
  · rename_i p hp
    exact .inr (.inl ⟨p, by simpa using List.find?_some hp, rfl⟩)
  split
  · rename_i o rest ho
    exact .inr (.inr ⟨o, rest, ho, rfl⟩)
  · exact .inl rfl

/-! ## The catalogue -/

/-- A removal takes an INGESTING file's chain and entry away, or nothing (R4). -/
theorem State.removeFile_cases (s : State) (i : Nat) :
    (∃ f, s.file i = some f ∧ f.state = .ingesting ∧ s.removeFile i = some (s.releaseFile i f))
      ∨ s.removeFile i = none := by
  unfold State.removeFile
  split
  · rename_i f hf
    split
    · rename_i h
      exact .inl ⟨f, hf, h, rfl⟩
    · exact .inr rfl
  · exact .inr rfl

/-- A reclaim takes an EXPIRING file without pins away, or nothing (R14). -/
theorem State.reclaimFile_cases (s : State) (i : Nat) :
    (∃ f, s.file i = some f ∧ f.state = .expiring ∧ f.pinCount = 0 ∧ s.reclaimFile i = some (s.releaseFile i f))
      ∨ s.reclaimFile i = none := by
  unfold State.reclaimFile
  split
  · rename_i f hf
    split
    · rename_i h
      exact .inl ⟨f, hf, h.1, h.2, rfl⟩
    · exact .inr rfl
  · exact .inr rfl

/-- A finish makes a FILLING segment STORED with its figures, or nothing (R8). -/
theorem State.finishStored_cases (s : State) (n : Nat) (g : Figures) :
    ((s.segment n).state = .filling
        ∧ s.finishStored n g
          = some (s.setSegment n { s.segment n with state := .stored, figures := g, unreported := false }))
      ∨ s.finishStored n g = none := by
  unfold State.finishStored
  simp only
  split
  · rename_i h
    exact .inl ⟨h, rfl⟩
  · exact .inr rfl

/-- An unpin lowers a positive pin count by 1 (R16). -/
theorem State.unpin_cases (s : State) (i : Nat) :
    (∃ f, s.file i = some f ∧ 0 < f.pinCount
        ∧ s.unpin i = some (f.pinCount - 1, f.state, s.setFile i { f with pinCount := f.pinCount - 1 }))
      ∨ s.unpin i = none := by
  unfold State.unpin
  split
  · rename_i f hf
    split
    · exact .inr rfl
    · rename_i h
      exact .inl ⟨f, hf, Nat.pos_of_ne_zero h, rfl⟩
  · exact .inr rfl

/-- The reclaim step returns a file no longer due, reclaims one that is with its FILE_EXPIRED entry, or finds the trail
full (R98). -/
theorem State.reclaimStep_cases (s : State) (i : Nat) (f : File) :
    (s.dueToExpire f = false ∧ s.reclaimStep i f = (.returned, (s.returnAccepted i).getD s))
      ∨ (s.dueToExpire f = true ∧ s.trailRoom = true
          ∧ s.reclaimStep i f
            = (.reclaimed, ((s.record .fileExpired none (f.subject i) f.recordCount).reclaimFile i).getD s))
      ∨ (s.dueToExpire f = true ∧ s.trailRoom = false ∧ s.reclaimStep i f = (.trailFull, s)) := by
  unfold State.reclaimStep
  split
  · rename_i h
    exact .inl ⟨by simpa using h, rfl⟩
  · rename_i h
    have hd : s.dueToExpire f = true := by simpa using h
    split
    · rename_i ht
      exact .inr (.inl ⟨hd, ht, rfl⟩)
    · rename_i ht
      exact .inr (.inr ⟨hd, by simpa using ht, rfl⟩)

/-- A start cause begins a pass on a set clock with none in progress, and sets pass-again otherwise (R95). -/
theorem State.startCause_cases (s : State) :
    (s.pass.state = .idle ∧ s.clockIsSet = true ∧ s.startCause = { s with pass := s.pass.begin })
      ∨ s.startCause = { s with pass := { s.pass with again := true } } := by
  unfold State.startCause
  split
  · rename_i h
    exact .inl ⟨h.1, h.2, rfl⟩
  · exact .inr rfl

/-- An acceptance with trail room appends its entry and changes the file, in one step; without room the stream keeps its
verdict (R40). -/
theorem State.acceptStream_full {s : State} {x : StreamId} {reasons : DisputeReasons} (h : s.trailRoom = false) :
    s.acceptStream x reasons = s.updateStream x (fun st => { st with state := .closing, verdict := some reasons }) := by
  simp only [State.acceptStream, h, Bool.false_eq_true, if_false]

/-! ## The store -/

/-- A write changes only the bytes of header and payload. -/
theorem State.writeDone_outside (s : State) (x : StreamId) (n : Nat) (i : WriteImage)
    (hi : s.encodings[x].image = some i) (hr : s.encodings[x].removal = .none) (a : Nat)
    (ha : a < storeAddress n 0 ∨ storeAddress n 0 + (i.header ++ i.payload).length ≤ a) :
    (s.writeDone x n).storeByte a = s.storeByte a := by
  have hf := State.finishStored_cases
    ({ s with store := writeBytes (storeAddress n 0) (i.header ++ i.payload) s.store }.dropImage x) n i.figures
  simp only [State.writeDone, hi, hr, reduceCtorEq, if_false]
  rcases hf with ⟨-, hf⟩ | hf <;> rw [hf] <;>
    exact get_writeBytes_outside _ _ _ _ ha

end Sys2Proof.Machine
end

