-- ==== Sys2Proof/Laws/PerInstr.lean ====
section
/-! SUPPORT. Statements made for each command apart. Form: the frame a station writes for a well-formed request has a
body length the table of 12.2 allows for its kind; a command that is no request has no frame. -/

namespace Sys2Proof.Laws

/-- Whether a command is a request of the table of 12.2. -/
def isRequest : Instr → Bool
  | .openFile .. => true
  | .ingestChunk .. => true
  | .resumeStream .. => true
  | .abortStream .. => true
  | .openCursor .. => true
  | .fetchRecords .. => true
  | .closeCursor .. => true
  | .fetchFindings .. => true
  | .fetchTrail .. => true
  | .ackTrail .. => true
  | .setSweepSettings .. => true
  | .startSweep .. => true
  | .stopSweep .. => true
  | .stepSweep .. => true
  | .restartSweep .. => true
  | .loadClassEntries .. => true
  | .loadFieldMap .. => true
  | .setRetention .. => true
  | .placeHold .. => true
  | .releaseHold .. => true
  | .expireNow .. => true
  | .pauseExpiry .. => true
  | .resumeExpiry .. => true
  | .clearDispute .. => true
  | .acceptLoss .. => true
  | .setClock .. => true
  | .setRoles .. => true
  | .setPortSettings .. => true
  | .moduleReset .. => true
  | .fileInfo .. => true
  | .listFiles .. => true
  | .segmentInfo .. => true
  | .fetchCompletions .. => true
  | .partStatus .. => true
  | .unknownRequestFrame .. => false
  | .damagedFrameDiscarded .. => false
  | .linkLoss .. => false
  | .linkReset .. => false
  | .linkEstablished .. => false
  | .resetInputAsserted .. => false
  | .resetInputReleased => false
  | .powerOn => false
  | .startupCleanup => false
  | .referencePulse .. => false
  | .internalSecond => false
  | .streamCountdownExpiry .. => false
  | .cursorIdleExpiry .. => false
  | .sweepRestExpiry => false
  | .streamByte .. => false
  | .blockedStreamResumed => false
  | .completionWaitServed => false
  | .encoderTakeHead => false
  | .storeFullWaitRetry => false
  | .imageWaitEnd => false
  | .storeWriteComplete => false
  | .storeWriteError .. => false
  | .closeAcknowledgement .. => false
  | .closingStreamTrailRetry .. => false
  | .abortReached .. => false
  | .sweepLook => false
  | .sweepLogRoom => false
  | .sweepReadComplete .. => false
  | .retrievalReadComplete .. => false
  | .passVisit => false
  | .passTrailRetry => false
  | .powerLoss => false

namespace Form

/-- A well-formed request has a frame, its body of an allowed length; another command has none. -/
def Statement (i : Instr) : Prop :=
  i.wf = true → match i.request with
    | some (_, _, kind, body) => isRequest i = true ∧ bodyLengthOk kind.toNat body.length = true
    | none => isRequest i = false

theorem entries_length (es : List WireClassEntry) :
    (es.map (fun e => e.bytes.length)).sum = 4 * es.length := by
  induction es with
  | nil => rfl
  | cons e rest ih =>
    rw [List.map_cons, List.sum_cons, ih, List.length_cons]
    simp only [WireClassEntry.bytes, List.length_cons, List.length_nil]
    omega

theorem openFile (port : PortId) (tag : Byte) (switchId : Wire16) (sequence : Wire16) (fileDay : Wire16) (retentionClass : Byte) (profile : Byte) : Statement (.openFile port tag switchId sequence fileDay retentionClass profile) := fun _ => ⟨rfl, rfl⟩
theorem ingestChunk (port : PortId) (tag : Byte) (stream : Byte) (final : Byte) (nextMode : Byte) (chunk : List Byte) : Statement (.ingestChunk port tag stream final nextMode chunk) := by
  intro h
  simp only [Instr.wf, decide_eq_true_eq] at h
  simp [Instr.request, isRequest, bodyLengthOk]
  omega
theorem resumeStream (port : PortId) (tag : Byte) (stream : Byte) (present : Byte) (kind : Byte) (includeInCheck : Byte) (nextMode : Byte) (hold : Byte) : Statement (.resumeStream port tag stream present kind includeInCheck nextMode hold) := fun _ => ⟨rfl, rfl⟩
theorem abortStream (port : PortId) (tag : Byte) (stream : Byte) : Statement (.abortStream port tag stream) := fun _ => ⟨rfl, rfl⟩
theorem openCursor (port : PortId) (tag : Byte) (switchId : Wire16) (sequence : Wire16) (present : Byte) (start : Wire32) : Statement (.openCursor port tag switchId sequence present start) := fun _ => ⟨rfl, rfl⟩
theorem fetchRecords (port : PortId) (tag : Byte) (cursor : Byte) (count : Wire16) : Statement (.fetchRecords port tag cursor count) := fun _ => ⟨rfl, rfl⟩
theorem closeCursor (port : PortId) (tag : Byte) (cursor : Byte) : Statement (.closeCursor port tag cursor) := fun _ => ⟨rfl, rfl⟩
theorem fetchFindings (port : PortId) (tag : Byte) : Statement (.fetchFindings port tag) := fun _ => ⟨rfl, rfl⟩
theorem fetchTrail (port : PortId) (tag : Byte) : Statement (.fetchTrail port tag) := fun _ => ⟨rfl, rfl⟩
theorem ackTrail (port : PortId) (tag : Byte) (sequence : Wire32) : Statement (.ackTrail port tag sequence) := fun _ => ⟨rfl, rfl⟩
theorem setSweepSettings (port : PortId) (tag : Byte) (window : Wire16) (rest : Wire16) (freeze : Byte) : Statement (.setSweepSettings port tag window rest freeze) := fun _ => ⟨rfl, rfl⟩
theorem startSweep (port : PortId) (tag : Byte) : Statement (.startSweep port tag) := fun _ => ⟨rfl, rfl⟩
theorem stopSweep (port : PortId) (tag : Byte) : Statement (.stopSweep port tag) := fun _ => ⟨rfl, rfl⟩
theorem stepSweep (port : PortId) (tag : Byte) : Statement (.stepSweep port tag) := fun _ => ⟨rfl, rfl⟩
theorem restartSweep (port : PortId) (tag : Byte) : Statement (.restartSweep port tag) := fun _ => ⟨rfl, rfl⟩
theorem loadClassEntries (port : PortId) (tag : Byte) (profile : Byte) (mode : Byte) (firstByte : Byte) (count : Wire16) (entries : List WireClassEntry) : Statement (.loadClassEntries port tag profile mode firstByte count entries) := by
  intro h
  simp only [Instr.wf, Bool.decide_and, Bool.and_eq_true, decide_eq_true_eq] at h
  simp [Instr.request, isRequest, bodyLengthOk, entries_length, Wire16.bytes]
  omega
theorem loadFieldMap (port : PortId) (tag : Byte) (profile : Byte) (targets : List Byte) (rounding : Byte) (overflow : Byte) : Statement (.loadFieldMap port tag profile targets rounding overflow) := by
  intro h
  simp only [Instr.wf, decide_eq_true_eq] at h
  simp [Instr.request, isRequest, bodyLengthOk, h]
theorem setRetention (port : PortId) (tag : Byte) (retentionClass : Byte) (days : Wire16) : Statement (.setRetention port tag retentionClass days) := fun _ => ⟨rfl, rfl⟩
theorem placeHold (port : PortId) (tag : Byte) (selector : Wire16) (firstDay : Wire16) (lastDay : Wire16) (labelPresent : Byte) (labelLength : Byte) (label : List Byte) : Statement (.placeHold port tag selector firstDay lastDay labelPresent labelLength label) := by
  intro h
  simp only [Instr.wf, decide_eq_true_eq] at h
  simp [Instr.request, isRequest, bodyLengthOk, Wire16.bytes, h]
theorem releaseHold (port : PortId) (tag : Byte) (hold : Byte) : Statement (.releaseHold port tag hold) := fun _ => ⟨rfl, rfl⟩
theorem expireNow (port : PortId) (tag : Byte) : Statement (.expireNow port tag) := fun _ => ⟨rfl, rfl⟩
theorem pauseExpiry (port : PortId) (tag : Byte) : Statement (.pauseExpiry port tag) := fun _ => ⟨rfl, rfl⟩
theorem resumeExpiry (port : PortId) (tag : Byte) : Statement (.resumeExpiry port tag) := fun _ => ⟨rfl, rfl⟩
theorem clearDispute (port : PortId) (tag : Byte) (switchId : Wire16) (sequence : Wire16) : Statement (.clearDispute port tag switchId sequence) := fun _ => ⟨rfl, rfl⟩
theorem acceptLoss (port : PortId) (tag : Byte) (switchId : Wire16) (sequence : Wire16) : Statement (.acceptLoss port tag switchId sequence) := fun _ => ⟨rfl, rfl⟩
theorem setClock (port : PortId) (tag : Byte) (value : Wire32) : Statement (.setClock port tag value) := fun _ => ⟨rfl, rfl⟩
theorem setRoles (port : PortId) (tag : Byte) (target : Byte) (roles : Byte) : Statement (.setRoles port tag target roles) := fun _ => ⟨rfl, rfl⟩
theorem setPortSettings (port : PortId) (tag : Byte) (target : Byte) (byteOrder : Byte) (streamTimeout : Byte) (cursorTimeout : Byte) : Statement (.setPortSettings port tag target byteOrder streamTimeout cursorTimeout) := fun _ => ⟨rfl, rfl⟩
theorem moduleReset (port : PortId) (tag : Byte) : Statement (.moduleReset port tag) := fun _ => ⟨rfl, rfl⟩
theorem fileInfo (port : PortId) (tag : Byte) (switchId : Wire16) (sequence : Wire16) : Statement (.fileInfo port tag switchId sequence) := fun _ => ⟨rfl, rfl⟩
theorem listFiles (port : PortId) (tag : Byte) (selector : Wire16) (firstDay : Wire16) (lastDay : Wire16) (states : Byte) (start : Wire32) (count : Byte) : Statement (.listFiles port tag selector firstDay lastDay states start count) := fun _ => ⟨rfl, rfl⟩
theorem segmentInfo (port : PortId) (tag : Byte) (segment : Wire32) : Statement (.segmentInfo port tag segment) := fun _ => ⟨rfl, rfl⟩
theorem fetchCompletions (port : PortId) (tag : Byte) : Statement (.fetchCompletions port tag) := fun _ => ⟨rfl, rfl⟩
theorem partStatus (port : PortId) (tag : Byte) : Statement (.partStatus port tag) := fun _ => ⟨rfl, rfl⟩
theorem unknownRequestFrame (port : PortId) (tag : Byte) (kind : Byte) (length : Wire16) (body : List Byte) : Statement (.unknownRequestFrame port tag kind length body) := fun _ => rfl
theorem damagedFrameDiscarded (port : PortId) (frame : List Byte) : Statement (.damagedFrameDiscarded port frame) := fun _ => rfl
theorem linkLoss (port : PortId) : Statement (.linkLoss port) := fun _ => rfl
theorem linkReset (port : PortId) : Statement (.linkReset port) := fun _ => rfl
theorem linkEstablished (port : PortId) : Statement (.linkEstablished port) := fun _ => rfl
theorem resetInputAsserted (microseconds : Nat) : Statement (.resetInputAsserted microseconds) := fun _ => rfl
theorem resetInputReleased : Statement .resetInputReleased := fun _ => rfl
theorem powerOn : Statement .powerOn := fun _ => rfl
theorem startupCleanup : Statement .startupCleanup := fun _ => rfl
theorem referencePulse (half : Bool) : Statement (.referencePulse half) := fun _ => rfl
theorem internalSecond : Statement .internalSecond := fun _ => rfl
theorem streamCountdownExpiry (stream : StreamId) : Statement (.streamCountdownExpiry stream) := fun _ => rfl
theorem cursorIdleExpiry (cursor : CursorId) : Statement (.cursorIdleExpiry cursor) := fun _ => rfl
theorem sweepRestExpiry : Statement .sweepRestExpiry := fun _ => rfl
theorem streamByte (stream : StreamId) : Statement (.streamByte stream) := fun _ => rfl
theorem blockedStreamResumed : Statement .blockedStreamResumed := fun _ => rfl
theorem completionWaitServed : Statement .completionWaitServed := fun _ => rfl
theorem encoderTakeHead : Statement .encoderTakeHead := fun _ => rfl
theorem storeFullWaitRetry : Statement .storeFullWaitRetry := fun _ => rfl
theorem imageWaitEnd : Statement .imageWaitEnd := fun _ => rfl
theorem storeWriteComplete : Statement .storeWriteComplete := fun _ => rfl
theorem storeWriteError (left : List Byte) : Statement (.storeWriteError left) := fun _ => rfl
theorem closeAcknowledgement (stream : StreamId) : Statement (.closeAcknowledgement stream) := fun _ => rfl
theorem closingStreamTrailRetry (stream : StreamId) : Statement (.closingStreamTrailRetry stream) := fun _ => rfl
theorem abortReached (stream : StreamId) : Statement (.abortReached stream) := fun _ => rfl
theorem sweepLook : Statement .sweepLook := fun _ => rfl
theorem sweepLogRoom : Statement .sweepLogRoom := fun _ => rfl
theorem sweepReadComplete (report : ReadReport) : Statement (.sweepReadComplete report) := fun _ => rfl
theorem retrievalReadComplete (report : ReadReport) : Statement (.retrievalReadComplete report) := fun _ => rfl
theorem passVisit : Statement .passVisit := fun _ => rfl
theorem passTrailRetry : Statement .passTrailRetry := fun _ => rfl
theorem powerLoss : Statement .powerLoss := fun _ => rfl

end Form

end Sys2Proof.Laws
end

