-- ==== Sys2Proof/Tests/Slice0.lean ====
section
/-! SUPPORT. Tests: the refusals of WellFormed, the worked cases of the spec, single commands on small states, and for
each statement with hypotheses a witness that meets them. Expected values come from spec/. -/

namespace Sys2Proof.Tests

open Sys2Proof Sys2Proof.Machine

set_option Elab.async false

/-! ## WellFormed -/

/-- Each check of WellFormed refuses an ill-formed term. -/
theorem test_wf_refuses :
    (Instr.ingestChunk 0 1 0 0 0 (List.replicate 16385 0)).wf = false
      ∧ (Instr.loadClassEntries 0 1 0 0 0 ⟨0, 0⟩ []).wf = false
      ∧ (Instr.loadClassEntries 0 1 0 0 0 ⟨0, 0⟩ (List.replicate 257 ⟨0, 0, 0, 0⟩)).wf = false
      ∧ (Instr.loadFieldMap 0 1 0 (List.replicate 15 9) 0 0).wf = false
      ∧ (Instr.placeHold 0 1 ⟨255, 255⟩ ⟨0, 0⟩ ⟨0, 0⟩ 0 0 (List.replicate 17 0)).wf = false
      ∧ (Instr.unknownRequestFrame 0 1 52 ⟨0, 0⟩ []).wf = false
      ∧ (Instr.sweepReadComplete (.complete [(1048576, 0)])).wf = false
      ∧ (Instr.retrievalReadComplete (.complete [(1048576, 0)])).wf = false := by
  decide +kernel

/-- A failed write cannot leave more than an extent. -/
theorem test_wf_refuses_long_write : (Instr.storeWriteError (List.replicate 1048577 0)).wf = false := by
  simp only [Instr.wf, List.length_replicate]; decide

/-- A chunk of no byte is a command of the table (R26 refuses it), and a kind outside 12.2 is an unknown frame. -/
theorem test_wf_takes :
    (Instr.ingestChunk 0 1 0 0 0 []).wf = true ∧ (Instr.unknownRequestFrame 0 1 5 ⟨0, 0⟩ []).wf = true
      ∧ (Instr.unknownRequestFrame 0 1 52 ⟨0, 1⟩ []).wf = true := by decide +kernel

/-! ## Frames (12.2) -/

/-- SET RETENTION of class 2 with 1,825 days (7 × 256 + 33), in either byte order. -/
theorem test_frame_set_retention :
    readFrame .little 0 [7, 34, 3, 0, 2, 33, 7] = .setRetention 0 7 2 ⟨33, 7⟩
      ∧ readFrame .big 0 [7, 34, 0, 3, 2, 7, 33] = .setRetention 0 7 2 ⟨7, 33⟩
      ∧ wire16 .little ⟨33, 7⟩ = 1825 ∧ wire16 .big ⟨7, 33⟩ = 1825 := by decide +kernel

/-- SET CLOCK with 1,700,006,400, which is 101, 84, 10, 0 most significant first (7.7). -/
theorem test_frame_set_clock :
    readFrame .big 0 [1, 42, 0, 4, 101, 84, 10, 0] = .setClock 0 1 ⟨101, 84, 10, 0⟩
      ∧ wire32 .big ⟨101, 84, 10, 0⟩ = 1700006400 ∧ wire32 .little ⟨0, 10, 84, 101⟩ = 1700006400 := by decide +kernel

/-- A length field that differs from the body and a kind outside the table are unknown frames (R168). -/
theorem test_frame_unknown :
    readFrame .little 2 [9, 52, 1, 0] = .unknownRequestFrame 2 9 52 ⟨1, 0⟩ []
      ∧ readFrame .little 2 [9, 5, 0, 0] = .unknownRequestFrame 2 9 5 ⟨0, 0⟩ [] := by decide +kernel

/-! ## Worked cases -/

/-- 3.3.1: 21, 0 and 210 give 18,088,168; nothing gives 1. -/
theorem test_dual_sum : dualSumOf [21, 0, 210] = 18088168 ∧ dualSumOf [] = 1 := by decide +kernel

/-- The four records of 4.5. -/
def workedRecords : List CallRecord :=
  [{ start := 1700036130, duration := 1874, calling := [4, 9, 1, 5, 2, 0, 1, 2, 3, 4, 5, 6, 7],
     called := [4, 9, 3, 0, 1, 2, 3, 4, 5, 6, 7, 8], trunkIn := some 17, cause := some 16, service := 1 },
   { start := 1700036127, duration := 450, calling := [4, 9, 1, 5, 2, 0, 1, 2, 3, 9, 9, 9, 9],
     called := [4, 9, 3, 0, 1, 2, 3, 4, 5, 6, 7, 9], trunkIn := some 17, trunkOut := some 230, cause := some 16,
     service := 1 },
   { start := 1700036162, duration := 127, called := [4, 9, 3, 0, 1, 2, 3], service := 2 },
   { start := 1700036170, duration := 30, calling := [4, 9, 1, 5, 1],
     called := [4, 9, 3, 0, 1, 2, 3, 4, 5, 6, 7, 8, 9, 0, 1, 2, 3, 4, 5, 6, 7, 8, 9, 0], service := 1,
     clamped := true }]

/-- Their 64 bytes (4.5). -/
def workedPayload : List Byte :=
  [21, 0, 210, 14, 0, 13, 73, 21, 32, 18, 52, 86, 127, 0, 12, 73, 48, 18, 52, 86, 120, 17, 16]
    ++ [23, 5, 194, 3, 9, 4, 153, 153, 11, 1, 159, 17, 230, 1, 16] ++ [32, 70, 127, 0, 0, 7, 0]
    ++ [24, 16, 30, 0, 5, 73, 21, 31, 7, 17, 69, 103, 137, 1, 35, 69, 103, 137, 15]

/-- 4.5: the four records encode to those bytes and come back from them, 2,481 tenths in all. -/
theorem test_worked_segment :
    encodeRecords (firstPrevious 1700036130) workedRecords = workedPayload ∧ workedPayload.length = 64
      ∧ decodePayload { recordCount := 4, baseTime := 1700036130, encodedLength := 64 } workedPayload
        = some workedRecords
      ∧ durationSumOf workedRecords = 2481 := by decide +kernel

/-- The text of a column. -/
def text (bytes : List Byte) : FieldText := { bytes }

/-- R63: "187.4", "45", "12.75", "5.", ".5" and "9999999.95", and "10000000" is an overflow, "1.2.3" no form. -/
theorem test_durations :
    durationOf [49, 56, 55, 46, 52] = some 1874 ∧ durationOf [52, 53] = some 450
      ∧ durationOf [49, 50, 46, 55, 53] = some 127 ∧ durationOf [53, 46] = some 50 ∧ durationOf [46, 53] = some 5
      ∧ durationOf [57, 57, 57, 57, 57, 57, 57, 46, 57, 53] = some 99999999
      ∧ convertDuration {} (text [49, 48, 48, 48, 48, 48, 48, 48]) = .overflow { duration := 99999999 }
      ∧ convertDuration {} (text [49, 46, 50, 46, 51]) = .bad .format := by decide +kernel

/-- R61: "0065536" overflows a trunk to 65,535 and "00017" is 17. R62: 23:59:59 of day 49,709 is the last second. -/
theorem test_numbers :
    convertColumn 0 .trunkIn (text [48, 48, 54, 53, 53, 51, 54]) {} = .overflow { trunkIn := some 65535 }
      ∧ convertColumn 0 .trunkIn (text [48, 48, 48, 49, 55]) {} = .value { trunkIn := some 17 }
      ∧ convertColumn 49709 .startClock (text [50, 51, 53, 57, 53, 57]) {} = .value { start := 4294943999 }
      ∧ convertColumn 0 .called (text []) {} = .bad .missingField := by decide +kernel

/-- The next state of an outcome. -/
def after (o : Host.Outcome State Fault Refusal) : Option State :=
  match o with
  | .next t => some t
  | .fault _ => none
  | .refused _ => none

theorem next_of_after {o : Host.Outcome State Fault Refusal} (h : (after o).isSome = true) : ∃ t, o = .next t := by
  cases o with
  | next t => exact ⟨t, rfl⟩
  | fault _ => cases h
  | refused _ => cases h

/-- The module right after reset, made READY with every link UP. -/
def opened : State :=
  { State.reset with
    controller := .ready, initialised := true, ports := Vector.replicate 4 { up := true }
    clock := { referencePresent := true } }

/-- The same with the clock at the first second of day 19,676 (7.7). -/
def ready : State :=
  { opened with clock := { value := 1700006400, state := .reference, referencePresent := true } }

/-- The file of event 3 of 7.7 while it is open. -/
def openFile : File :=
  { switchId := 12, sequence := 400, fileDay := 19676, retentionClass := 2, profile := 0, rounding := .nearest,
    overflow := .clamp, state := .ingesting, openingPort := 0 }

/-- The stream that carries it, and the state they stand in. -/
def openStream : Stream :=
  { state := .running, owner := some 0, fileIndex := some 0, switchId := some 12, sequence := some 400,
    profile := some 0 }

def withStream (st : Stream) : State :=
  { ready with
    streams := ready.streams.set 0 st, files := [(0, some openFile)], switches := [(12, { fileCount := 1 })] }

/-- The trail after the first three events of 7.7. -/
theorem test_worked_chain :
    let one := Trail.append {} 1700006400 .clockSet (some 0) (.clock 0 1700006400) 0
    let two := one.append 1700006405 .retentionChanged (some 0) (.index 2) 1825
    let three := two.append 1700010000 .fileAccepted (some 0) (.file 12 400 0 {}) 52768
    three.entries.map TrailEntry.chain = [380764560, 1281032845, 2738947324] ∧ three.lastChain = 2738947324
      ∧ three.nextSequence = 3 ∧ (three.removeOldest 2).baseChain = 1281032845 := by decide +kernel

/-! ## Single commands -/

/-- Event 1 of 7.7: SET CLOCK on the UNSET clock. -/
theorem test_set_clock :
    (after (exec (.setClock 0 1 ⟨0, 10, 84, 101⟩) opened)).map
        (fun t => (t.trail.lastChain, t.clock.value, t.clock.state, t.replies.map Reply.status, t.pass.state))
      = some (380764560, 1700006400, .reference, [.ok], .walking) := by decide +kernel

/-- R147: from power-on the first internal second of an UNSET clock takes no tick, the second takes two, each later one
takes one; a countdown of 9 shows it. -/
theorem test_grace_second :
    let s (n m : Nat) : State :=
      { opened with
        clock := { internalSeconds := n }, cursors := opened.cursors.set 0 { isOpen := true, idle := .running m } }
    ∀ e ∈ [(0, 9), (1, 7), (2, 8)],
      (after (exec .internalSecond (s e.1 9))).map (fun t => t.cursors[0].idle) = some (.running e.2) := by
  decide +kernel

/-- R164, R161: right after reset no link is UP and a frame changes nothing; the clean-up ends STARTING. -/
theorem test_reset :
    after (exec (.partStatus 0 1) State.reset) = some State.reset
      ∧ (after (exec .startupCleanup State.reset)).map (fun t => (t.controller, t.initialised, t.pass.again))
        = some (.ready, true, true) := by decide +kernel

/-- R157: a link reset discards the replies of its port that have not left, and no other reply. -/
theorem test_unsent_reply :
    let r (p : PortId) (tag : Byte) : Reply := ⟨p, tag, .ok, .little, .empty⟩
    let s : State :=
      { ready with
        replies := [r 0 1]
        ports := Vector.replicate 4 { up := true, outstanding := [⟨2, .answered⟩], unsent := [r 0 2], lineBusy := true } }
    (after (exec (.linkReset 0) s)).map
        (fun t => (t.replies, t.ports[0].unsent, t.ports[0].outstanding, t.ports[1].unsent, t.ports[1].outstanding))
      = some ([r 0 1], [], [], [r 0 2], [⟨2, .answered⟩]) := by decide +kernel

/-- R154: with the line busy an answered request stands in the table until its reply leaves, so that a request with its tag
is BAD_REQUEST and a ninth one PORT_BUSY; what the refusals form waits too, and everything leaves in order. -/
theorem test_busy_line :
    let port (n : Nat) : PortState := { up := true, outstanding := List.replicate n ⟨9, .stepping⟩, lineBusy := true }
    let s (n : Nat) : State := { ready with ports := ready.ports.set 0 (port n) }
    ((after (exec (.startSweep 0 1) (s 7))).bind (fun t => after (exec (.startSweep 0 2) t))).map
        (fun t => (t.ports[0].outstanding.length, t.ports[0].unsent.map (fun r => (r.tag, r.status)), t.replies))
        = some (8, [(1, .ok), (2, .portBusy)], [])
      ∧ ((after (exec (.startSweep 0 1) (s 0))).bind (fun t => after (exec (.startSweep 0 1) t))).map
        (fun t => (t.ports[0].outstanding, t.ports[0].unsent.map Reply.status))
        = some ([⟨1, .answered⟩], [.ok, .badRequest])
      ∧ ((after (exec (.startSweep 0 1) (s 7))).bind (fun t => after (step t))).map
        (fun t => (t.ports[0].outstanding.length, t.ports[0].unsent, t.replies.map Reply.tag)) = some (7, [], [1]) := by
  decide +kernel

/-- R154: a ninth request is PORT_BUSY, a request in STARTING NOT_READY; PART STATUS is answered in STARTING. -/
theorem test_arrival :
    (after (exec (.startSweep 0 9)
        { ready with
          ports := ready.ports.set 0
            { up := true, outstanding := List.replicate 8 ⟨1, .stepping⟩ } })).map (fun t => t.replies.map Reply.status)
        = some [.portBusy]
      ∧ (after (exec (.startSweep 0 9) { ready with controller := .starting })).map
        (fun t => t.replies.map Reply.status) = some [.notReady]
      ∧ (after (exec (.partStatus 0 9) { ready with controller := .starting })).map
        (fun t => t.replies.map Reply.status) = some [.ok] := by decide +kernel

/-- R168: a well-formed SET CLOCK given as an unknown frame changes nothing in the byte order that makes it one, and is
BAD_REQUEST in the other. -/
theorem test_unknown_frame :
    let big : State := { ready with settings := { ready.settings with
      ports := ready.settings.ports.set 0 { ready.settings.ports[(0 : PortId)] with byteOrder := .big } } }
    after (exec (.unknownRequestFrame 0 1 42 ⟨4, 0⟩ [0, 10, 84, 101]) ready) = some ready
      ∧ (after (exec (.unknownRequestFrame 0 1 42 ⟨4, 0⟩ [0, 10, 84, 101]) big)).map
        (fun t => t.replies.map Reply.status) = some [.badRequest] := by decide +kernel

/-- R24: with no field map loaded OPEN FILE is BAD_REQUEST (condition 2). -/
theorem test_open_file_without_map :
    (after (exec (.openFile 0 1 ⟨12, 0⟩ ⟨144, 1⟩ ⟨220, 76⟩ 2 0) ready)).map (fun t => t.replies.map Reply.status)
      = some [.badRequest] := by decide +kernel

/-- R56: an ILLEGAL byte begins the skipping of the record. -/
theorem test_illegal_byte :
    (after (exec (.streamByte 0)
        (withStream { openStream with principal := { bytes := [65, 66] }, finalReceived := true }))).map
      (fun t => (t.streams[0].skip, t.streams[0].principal.consumed, t.streams[0].state))
      = some (true, 1, .running) := by decide +kernel

/-- R42, R44: FETCH COMPLETIONS of port 0 makes room for the stream at the head of the wait list, which posts within the
same step. -/
theorem test_fetch_completions_serves :
    let posting : Stream := { openStream with state := .posting, pending := some ⟨.timeout, .starved⟩ }
    (after (exec (.fetchCompletions 0 1)
        { withStream posting with waiting := [.post 0], completions := List.replicate 32 ⟨0, 1, 12, 1, .storeFull⟩ })).map
      (fun t => (t.completions.length, t.streams[0].state, t.waiting)) = some (17, .starved, []) := by decide +kernel

/-- 12.3: a reply frame of SET RETENTION carries tag, status OK, the length 2 and the days in the port's order. -/
theorem test_reply_frame :
    (Reply.mk 0 7 .ok .little (.retentionSet 1825)).frame = [7, 0, 2, 0, 33, 7]
      ∧ (Reply.mk 0 7 .ok .big (.retentionSet 1825)).frame = [7, 0, 0, 2, 7, 33] := by decide +kernel

/-! ## Witnesses: the whole machine

A request is taken on port 0 under tag 1 of `ready` (every link UP, no request outstanding). -/

/-- Statements on `State.admits` are read through its conditions. -/
theorem ready_admits : opened.admits 0 1 ∧ ready.admits 0 1 := by unfold State.admits; decide +kernel

/-- A state in the middle of work: an accepted file with a stored segment and a cursor on it, a second file being
ingested, one trail entry, and the command `i` waiting. -/
def working (i : Instr) : State :=
  let accepted : File :=
    { openFile with
      state := .accepted, firstSegment := some 5, lastSegment := some 5, segmentCount := 1, recordCount := 4
      durationTotal := 2481, pinCount := 1 }
  let figures : Figures :=
    { recordCount := 4, durationSum := 2481, encodedLength := 64, check := dualSumOf workedPayload
      baseTime := 1700036130 }
  { ready with
    pending := [i], files := [(0, some accepted), (1, some { openFile with sequence := 401 })]
    segments := [(5, { state := .stored, allocation := 1, figures })]
    switches := [(12, { expected := some 401, fileCount := 2 })], store := [(5242944, 21)]
    streams := ready.streams.set 0 { openStream with fileIndex := some 1, sequence := some 401 }
    cursors := ready.cursors.set 0
      { isOpen := true, owner := some 0, fileIndex := some 0, segment := some 5, idle := .running 300 }
    trail := Trail.append {} 1700006400 .clockSet (some 0) (.clock 0 1700006400) 0 }

/-- `s.pending = []` on the idle step: nothing to do after reset; a reply waiting on port 2's line; no supply. -/
theorem witness_step :
    let r : Reply := ⟨2, 5, .ok, .little, .empty⟩
    let s : State := { ready with ports := ready.ports.set 2 { up := true, outstanding := [⟨5, .answered⟩], unsent := [r] } }
    (State.reset.pending = [] ∧ State.reset.powered = true ∧ (∀ p : PortId, State.reset.ports[p].unsent = [])
        ∧ State.reset.openings = [])
      ∧ (s.pending = [] ∧ s.powered = true ∧ s.ports[(2 : PortId)].unsent ≠ []
        ∧ (∀ q : PortId, q < 2 → s.ports[q].unsent = [])
        ∧ ∀ o ∈ s.ports[(2 : PortId)].outstanding, o.standing.delivers = none)
      ∧ { State.reset with powered := false }.powered = false := by decide +kernel

theorem witness_next :
    exec .powerLoss (working .powerOn) = .next { working .powerOn with powered := false }
      ∧ Instr.powerLoss ≠ .storeWriteComplete ∧ ∀ left, Instr.powerLoss ≠ .storeWriteError left :=
  ⟨rfl, by decide, by simp⟩

/-- The fault: a sweep read of extent 262,144, one above the last. -/
theorem witness_fault :
    exec (.sweepReadComplete .error) { ready with storePort := { current := some (.sweep 262144) } }
      = .fault (.noSuchExtent 262144) := by rfl

/-- `working` meets the invariants and makes a step: it closes its cursor, appends to its trail, or ticks. -/
theorem witness_canonical :
    (working (.closeCursor 0 1 0)).canonical = true ∧ ∃ t, step (working (.closeCursor 0 1 0)) = .next t :=
  ⟨by decide +kernel, next_of_after (by decide +kernel)⟩

theorem witness_within_bounds :
    (working (.fetchRecords 0 1 0 ⟨1, 0⟩)).withinBounds ∧ ∃ t, step (working (.fetchRecords 0 1 0 ⟨1, 0⟩)) = .next t :=
  ⟨by unfold State.withinBounds; decide +kernel, next_of_after (by decide +kernel)⟩

theorem witness_admin_held :
    (working (.setRoles 0 1 0 7)).adminHeld ∧ ∃ t, step (working (.setRoles 0 1 0 7)) = .next t :=
  ⟨⟨0, by decide +kernel⟩, next_of_after (by decide +kernel)⟩

theorem witness_trail_chained :
    (working (.setRetention 0 1 2 ⟨33, 7⟩)).trail.chained ∧ ∃ t, step (working (.setRetention 0 1 2 ⟨33, 7⟩)) = .next t :=
  ⟨by unfold Trail.chained; decide +kernel, next_of_after (by decide +kernel)⟩

theorem witness_pairs_distinct :
    (working .passVisit).canonical = true ∧ (working .passVisit).pairsDistinct
      ∧ ∃ t, step (working .passVisit) = .next t :=
  ⟨by decide +kernel, by unfold State.pairsDistinct; decide +kernel, next_of_after (by decide +kernel)⟩

/-- `working` with a fetch of its cursor in progress, outstanding on port 0. -/
def fetching (i : Instr) : State :=
  { working i with
    ports := ready.ports.set 0 { up := true, outstanding := [⟨7, .fetching 0⟩] }
    cursors := ready.cursors.set 0
      { isOpen := true, owner := some 0, fileIndex := some 0, segment := some 5, fetch := some ⟨7, 1, []⟩ } }

theorem witness_pins_agree :
    (fetching (.linkReset 0)).canonical = true ∧ (fetching (.linkReset 0)).pinsAgree
      ∧ (fetching (.linkReset 0)).fetchesAgree ∧ ∃ t, step (fetching (.linkReset 0)) = .next t := by
  refine ⟨by decide +kernel, ⟨fun i => ?_, fun c => ?_⟩, ⟨fun p => ⟨?_, fun o ho c hc => ?_⟩, by decide +kernel⟩,
    next_of_after (by decide +kernel)⟩
  · match i with
    | 0 => decide +kernel
    | 1 => decide +kernel
    | n + 2 =>
      have h : (fetching (.linkReset 0)).file (n + 2) = none := by
        simp [State.file, Sparse.get, fetching, working]
      have ho : ∀ u ∈ (fetching (.linkReset 0)).cursors.toList, u.isOpen = true → u.fileIndex = some 0 := by
        decide +kernel
      rw [h]
      show (List.filter _ _).length = 0
      rw [List.filter_eq_nil_iff.mpr, List.length_nil]
      intro u hu
      cases hx : u.isOpen with
      | false => simp
      | true => simp [ho u hu hx]
  · have h : ∀ d : CursorId, d ≠ 0 → (fetching (.linkReset 0)).cursors[d] = {} := by decide +kernel
    by_cases hc : c = 0
    · subst hc
      exact ⟨by decide +kernel, 0, _, by decide +kernel, rfl, by decide +kernel⟩
    · rw [h c hc]; rfl
  · revert p; decide +kernel
  · have h : ∀ q : PortId, ∀ e ∈ (fetching (.linkReset 0)).ports[q].outstanding, q = 0 ∧ e = ⟨7, .fetching 0⟩ := by
      decide +kernel
    obtain ⟨rfl, rfl⟩ := h p o ho
    obtain rfl : c = 0 := by rcases hc with hc | hc <;> cases hc; rfl
    exact ⟨by decide +kernel, by decide +kernel, _, rfl, rfl⟩

theorem witness_clock_in_range :
    (working (.referencePulse true)).clockInRange ∧ ∃ t, step (working (.referencePulse true)) = .next t :=
  ⟨by unfold State.clockInRange; decide +kernel, next_of_after (by decide +kernel)⟩

/-! ## Witnesses: frames, encodings and arrival -/

theorem witness_frame :
    (Instr.setRetention 0 7 2 ⟨33, 7⟩).wf = true
      ∧ (Instr.setRetention 0 7 2 ⟨33, 7⟩).request = some (0, 7, 34, [2, 33, 7])
      ∧ writeFrame .little (.setRetention 0 7 2 ⟨33, 7⟩) = some [7, 34, 3, 0, 2, 33, 7] := by decide +kernel

/-- The records of 4.5, one of them with a called number of 24 digits. -/
theorem witness_payload :
    (∀ r ∈ workedRecords, r.start ≤ 4294943999 ∧ r.duration ≤ 99999999 ∧ r.calling.length ≤ 20
        ∧ (∀ d ∈ r.calling, d ≤ 9) ∧ 1 ≤ r.called.length ∧ r.called.length ≤ 24 ∧ (∀ d ∈ r.called, d ≤ 9)
        ∧ (∀ t ∈ r.trunkIn, t ≤ 65535) ∧ (∀ t ∈ r.trunkOut, t ≤ 65535) ∧ (∀ c ∈ r.cause, c ≤ 255) ∧ r.service ≤ 15)
      ∧ ({ recordCount := 4, baseTime := 1700036130 } : Figures).recordCount = workedRecords.length
      ∧ ∀ r ∈ workedRecords.head?, ({ recordCount := 4, baseTime := 1700036130 } : Figures).baseTime = r.start := by
  decide +kernel

/-- A header with every field at its greatest value, read back by the statement's own reading. -/
def greatHeader : Header :=
  { segment := 4294967295, allocation := 65535, ordinal := 65535, fileIndex := 4294967295, switchId := 65535,
    sequence := 65535,
    figures := { recordCount := 4294967295, encodedLength := 4294967295, durationSum := 18446744073709551615,
                 check := 4294967295, baseTime := 4294967295 } }

theorem witness_header :
    greatHeader.segment < 4294967296 ∧ greatHeader.allocation < 65536 ∧ greatHeader.ordinal < 65536
      ∧ greatHeader.fileIndex < 4294967296 ∧ greatHeader.switchId < 65536 ∧ greatHeader.sequence < 65536
      ∧ greatHeader.figures.recordCount < 4294967296 ∧ greatHeader.figures.encodedLength < 4294967296
      ∧ greatHeader.figures.durationSum < 18446744073709551616 ∧ greatHeader.figures.check < 4294967296
      ∧ greatHeader.figures.baseTime < 4294967296 := by decide +kernel

/-- `ready` with requests outstanding on port 0. -/
def withOutstanding (os : List Outstanding) : State :=
  { ready with ports := ready.ports.set 0 { up := true, outstanding := os } }

/-- The tests of R154: no link, eight requests, a tag in use, STARTING, and a port without the role. -/
theorem witness_arrival :
    (Instr.startSweep 0 1).request = some (0, 1, 20, []) ∧ (Instr.startSweep 0 1).wf = true
      ∧ State.reset.hears 0 = false
      ∧ ((withOutstanding (List.replicate 8 ⟨9, .stepping⟩)).hears 0 = true
        ∧ 8 ≤ (withOutstanding (List.replicate 8 ⟨9, .stepping⟩)).ports[(0 : PortId)].outstanding.length)
      ∧ ((withOutstanding (List.replicate 7 ⟨1, .stepping⟩)).hears 0 = true
        ∧ (withOutstanding (List.replicate 7 ⟨1, .stepping⟩)).ports[(0 : PortId)].outstanding.length < 8
        ∧ ∃ o ∈ (withOutstanding (List.replicate 7 ⟨1, .stepping⟩)).ports[(0 : PortId)].outstanding, o.tag = 1)
      ∧ ({ ready with controller := .starting }.hears 0 = true
        ∧ { ready with controller := .starting }.ports[(0 : PortId)].outstanding.length < 8
        ∧ (∀ o ∈ { ready with controller := .starting }.ports[(0 : PortId)].outstanding, o.tag ≠ 1)
        ∧ Instr.startSweep 0 1 ≠ .partStatus 0 1) := by decide +kernel

/-- `ready` with a role set for port 0. -/
def withRoles (r : RoleSet) : State :=
  { ready with settings := { ready.settings with ports := ready.settings.ports.set 0 { roles := r } } }

/-- A port without AUDIT, with a fetch of cursor 3 outstanding, sends START SWEEP, which names no cursor. -/
theorem witness_not_permitted :
    let s : State := { withRoles ⟨true, true, false, true⟩ with ports := (withOutstanding [⟨9, .fetching 3⟩]).ports }
    (s.admits 0 1 ∧ roleNeeded (.startSweep 0 1) (s.roles 0) = false)
      ∧ ∀ o ∈ s.ports[(0 : PortId)].outstanding, ∀ c, o.standing.cursor = some c →
        Instr.startSweep 0 1 ≠ .closeCursor 0 1 (BitVec.ofNat 8 c.val)
          ∧ ∀ count, Instr.startSweep 0 1 ≠ .fetchRecords 0 1 (BitVec.ofNat 8 c.val) count :=
  ⟨by unfold State.admits; decide +kernel, fun _ _ _ _ => ⟨by simp, by simp⟩⟩

/-- A kind outside the table fails the form test on a port that hears frames; a SET CLOCK whose length reads 4 passes; a
port with the tag in use, and one with eight requests outstanding. -/
theorem witness_unknown_frame :
    (ready.hears 0 = true ∧ ready.ports[(0 : PortId)].outstanding.length < 8
        ∧ (∀ o ∈ ready.ports[(0 : PortId)].outstanding, o.tag ≠ 1)
        ∧ frameFormOk 5 (wire16 (ready.byteOrder 0) ⟨0, 0⟩) [] = false
        ∧ frameFormOk 42 (wire16 (ready.byteOrder 0) ⟨4, 0⟩) [0, 10, 84, 101] = true)
      ∧ ((withOutstanding [⟨1, .stepping⟩]).hears 0 = true
        ∧ ∃ o ∈ (withOutstanding [⟨1, .stepping⟩]).ports[(0 : PortId)].outstanding, o.tag = 1)
      ∧ ((withOutstanding (List.replicate 8 ⟨1, .stepping⟩)).hears 0 = true
        ∧ 8 ≤ (withOutstanding (List.replicate 8 ⟨1, .stepping⟩)).ports[(0 : PortId)].outstanding.length) := by
  decide +kernel

/-- START SWEEP of an ACTIVE sweep brings one reply and that is a refusal, on a free line and on a busy one. -/
theorem witness_refused :
    let s (busy : Bool) : State :=
      { ready with sweep := { state := .active }, ports := ready.ports.set 0 { up := true, lineBusy := busy } }
    let r : Reply := ⟨0, 1, .wrongState, .little, .empty⟩
    ((Instr.startSweep 0 1).request = some (0, 1, 20, []) ∧ Status.wrongState.isRefusal = true)
      ∧ (∀ busy ∈ [false, true], (s busy).ports[(0 : PortId)].lineBusy = busy
        ∧ exec (.startSweep 0 1) (s busy) = .next ((s busy).refuse 0 1 .wrongState))
      ∧ ((s false).refuse 0 1 .wrongState).replies = (s false).replies ++ [r]
      ∧ ((s true).refuse 0 1 .wrongState).ports[(0 : PortId)].unsent = (s true).ports[(0 : PortId)].unsent ++ [r] := by
  refine ⟨⟨rfl, rfl⟩, fun busy h => ?_, by decide +kernel, by decide +kernel⟩
  cases busy <;> exact ⟨rfl, rfl⟩

/-! ## Witnesses: ingest streams -/

/-- A profile with one mode: "0" is DATA, "," SEPARATOR, newline RECORD_END, space SKIP, "T" TRAILER_START, "!" a DATA byte
with a hold, every other byte ILLEGAL; the columns are START_CLOCK, DURATION and CALLED. -/
def billing : Profile :=
  { classes := [(10, { kind := .recordEnd }), (32, { kind := .skip }), (33, { kind := .data, hold := true }),
                (44, { kind := .separator }), (48, { kind := .data, includeInCheck := true }),
                (84, { kind := .trailerStart })]
    map := ((Vector.replicate 16 FieldTarget.ignore).set 0 .startClock).set 1 .duration |>.set 2 .called }

/-- A state with that profile as profile 0, and with a retention of one day for class 2. -/
def mapped (s : State) : State :=
  { s with
    settings := { s.settings with
      profiles := s.settings.profiles.set 0 billing, retention := s.settings.retention.set 2 1 } }

/-- Completion entries that fill port 0's share but for one, and all of it. -/
def entries (n : Nat) : List Completion := List.replicate n ⟨0, 1, 12, 1, .storeFull⟩

/-- The request of OPEN FILE of switch 12, sequence 400, day 19,676 in class 2 under profile 0, for stream 0. -/
def openRequest : OpeningFile :=
  { switchId := 12, sequence := 400, fileDay := 19676, retentionClass := 2, profile := 0, stream := 0 }

/-- A state whose catalogue is busy or not, with requests outstanding in it, those of port 0 in its table. -/
def catalogued (s : State) (busy : Bool) (os : List Opening) : State :=
  { s with
    catalogueBusy := busy, openings := os
    ports := s.ports.set 0
      { up := true
        outstanding := os.filterMap (fun o => if o.port = 0 then o.tag.map (fun t => ⟨t, .opening⟩) else none) } }

/-- A stream the test of `freeStream` passes is openable, and one it fails is not. -/
theorem openable {s : State} {x : StreamId} (h : (decide (s.streams[x].state = .idle) && !s.streamReserved x) = true) :
    s.streamOpenable x := (State.streamOpenable_iff s x).mpr h

theorem not_openable {s : State} {x : StreamId} (h : (decide (s.streams[x].state = .idle) && !s.streamReserved x) = false) :
    ¬s.streamOpenable x := fun h' => by rw [State.streamOpenable_iff, h] at h'; cases h'

/-- OPEN FILE of that file on the archive day, with the catalogue free and busy; stream 1, with stream 0 reserved by a
request outstanding, with the catalogue busy and not; and that request to be answered, with no command and no reply
waiting. -/
theorem witness_open_file :
    (∀ busy ∈ [false, true],
      let s := catalogued (mapped ready) busy []
      s.admits 0 1 ∧ (s.roles 0).ingest = true ∧ wire16 (s.byteOrder 0) ⟨12, 0⟩ = 12 ∧ wire16 (s.byteOrder 0) ⟨144, 1⟩ = 400
        ∧ wire16 (s.byteOrder 0) ⟨220, 76⟩ = 19676 ∧ (2 : Byte).toNat ≤ 7 ∧ (0 : Byte).toNat = (0 : Fin 4).val
        ∧ mapsRequired s.settings.profiles[(0 : Fin 4)].map.toList = true ∧ s.clock.state ≠ .unset
        ∧ 19676 ≤ s.clock.value / 86400 ∧ s.clock.value / 86400 < 19676 + s.retentionOf 2
        ∧ s.findFile 12 400 = none ∧ s.heldFiles.length < 131072 ∧ s.catalogueBusy = busy ∧ s.openings = []
        ∧ ∀ e ∈ (s.switch 12).expected, e = 400)
      ∧ ((∀ busy ∈ [false, true], (catalogued (mapped ready) busy []).streamOpenable 0)
        ∧ ∀ y : StreamId, ¬y < 0)
      ∧ ∀ busy ∈ [false, true],
        (let s := catalogued (mapped ready) busy [⟨0, some 7, .file openRequest⟩]
        s.streamOpenable 1 ∧ ¬s.streamOpenable 0
          ∧ s.admits 0 1 ∧ s.pending = [] ∧ s.powered = true ∧ (∀ q : PortId, s.ports[q].unsent = [])
          ∧ s.openings = ⟨0, some 7, .file openRequest⟩ :: [] ∧ ⟨7, .opening⟩ ∈ s.ports[(0 : PortId)].outstanding
          ∧ s.findFile 12 400 = none) := by
  refine ⟨?_, ⟨fun busy h => openable ?_, by decide⟩, fun busy h => ⟨openable ?_, not_openable ?_, ?_⟩⟩
  · unfold State.admits; decide +kernel
  iterate 3 revert busy; decide +kernel
  · revert busy; unfold State.admits; decide +kernel

/-- R24, R25: with the catalogue busy OPEN FILE stays outstanding, a second one reserves the next stream, and the first is
answered once nothing waits. -/
theorem test_opening_file :
    let open' (tag : Byte) := Instr.openFile 0 tag ⟨12, 0⟩ ⟨144, 1⟩ ⟨220, 76⟩ 2 0
    ((after (exec (open' 1) (catalogued (mapped ready) true []))).bind (fun t => after (exec (open' 2) t))).map
        (fun t => (t.openings, t.ports[0].outstanding))
        = some ([⟨0, some 1, .file openRequest⟩, ⟨0, some 2, .file { openRequest with stream := 1 }⟩],
            [⟨1, .opening⟩, ⟨2, .opening⟩])
      ∧ ((after (exec (open' 1) (catalogued (mapped ready) true []))).bind (fun t => after (step t))).map
        (fun t => (t.openings, t.ports[0].outstanding, t.streams[0].state, t.replies.map Reply.body))
        = some ([], [], .starved, [.opened 0 0]) := by decide +kernel

/-- R24: of two OPEN FILEs of one pair, port 1's taken first and port 0's second, port 0's is refused DUPLICATE_FILE; also,
R158, with port 1 reset in between, whose stream then aborts. -/
theorem test_opening_order :
    let open' (p : PortId) := Instr.openFile p 1 ⟨12, 0⟩ ⟨144, 1⟩ ⟨220, 76⟩ 2 0
    let both := (after (exec (open' 1) (catalogued (mapped ready) true []))).bind (fun t => after (exec (open' 0) t))
    let settled (o : Option State) := (o.bind (fun t => after (step t))).bind (fun t => after (step t))
    (settled both).map (fun t => t.replies.map (fun r => (r.port, r.status))) = some [(1, .ok), (0, .duplicateFile)]
      ∧ (settled (both.bind (fun t => after (exec (.linkReset 1) t)))).map
        (fun t => (t.replies.map (fun r => (r.port, r.status)), t.streams[0].state))
        = some ([(0, .duplicateFile)], .aborting) := by decide +kernel

/-- The same with a gap: 399 was expected; port 0 holds 31 or 32 entries; and the request outstanding. -/
theorem witness_sequence_gap :
    let s (n : Nat) (os : List Opening) : State :=
      { catalogued (mapped ready) false os with switches := [(12, { expected := some 399 })], completions := entries n }
    (∀ n ∈ [31, 32], (s n []).admits 0 1 ∧ ((s n []).roles 0).ingest = true ∧ wire16 ((s n []).byteOrder 0) ⟨12, 0⟩ = 12
        ∧ wire16 ((s n []).byteOrder 0) ⟨144, 1⟩ = 400 ∧ wire16 ((s n []).byteOrder 0) ⟨220, 76⟩ = 19676
        ∧ mapsRequired (s n []).settings.profiles[(0 : Fin 4)].map.toList = true ∧ (s n []).clock.state ≠ .unset
        ∧ 19676 ≤ (s n []).clock.value / 86400 ∧ (s n []).clock.value / 86400 < 19676 + (s n []).retentionOf 2
        ∧ (s n []).findFile 12 400 = none ∧ (s n []).heldFiles.length < 131072 ∧ (s n []).catalogueBusy = false
        ∧ (s n []).openings = [] ∧ ((s n []).switch 12).expected = some 399 ∧ (s n []).completions.length = n
        ∧ ((s n []).completionsOf 0).length = n)
      ∧ (∀ n ∈ [31, 32], (s n []).streamOpenable 0)
      ∧ ∀ n ∈ [31, 32], (s n [⟨0, some 7, .file openRequest⟩]).pending = []
        ∧ (s n [⟨0, some 7, .file openRequest⟩]).powered = true
        ∧ (∀ q : PortId, (s n [⟨0, some 7, .file openRequest⟩]).ports[q].unsent = [])
        ∧ (s n [⟨0, some 7, .file openRequest⟩]).openings = ⟨0, some 7, .file openRequest⟩ :: []
        ∧ ⟨7, .opening⟩ ∈ (s n [⟨0, some 7, .file openRequest⟩]).ports[(0 : PortId)].outstanding := by
  refine ⟨?_, fun n h => openable ?_, ?_⟩
  · unfold State.admits; decide +kernel
  · revert n; decide +kernel
  · decide +kernel

/-- A File Table of `n` entries, of the one pair 12, 400. -/
def tableOf (n : Nat) : State := { mapped ready with files := (List.range n).map (fun i => (i, some openFile)) }

theorem tableOf_heldFiles (n : Nat) : (tableOf n).heldFiles = (List.range n).map (fun i => (i, openFile)) := by
  simp only [State.heldFiles, tableOf, List.filterMap_map]
  exact List.filterMap_eq_map ▸ rfl

/-- TABLE_FULL: 131,072 files, none of them of sequence 401. -/
theorem witness_table_full : (tableOf 131072).findFile 12 401 = none ∧ 131072 ≤ (tableOf 131072).heldFiles.length := by
  constructor
  · rw [State.findFile, tableOf_heldFiles, List.find?_eq_none]
    intro e he
    obtain ⟨i, -, rfl⟩ := List.mem_map.mp he
    simp [openFile]
  · rw [tableOf_heldFiles, List.length_map, List.length_range]

/-- The refusals of OPEN FILE: switch 1,024, day 49,710, class 8, profile 4; an unmapped profile; the UNSET clock; day
19,677; day 19,675, over at the end of its one day; the pair already held, in the step and when an outstanding request is
answered; every stream taken, the last one by a reservation. -/
theorem witness_open_file_refused :
    let taken : State :=
      catalogued (mapped { ready with streams := (Vector.replicate 12 openStream).set 11 {} }) true
        [⟨0, some 7, .file { openRequest with stream := 11 }⟩]
    let held (os : List Opening) : State := catalogued (mapped (withStream openStream)) false os
    (opened.admits 0 1 ∧ ready.admits 0 1 ∧ (ready.roles 0).ingest = true)
      ∧ (1023 < wire16 .little ⟨0, 4⟩ ∧ 49709 < wire16 .little ⟨46, 194⟩ ∧ 7 < (8 : Byte).toNat ∧ 3 < (4 : Byte).toNat)
      ∧ mapsRequired ready.settings.profiles[(0 : Fin 4)].map.toList = false
      ∧ ((mapped opened).clock.state = .unset
        ∧ mapsRequired (mapped opened).settings.profiles[(0 : Fin 4)].map.toList = true)
      ∧ (mapped ready).clock.value / 86400 < wire16 .little ⟨221, 76⟩
      ∧ (wire16 .little ⟨219, 76⟩ ≤ (mapped ready).clock.value / 86400 ∧ (mapped ready).retentionOf 2 ≠ 0
        ∧ wire16 .little ⟨219, 76⟩ + (mapped ready).retentionOf 2 ≤ (mapped ready).clock.value / 86400)
      ∧ (∀ os ∈ [[], [⟨0, some 7, .file openRequest⟩]],
        (held os).admits 0 1 ∧ (held os).catalogueBusy = false ∧ ((held os).findFile 12 400).isSome = true
          ∧ (held os).pending = [] ∧ (held os).powered = true ∧ (∀ q : PortId, (held os).ports[q].unsent = [])
          ∧ (held os).openings = os ∧ (os = [] ∨ ⟨7, .opening⟩ ∈ (held os).ports[(0 : PortId)].outstanding))
      ∧ (taken.admits 0 1 ∧ taken.findFile 12 400 = none ∧ ∀ x, ¬taken.streamOpenable x) := by
  refine ⟨?_, by decide, by decide +kernel, by decide +kernel, by decide +kernel, by decide +kernel, ?_, ?_, by decide +kernel,
    fun x => not_openable ?_⟩
  iterate 3 unfold State.admits; decide +kernel
  revert x; decide +kernel

/-- Two OPEN FILEs of one pair outstanding, the first of port 1, its reply still wanted or lost to a port reset. -/
theorem witness_one_pair :
    ∀ first ∈ [some (5 : Byte), none],
      let os : List Opening := [⟨1, first, .file openRequest⟩, ⟨0, some 7, .file { openRequest with stream := 1 }⟩]
      let s := catalogued (mapped ready) false os
      (s.pending = [] ∧ s.powered = true ∧ (∀ q : PortId, s.ports[q].unsent = []) ∧ s.openings = os
        ∧ ⟨7, .opening⟩ ∈ s.ports[(0 : PortId)].outstanding ∧ s.heldFiles.length < 131072
        ∧ (∀ q : PortId, s.ports[q].lineBusy = false))
        ∧ ∃ t, step s = .next t := by
  intro first h
  refine ⟨?_, next_of_after ?_⟩ <;> · revert first; decide +kernel

/-- A chunk of one byte for a STARVED stream, final, with no next mode. -/
theorem witness_chunk :
    let s := withStream { openStream with state := .starved }
    s.admits 0 1 ∧ (s.roles 0).ingest = true ∧ ((1 : Byte) = 0 ∨ (1 : Byte) = 1) ∧ ((255 : Byte).toNat ≤ 7 ∨ (255 : Byte) = 255)
      ∧ 1 ≤ [(48 : Byte)].length ∧ [(48 : Byte)].length ≤ 16384 ∧ s.streams[(0 : StreamId)].owner = some 0
      ∧ s.streams[(0 : StreamId)].state ≠ .idle ∧ s.streams[(0 : StreamId)].state ≠ .closing
      ∧ s.streams[(0 : StreamId)].state ≠ .aborting ∧ s.streams[(0 : StreamId)].settled = false
      ∧ s.streams[(0 : StreamId)].finalReceived = false
      ∧ s.streams[(0 : StreamId)].fillNext = .principal ∧ s.streams[(0 : StreamId)].principal.bytes = [] := by
  unfold State.admits; decide +kernel

/-- A HELD stream, resumed without and with a substitute entry. -/
theorem witness_resume :
    let s := mapped (withStream { openStream with
      state := .held, principal := { bytes := [33, 48] }, heldByte := some { value := 33 } })
    s.admits 0 1 ∧ (s.roles 0).ingest = true ∧ s.streams[(0 : StreamId)].owner = some 0
      ∧ s.streams[(0 : StreamId)].state = .held
      ∧ s.streams[(0 : StreamId)].heldByte = some { value := 33 }
      ∧ (some { kind := .data, includeInCheck := true, nextMode := 7, hold := true } : Option ClassEntry).isSome = true
      ∧ readClassEntry 0 1 7 1 = some { kind := .data, includeInCheck := true, nextMode := 7, hold := true } := by
  unfold State.admits; decide +kernel

/-- A RUNNING stream, a CLOSING one without a verdict and one with it, and a STARVED one at 0; a CLOSING one whose record
waits at the head. -/
theorem witness_abort :
    (∀ st ∈ [StreamState.running, .closing, .starved],
      (withStream { openStream with state := st }).admits 0 1
        ∧ ((withStream { openStream with state := st }).roles 0).ingest = true
        ∧ (withStream { openStream with state := st }).streams[(0 : StreamId)].owner = some 0
        ∧ (withStream { openStream with state := st }).streams[(0 : StreamId)].settled = false
        ∧ (withStream { openStream with state := st }).streams[(0 : StreamId)].abortAfterClose = false
        ∧ (withStream { openStream with state := st }).streams[(0 : StreamId)].verdict = none
        ∧ (withStream { openStream with state := st }).streams[(0 : StreamId)].state = st)
      ∧ (withStream { openStream with state := .starved, countdown := .due }).powered = true
      ∧ (withStream { openStream with state := .starved, countdown := .due }).streams[(0 : StreamId)].countdown = .due
      ∧ (withStream { openStream with state := .starved, countdown := .due }).streams[(0 : StreamId)].state = .starved
      ∧ (∀ x ∈ [(0 : StreamId), 1],
        { withStream { openStream with state := .closing } with
          headWait := some HeadWait.image, staging := [.record x {}] }.admits 0 1)
      ∧ ((withStream { openStream with state := .closing, verdict := some {} }).admits 0 1
        ∧ (withStream { openStream with state := .closing, verdict := some {} }).streams[(0 : StreamId)].verdict.isSome
          = true) := by
  unfold State.admits; decide +kernel

/-- R34: ABORT STREAM of a stream that waits for trail room with its verdict places the ABORT marker at once. -/
theorem test_abort_of_verdict :
    (after (exec (.abortStream 0 1 0) (withStream { openStream with state := .closing, verdict := some {} }))).map
        (fun t => (t.streams[0].state, t.streams[0].verdict, t.staging, t.trail.entries.length))
      = some (.aborting, none, [.abort 0], 0) := by decide +kernel

/-- Every state of a stream of `withStream` meets the hypotheses on the whole state. -/
theorem withStream_meets (st : Stream) :
    ((withStream st).powered = true ∧ (withStream st).streams[(0 : StreamId)] = st)
      ∧ (withStream st).admits 0 1 ∧ ((withStream st).roles 0).ingest = true :=
  ⟨⟨rfl, rfl⟩, ready_admits.2, by show (ready.roles 0).ingest = true; decide +kernel⟩

/-- An IDLE stream and a stream of port 1; of port 0 a stream CLOSING, ABORTING, settled, with final received, with a full
buffer to fill, RUNNING, CLOSING with abort after close; arguments out of range and in range. -/
theorem witness_stream_refusals :
    (ready.admits 0 1 ∧ (ready.roles 0).ingest = true ∧ ready.streams[(0 : StreamId)].state = .idle)
      ∧ (({ openStream with owner := some 1 } : Stream).state ≠ .idle
        ∧ ({ openStream with owner := some 1 } : Stream).owner ≠ some 0)
      ∧ (openStream.owner = some 0 ∧ openStream.state ≠ .idle ∧ openStream.settled = false ∧ openStream.state ≠ .held
        ∧ openStream.fillNext = .principal ∧ openStream.finalReceived = false)
      ∧ ({ openStream with state := .posting, pending := some ⟨.timeout, .idle⟩ } : Stream).settled = true
      ∧ ((6 : Byte) ≠ 0 ∧ (6 : Byte) ≠ 1 ∧ 11 < (12 : Byte).toNat)
      ∧ (((1 : Byte) = 0 ∨ (1 : Byte) = 1) ∧ (5 : Byte).toNat ≤ 5 ∧ (255 : Byte) = 255) := by
  refine ⟨⟨ready_admits.2, ?_⟩, ?_⟩ <;> decide +kernel

/-! ## Witnesses: the tokeniser and the Completion Queue -/

/-- A stream about to take a byte of a buffer with more behind it. -/
def atByte (b : Byte) (n : BufferName := .principal) : Stream :=
  { openStream with consumeNext := n }.setBuffer n { bytes := [b, 48] }

/-- Whether a byte that is not held and not the last of its buffer is about to be taken, and of which kind it is. The
buffer is that of the name `n` a statement takes. -/
def takesByte (st : Stream) (b : Byte) (kind : ClassKind) : Bool :=
  let e := Sparse.get {} (st.mode * 256 + b.toNat) (mapped ready).settings.profiles[st.profile.getD 0].classes
  let n := st.consumeNext
  st.state = .running && (st.buffer n).bytes[(st.buffer n).consumed]? = some b
    && (st.buffer n).consumed + 1 < (st.buffer n).bytes.length && e.kind = kind && !e.hold

/-- A byte of each kind in either buffer, in the RECORD phase, with a column, with column 15 and beyond; under
skip-to-record-end; and in the TRAILER phase, in each field. -/
theorem witness_data_byte :
    ∀ name ∈ [BufferName.principal, .alternate],
    let inColumn (c : Option (Fin 16)) (b : Byte) : Stream := { atByte b name with record := { column := c } }
    let inTrailer (n : Nat) (b : Byte) : Stream :=
      { atByte b name with phase := .trailer, trailerBuild := { field := n } }
    (∀ c ∈ [some (0 : Fin 16), some 15, none],
        takesByte (inColumn c 48) 48 .data = true ∧ takesByte (inColumn c 44) 44 .separator = true
          ∧ takesByte (inColumn c 32) 32 .skip = true)
      ∧ takesByte { atByte 44 name with skip := true } 44 .separator = true
      ∧ (∀ n ∈ [1, 2, 3, 4],
        takesByte (inTrailer n 48) 48 .data = true ∧ takesByte (inTrailer n 44) 44 .separator = true)
      ∧ takesByte (inTrailer 3 10) 10 .recordEnd = true ∧ takesByte (inTrailer 3 32) 32 .skip = true
      ∧ takesByte (inTrailer 3 65) 65 .illegal = true ∧ takesByte (inTrailer 3 84) 84 .trailerStart = true := by
  decide +kernel

/-- A hold byte behind the trailer, in either buffer, with more behind it. -/
theorem witness_after_trailer :
    ∀ n ∈ [BufferName.principal, .alternate],
      let st : Stream := { atByte 33 n with phase := .afterTrailer }
      let s : State := mapped (withStream st)
      s.powered = true ∧ s.streams[(0 : StreamId)] = st ∧ st.state = .running ∧ st.consumeNext = n
        ∧ (st.buffer n).consumed + 1 < (st.buffer n).bytes.length ∧ (s.classEntry 0 33).hold = true := by
  decide +kernel

/-- R28: a byte of the alternate buffer is consumed there, and the principal one stays. -/
theorem test_alternate_buffer :
    (after (exec (.streamByte 0) (mapped (withStream (atByte 48 .alternate))))).map
        (fun t => (t.streams[0].alternate.consumed, t.streams[0].principal, t.streams[0].consumeNext))
      = some (1, {}, .alternate) := by decide +kernel

/-- The byte with a hold, port 0 holding 31 or 32 entries. -/
theorem witness_hold_byte :
    let s (n : Nat) : State := { mapped (withStream (atByte 33)) with completions := entries n }
    (s 31).powered = true ∧ (s 31).streams[(0 : StreamId)].state = .running
      ∧ (s 31).streams[(0 : StreamId)].nextByte = some 33 ∧ (s 31).streams[(0 : StreamId)].phase ≠ .afterTrailer
      ∧ (s 31).classEntry 0 33 = { kind := .data, hold := true } ∧ (s 31).streams[(0 : StreamId)].owner = some 0
      ∧ (s 31).streams[(0 : StreamId)].switchId = some 12 ∧ (s 31).streams[(0 : StreamId)].sequence = some 400
      ∧ (s 31).streams[(0 : StreamId)].storeFullNotice = false ∧ (s 31).completions.length < 64
      ∧ ((s 31).completionsOf 0).length < 32 ∧ 32 ≤ ((s 32).completionsOf 0).length := by decide +kernel

/-- The record 000000 | 0 | 0 at its end. -/
def builtRecord : RecordBuild :=
  { begun := true
    texts := ((Vector.replicate 16 ({} : FieldText)).set 0 (text [48, 48, 48, 48, 48, 48])).set 1 (text [48])
      |>.set 2 (text [48]) }

/-- A record that converts at its end in either buffer, the Staging Queue with a free place and without. -/
theorem witness_record_end :
    ∀ n ∈ [BufferName.principal, .alternate],
    let st := { atByte 10 n with record := builtRecord }
    let r : CallRecord := { start := 1700006400, called := [0] }
    let s (n : Nat) : State := { mapped (withStream st) with staging := List.replicate n (.record 1 r) }
    (s 255).powered = true ∧ (s 255).streams[(0 : StreamId)] = st ∧ st.state = .running ∧ st.consumeNext = n
      ∧ (st.buffer n).bytes[(st.buffer n).consumed]? = some 10
      ∧ (st.buffer n).consumed + 1 < (st.buffer n).bytes.length ∧ st.phase = .record ∧ st.skip = false
      ∧ st.record.begun = true ∧ st.accepted < 16777215 ∧ (s 255).classEntry 0 10 = { kind := .recordEnd }
      ∧ (s 255).file (st.fileIndex.getD 0) = some openFile
      ∧ convertRecord openFile.fileDay openFile.overflow (s 255).settings.profiles[st.profile.getD 0].map st.record = .ok r
      ∧ (s 255).stagingRecords + (s 255).blocked.length < 256
      ∧ 256 ≤ (s 256).stagingRecords + (s 256).blocked.length := by decide +kernel

/-- Texts for the conversion clauses: "18" spells 1 and 8, "A" is foreign, "235959" is a clock and "240000" none, ".5" has a
fraction, "." is neither form of a duration. -/
theorem witness_conversion :
    (([49, 56] : List Byte) = [1, 8].map (fun d => BitVec.ofNat 8 (48 + d)) ∧ ∀ d ∈ [1, 8], d ≤ 9)
      ∧ (∃ b ∈ ([65] : List Byte), b.toNat < 48 ∨ 57 < b.toNat)
      ∧ ([50, 51, 53, 57, 53, 57] : List Byte)
        = [23 / 10, 23 % 10, 59 / 10, 59 % 10, 59 / 10, 59 % 10].map (fun d => BitVec.ofNat 8 (48 + d))
      ∧ (([50, 52, 48, 48, 48, 48] : List Byte) = [2, 4, 0, 0, 0, 0].map (fun d => BitVec.ofNat 8 (48 + d))
        ∧ (2 = 2 ∧ 3 < 4))
      ∧ (([46, 53] : List Byte) = [] ++ 46 :: [53] ∧ ([53] : List Byte) = [5].map (fun d => BitVec.ofNat 8 (48 + d)))
      ∧ (∀ ds : List Nat, (∀ d ∈ ds, d ≤ 9) → ([46] : List Byte) ≠ ds.map (fun d => BitVec.ofNat 8 (48 + d)))
      ∧ ∀ whole fraction : List Byte, [46] = whole ++ 46 :: fraction → whole = [] ∧ fraction = [] := by
  refine ⟨by decide, by decide, by decide, by decide, by decide, fun ds hd h => ?_, fun whole fraction h => ?_⟩
  · match ds with
    | [] => simp at h
    | [d] =>
      have : d ≤ 9 := hd d (by simp)
      have h : (46 : Byte) = BitVec.ofNat 8 (48 + d) := by simpa using h
      have := congrArg BitVec.toNat h
      simp at this
      omega
    | _ :: _ :: _ => simp at h
  · have := congrArg List.length h
    simp at this
    exact ⟨List.eq_nil_of_length_eq_zero (by omega), List.eq_nil_of_length_eq_zero (by omega)⟩

/-- A reject that has been reported before, and a first one, port 0 holding 31 or 32 entries. -/
theorem witness_reject :
    let s (n : Nat) (st : Stream) : State := { withStream st with completions := entries n }
    (∀ posted ∈ [true, false], ∀ n ∈ [31, 32],
      (s n { openStream with firstRejectPosted := posted }).streams[(0 : StreamId)]
          = { openStream with firstRejectPosted := posted })
      ∧ openStream.owner = some 0 ∧ openStream.switchId = some 12 ∧ openStream.sequence = some 400
      ∧ openStream.storeFullNotice = false
      ∧ ((s 31 openStream).completions.length < 64 ∧ ((s 31 openStream).completionsOf 0).length < 32)
      ∧ 32 ≤ ((s 32 openStream).completionsOf 0).length := by decide +kernel

/-- The bytes that come to a reject, in either buffer: ILLEGAL; RECORD_END of a record not begun, under skip-to-record-end,
with a text that does not convert, and behind 16,777,215 accepted records; TRAILER_START on a record begun and not. -/
theorem witness_rejecting_byte :
    let s : State := mapped (withStream openStream)
    let bad : RecordBuild := { builtRecord with texts := builtRecord.texts.set 1 (text [65]) }
    ∀ n ∈ [BufferName.principal, .alternate],
    let full : Stream := { atByte 10 n with record := builtRecord, accepted := 16777215 }
    (takesByte (atByte 65 n) 65 .illegal = true ∧ (atByte 65 n).phase = .record ∧ (atByte 65 n).skip = false)
      ∧ (takesByte { atByte 10 n with record := bad } 10 .recordEnd = true
        ∧ convertRecord openFile.fileDay openFile.overflow s.settings.profiles[(0 : Fin 4)].map bad = .error .format)
      ∧ (takesByte full 10 .recordEnd = true ∧ 16777215 ≤ full.accepted
        ∧ convertRecord openFile.fileDay openFile.overflow s.settings.profiles[(0 : Fin 4)].map full.record
          = .ok { start := 1700006400, called := [0] })
      ∧ (takesByte { atByte 10 n with skip := true } 10 .recordEnd = true ∧ (atByte 10 n).record.begun = false)
      ∧ (∀ b ∈ [true, false], takesByte { atByte 84 n with record := { begun := b } } 84 .trailerStart = true)
      ∧ s.file 0 = some openFile := by decide +kernel

/-- The last byte of the final chunk in either buffer: behind the trailer; a SKIP byte in the RECORD phase with a record
begun, with none and under skip-to-record-end; a SKIP byte in the TRAILER phase. A trailer of three numbers is well-formed.
-/
theorem witness_final_byte :
    (∀ n ∈ [BufferName.principal, .alternate],
      let last (b : Byte) : Stream :=
        { openStream with consumeNext := n }.setBuffer n { bytes := [b], final := true, nextMode := some 7 }
      let s (st : Stream) : State := mapped (withStream st)
      ∀ st ∈ [{ last 10 with phase := .afterTrailer }, last 32, { last 32 with record := { begun := true } },
        { last 32 with record := { begun := true }, skip := true }, { last 32 with phase := .trailer }],
      st.state = .running ∧ st.consumeNext = n ∧ (st.buffer n).bytes[(st.buffer n).consumed]?.isSome = true
        ∧ (st.buffer n).consumed + 1 = (st.buffer n).bytes.length ∧ (st.buffer n).final = true
        ∧ (st.phase ≠ .afterTrailer →
          ((s st).classEntry 0 32).kind = .skip ∧ ((s st).classEntry 0 32).hold = false))
      ∧ ({ field := 3, text1 := [49], text2 := [50], text3 := [51, 52] } : TrailerBuild).judge
        = some { count := 1, duration := 2, check := 34 } := by decide +kernel

/-- A stream about to take the last byte of a chunk, with its other buffer holding a byte or none. -/
def atLast (b : Byte) (final : Bool) (other : Buffer) : Stream :=
  { openStream with principal := { bytes := [b], final, nextMode := some 7 }, alternate := other }

/-- The last byte of a chunk, final or not, the other buffer holding a byte, none, or only consumed ones: DATA in a begun
record and a record's end in a stream that runs on or, the Staging Queue full, is BLOCKED; and behind the trailer. With a
byte behind it each makes its step. -/
theorem witness_last_byte :
    ∀ final ∈ [true, false], ∀ other ∈ [({} : Buffer), { bytes := [48] }, { bytes := [48], consumed := 1 }],
      ∀ st ∈ [{ atLast 48 final other with record := { begun := true } },
        { atLast 10 final other with record := builtRecord }, { atLast 48 final other with phase := .afterTrailer }],
      ∀ n ∈ [0, 256],
      let s : State := { mapped (withStream st) with staging := List.replicate n (.record 1 {}) }
      s.powered = true ∧ s.streams[(0 : StreamId)] = st ∧ st.state = .running ∧ st.consumeNext = .principal
        ∧ (st.buffer .principal).consumed + 1 = (st.buffer .principal).bytes.length
        ∧ (∀ b ∈ st.principal.bytes, (s.classEntry 0 b).hold = false)
        ∧ (after (exec (.streamByte 0)
          { s with
            streams := s.streams.set 0
              (st.setBuffer .principal { st.principal with bytes := st.principal.bytes ++ [48] }) })).isSome = true := by
  decide +kernel

/-- R28: behind a chunk that is not final the buffer is free, its next mode stands, and the stream runs on in the other buffer
or is STARVED. -/
theorem test_last_byte :
    let left (other : Buffer) := (after (exec (.streamByte 0) (mapped (withStream (atLast 48 false other))))).map
      (fun t => (t.streams[0].state, t.streams[0].consumeNext, t.streams[0].principal, t.streams[0].mode))
    left { bytes := [48] } = some (.running, .alternate, {}, 7) ∧ left {} = some (.starved, .alternate, {}, 7) := by
  decide +kernel

/-- The oldest BLOCKED stream with a byte left; with either buffer consumed, the other holding a byte or none; and with the
final chunk consumed. -/
theorem witness_blocked :
    let s (st : Stream) : State :=
      { withStream { st with state := .blocked, ready := some { called := [0] } } with
        blocked := [0], staging := List.replicate 255 (.record 1 {}) }
    let used (final : Bool) : Buffer := { bytes := [48], consumed := 1, final, nextMode := some 3 }
    let first (bytes : List Byte) (final : Bool) : Stream :=
      { openStream with principal := used final, alternate := { bytes } }
    let second (bytes : List Byte) : Stream :=
      { openStream with alternate := used false, principal := { bytes }, consumeNext := .alternate }
    (∀ st ∈ [atByte 48, first [] false, first [48] false, first [] true, second [], second [48]],
      (s st).powered = true ∧ (s st).blocked = [0] ∧ (s st).stagingRecords < 256
        ∧ (s st).streams[(0 : StreamId)].ready = some { called := [0] } ∧ (s st).streams[(0 : StreamId)].owner = some 0
        ∧ (s st).streams[(0 : StreamId)].phase = .record ∧ (s st).streams[(0 : StreamId)].record.begun = false
        ∧ ((s st).streams[(0 : StreamId)].nextByte.isSome = true
          ∨ ∃ n ∈ [BufferName.principal, .alternate], (s st).streams[(0 : StreamId)].consumeNext = n
            ∧ ((s st).streams[(0 : StreamId)].buffer n).bytes ≠ []
            ∧ ((s st).streams[(0 : StreamId)].buffer n).consumed
              = ((s st).streams[(0 : StreamId)].buffer n).bytes.length))
      ∧ (s (atByte 48)).streams[(0 : StreamId)].nextByte.isSome = true ∧ (first [] true).principal.final = true := by
  decide +kernel

/-- Two members on the list, and the members served one by one: a notice that is set or not; a stream in POSTING with each
continuation, RUNNING with a byte left; port 0 holding 31 or 32 entries. -/
theorem witness_wait_list :
    let posting (after : AfterPost) (st : Stream) : Stream :=
      { st with state := .posting, pending := some ⟨.timeout, after⟩ }
    let s (st : Stream) (n : Nat) : State :=
      { withStream st with waiting := [.post 0, .notice 1], completions := entries n }
    (State.reset.powered = true ∧ State.reset.waiting = [])
      ∧ ((s openStream 31).powered = true ∧ (s openStream 31).waiting = WaitItem.post 0 :: [WaitItem.notice 1])
      ∧ ((s openStream 31).completions.length < 64 ∧ ((s openStream 31).completionsOf 0).length < 32
        ∧ 32 ≤ ((s openStream 32).completionsOf 0).length)
      ∧ (∀ st ∈ [openStream, { openStream with storeFullNotice := true }],
        ∀ after ∈ [AfterPost.starved, .held, .idle, .running, .endOfInput, .reconcile],
        (s (posting after st) 31).streams[(0 : StreamId)] = posting after st
          ∧ (posting after st).owner = some 0 ∧ (posting after st).switchId = some 12
          ∧ (posting after st).sequence = some 400 ∧ (posting after st).phase = .record
          ∧ (posting after st).pending = some ⟨.timeout, after⟩)
      ∧ (openStream.pending = none ∧ openStream.storeFullNotice = false ∧ (atByte 48).nextByte.isSome = true) := by
  decide +kernel

/-- A stream in POSTING, RUNNING to follow, with either buffer consumed, final or not, the other one holding a byte or none,
in each phase, a record begun or not. -/
theorem witness_served_buffer :
    ∀ n ∈ [BufferName.principal, .alternate], ∀ final ∈ [true, false], ∀ bytes ∈ [[], [48]],
      ∀ phase ∈ [Phase.record, .trailer, .afterTrailer], ∀ begun ∈ [true, false],
      let used : Buffer := { bytes := [48], consumed := 1, final, nextMode := some 3 }
      let st : Stream :=
        ({ openStream with
          state := .posting, pending := some ⟨.timeout, .running⟩, consumeNext := n, phase, record := { begun }
          }.setBuffer n used).setBuffer n.other { bytes }
      let s : State := { withStream st with completions := entries 31 }
      s.streams[(0 : StreamId)] = st ∧ st.owner = some 0 ∧ st.switchId = some 12 ∧ st.sequence = some 400
        ∧ st.storeFullNotice = false ∧ st.pending = some ⟨.timeout, .running⟩
        ∧ s.completions.length < 64 ∧ (s.completionsOf 0).length < 32
        ∧ st.consumeNext = n ∧ (st.buffer n).bytes ≠ [] ∧ (st.buffer n).consumed = (st.buffer n).bytes.length
        ∧ (st.buffer n).final = final ∧ st.phase = phase ∧ st.record.begun = begun ∧ st.skip = false
        ∧ (st.buffer n.other).consumed + bytes.length = (st.buffer n.other).bytes.length := by decide +kernel

/-- R42, R38: a served stream behind its final chunk ends its input; its record begun is first rejected, and that post waits
in its turn when the served one took the port's last room. -/
theorem test_served_final :
    let st : Stream :=
      { openStream with
        state := .posting, pending := some ⟨.timeout, .running⟩, consumeNext := .alternate
        alternate := { bytes := [48], consumed := 1, final := true } }
    let served (begun : Bool) (n : Nat) :=
      let t := { withStream { st with record := { begun } } with waiting := [.post 0], completions := entries n }.serveWaiting
        (.post 0)
      (t.streams[0].state, t.staging, t.completions.length, t.waiting)
    served false 31 = (.closing, [.close 0], 32, []) ∧ served true 30 = (.closing, [.close 0], 32, [])
      ∧ served true 31 = (.posting, [], 32, [.post 0]) := by decide +kernel

/-- A trail of `n` entries. -/
def trailOf (n : Nat) : Trail :=
  { entries := List.replicate n
      { sequence := 0, clock := 0, kind := .clockSet, port := some 0, subject := .clock 0 0, value := 0, chain := 0 } }

/-- A CLOSING stream with a verdict, and one whose close the Encoder is to acknowledge, with nothing and with one record
discarded; a first reject posted or not; the trail holding 127 or 128, port 0 holding 31 or 32. -/
theorem witness_acceptance :
    let st (v : Option DisputeReasons) (posted : Bool) : Stream :=
      { openStream with state := .closing, verdict := v, accepted := 4, firstRejectPosted := posted }
    let s (v : Option DisputeReasons) (posted : Bool) (discarded n m : Nat) : State :=
      { withStream (st v posted) with
        trail := trailOf n, completions := entries m
        encodings := ready.encodings.set 0 { closePending := true, discardedCount := discarded } }
    (∀ v ∈ [some { noTrailer := true }, none], ∀ posted ∈ [true, false], ∀ discarded ∈ [0, 1],
      (s v posted discarded 127 31).powered = true ∧ (s v posted discarded 127 31).streams[(0 : StreamId)] = st v posted
        ∧ (st v posted).state = .closing ∧ (st v posted).abortAfterClose = false
        ∧ (st v posted).storeFullNotice = false ∧ (st v posted).owner = some 0
        ∧ (st v posted).fileIndex = some 0 ∧ (st v posted).switchId = some 12 ∧ (st v posted).sequence = some 400
        ∧ (s v posted discarded 127 31).file 0 = some openFile ∧ openFile.state = .ingesting ∧ openFile.switchId = 12
        ∧ openFile.sequence = 400 ∧ (s v posted discarded 127 31).trail.entries.length < 128
        ∧ (s v posted discarded 127 31).completions.length < 64
        ∧ ((s v posted discarded 127 31).completionsOf 0).length < 32 ∧ (st v posted).reasons = { noTrailer := true }
        ∧ (s v posted discarded 127 31).encodings[(0 : StreamId)].closePending = true
        ∧ (s v posted discarded 127 31).encodings[(0 : StreamId)].image = none
        ∧ (s v posted discarded 127 31).encodings[(0 : StreamId)].discardedCount = discarded
        ∧ (st v posted).firstRejectPosted = posted)
      ∧ (st (some { noTrailer := true }) true).verdict = some { noTrailer := true }
      ∧ 128 ≤ (s none true 0 128 31).trail.entries.length ∧ 32 ≤ ((s none false 1 127 32).completionsOf 0).length := by
  decide +kernel

/-- R40: accepted with no room for the closing entry, the stream is settled in POSTING. -/
theorem test_acceptance_waits :
    let st : Stream := { openStream with state := .closing, verdict := some { noTrailer := true } }
    (after (exec (.closingStreamTrailRetry 0) { withStream st with completions := entries 32 })).map
        (fun t => (t.streams[0].state, t.streams[0].settled, t.waiting, t.trail.entries.length,
          (t.file 0).map (fun f => f.state)))
      = some (.posting, true, [.post 0], 1, some .disputed) := by decide +kernel

/-- A CLOSING stream with abort after close, its store-full notice posted or still waiting, its close acknowledged. -/
theorem witness_abort_after_close :
    let st : Stream := { openStream with state := .closing }
    let s : State := { withStream st with waiting := [.notice 0], encodings := ready.encodings.set 0 { closePending := true } }
    (s.powered = true ∧ s.streams[(0 : StreamId)] = st ∧ st.state = .closing ∧ st.abortAfterClose = false
        ∧ st.storeFullNotice = false ∧ s.file 0 = some openFile
        ∧ s.encodings[(0 : StreamId)].closePending = true ∧ s.encodings[(0 : StreamId)].image = none)
      ∧ ∀ notice ∈ [true, false],
        (after (exec (.closeAcknowledgement 0)
          { s with streams := s.streams.set 0 { st with abortAfterClose := true, storeFullNotice := notice } })).map
          (fun t => (t.streams[0].state, t.streams[0].storeFullNotice, t.waiting, t.staging))
        = some (.aborting, false, [], [.abort 0]) := by
  refine ⟨by decide +kernel, fun notice _ => ?_⟩
  cases notice <;> decide +kernel

/-- An abort the Encoder has closed out, by each cause, port 0 holding 31 or 32 entries. -/
theorem witness_abort_reached :
    let s (cause : AbortCause) (n : Nat) : State :=
      { withStream { openStream with state := .aborting, abortCause := some cause } with
        encodings := ready.encodings.set 0 { removal := .done }, completions := entries n }
    ∀ cause ∈ [AbortCause.request, .timeout, .portReset, .roleWithdrawn],
      (s cause 31).powered = true ∧ (s cause 31).encodings[(0 : StreamId)].removal = .done
        ∧ (s cause 31).streams[(0 : StreamId)].owner = some 0 ∧ (s cause 31).streams[(0 : StreamId)].switchId = some 12
        ∧ (s cause 31).streams[(0 : StreamId)].sequence = some 400
        ∧ (s cause 31).streams[(0 : StreamId)].abortCause = some cause
        ∧ (s cause 31).streams[(0 : StreamId)].storeFullNotice = false ∧ (s cause 31).completions.length < 64
        ∧ ((s cause 31).completionsOf 0).length < 32 ∧ 32 ≤ ((s cause 32).completionsOf 0).length := by
  decide +kernel

/-! ## Witnesses: Staging Queue, Segment Encoder and Store Port -/

/-- The open stream's encoding context with a filling segment 3 that holds the first record of 4.5. -/
def fillingContext : Encoding :=
  { filling := some ⟨3, 1, 0⟩, previous := some ⟨1700036130, [], [1]⟩, recordCount := 1, durationSum := 1874
    baseTime := 1700036130, payload := workedPayload.take 23, dualSum := DualSum.feedAll {} (workedPayload.take 23) }

/-- The open stream with a context, and entries at the head of the Staging Queue. -/
def staged (st : Stream) (c : Encoding) (staging : List StagingEntry) : State :=
  { withStream st with encodings := ready.encodings.set 0 c, staging }

/-- A record that joins the segment as its last one (32,767 are in), one of an aborting stream, one with chain full; a
waiting record of a stream that aborts, of a CLOSING one whose abort began meanwhile, and of one that goes on. -/
theorem witness_record_joins :
    let r : CallRecord := { start := 1700036127, duration := 450, called := [1] }
    let c : Encoding := { fillingContext with recordCount := 32767 }
    let v : Previous := ⟨1700036130, [], [1]⟩
    let queue := [StagingEntry.record 0 r]
    let waits (state : StreamState) (w : HeadWait) : State :=
      { staged { openStream with state } c queue with headWait := some w }
    ((staged openStream c queue).powered = true ∧ (staged openStream c queue).headWait = none
        ∧ (staged openStream c queue).staging = StagingEntry.record 0 r :: []
        ∧ (staged openStream c queue).streams[(0 : StreamId)].state ≠ .aborting
        ∧ (staged openStream c queue).encodings[(0 : StreamId)].chainFull = false
        ∧ (staged openStream c queue).encodings[(0 : StreamId)].filling = some ⟨3, 1, 0⟩
        ∧ (staged openStream c queue).encodings[(0 : StreamId)].previous = some v
        ∧ (staged openStream c queue).encodings[(0 : StreamId)].recordCount < 32768
        ∧ (staged openStream c queue).encodings[(0 : StreamId)].payload.length + (encodeRecord v r).length ≤ 1048512
        ∧ 1 ≤ (staged openStream c queue).encodings[(0 : StreamId)].recordCount)
      ∧ (staged { openStream with state := .aborting } c queue).streams[(0 : StreamId)].state = .aborting
      ∧ (staged openStream { c with chainFull := true } queue).encodings[(0 : StreamId)].chainFull = true
      ∧ ((waits .aborting .image).streams[(0 : StreamId)].state = .aborting
        ∧ (waits .closing .abandoned).headWait = some .abandoned
        ∧ (waits .closing .storeFull).streams[(0 : StreamId)].state ≠ .aborting
        ∧ (waits .closing .storeFull).headWait = some .storeFull
        ∧ (waits .closing .storeFull).staging = StagingEntry.record 0 r :: []) := by
  decide +kernel

/-- R71, R34: a waiting record of a CLOSING stream is discarded when the stream's abort begins while it waits, and waits on
when abort after close was set before it began to wait. -/
theorem test_abandoned_head :
    let s (st : Stream) (w : Option HeadWait) : State :=
      { staged st {} [.record 0 { called := [1] }, .close 0] with headWait := w, freeList := [] }
    let closing : Stream := { openStream with state := .closing }
    ((after (exec (.abortStream 0 1 0) (s closing (some .storeFull)))).bind (fun t => after (exec .encoderTakeHead t))).map
        (fun t => (t.staging, t.headWait, t.streams[0].state)) = some ([.close 0], none, .closing)
      ∧ ((after (exec .encoderTakeHead (s { closing with abortAfterClose := true } none))).bind
          (fun t => after (exec .encoderTakeHead t))).map
        (fun t => (t.staging.length, t.headWait, t.completions.map Completion.detail))
        = some (2, some .storeFull, [.storeFull]) := by decide +kernel

/-- A stream without a filling segment, its file with 511 segments and with 512, with and without a store-full wait,
RUNNING, or CLOSING with abort after close. -/
theorem witness_first_record :
    let r : CallRecord := { start := 1700036130, duration := 1874, called := [1] }
    let s (st : Stream) (n : Nat) (w : Option HeadWait) : State :=
      { staged st {} [.record 0 r] with
        headWait := w, files := [(0, some { openFile with segmentCount := n })] }
    (∀ st ∈ [openStream, { openStream with state := .closing, abortAfterClose := true }], ∀ n ∈ [511, 512],
      ∀ w ∈ [none, some HeadWait.storeFull],
      (s st n w).powered = true ∧ (s st n w).staging = StagingEntry.record 0 r :: []
        ∧ (s st n w).streams[(0 : StreamId)].state ≠ .aborting
        ∧ (s st n w).encodings[(0 : StreamId)].chainFull = false ∧ (s st n w).encodings[(0 : StreamId)].filling = none
        ∧ (s st n w).streams[(0 : StreamId)].fileIndex = some 0
        ∧ (s st n w).file 0 = some { openFile with segmentCount := n }
        ∧ Runs.pop (s st n w).freeList = some (0, [(1, 262143)]) ∧ (s st n w).headWait = w)
      ∧ openFile.state = .ingesting := by decide +kernel

/-- The same with an empty Free Segment List, the stream notified or not, with no earlier notice of it waiting and with one,
port 0 holding 31 or 32 entries. -/
theorem witness_store_full :
    let s (notified notice : Bool) (n : Nat) : State :=
      { staged { openStream with storeFullNotice := notice } { storeFullNotified := notified }
          [.record 0 { called := [1] }] with
        freeList := [], completions := entries n, waiting := if notice then [.notice 0] else [] }
    (∀ notified ∈ [true, false], ∀ notice ∈ [true, false], ∀ n ∈ [31, 32],
      let t := s notified notice n
      t.powered = true ∧ t.headWait = none ∧ t.staging = StagingEntry.record 0 { called := [1] } :: []
        ∧ t.streams[(0 : StreamId)].state ≠ .aborting ∧ t.encodings[(0 : StreamId)].chainFull = false
        ∧ t.encodings[(0 : StreamId)].filling = none ∧ t.streams[(0 : StreamId)].fileIndex = some 0
        ∧ t.file 0 = some openFile ∧ openFile.state = .ingesting ∧ Runs.pop t.freeList = none
        ∧ t.streams[(0 : StreamId)].owner = some 0 ∧ t.streams[(0 : StreamId)].switchId = some 12
        ∧ t.streams[(0 : StreamId)].sequence = some 400
        ∧ ((WaitItem.notice 0 ∉ t.waiting ∧ t.streams[(0 : StreamId)].storeFullNotice = false)
          ∨ (WaitItem.notice 0 ∈ t.waiting ∧ t.streams[(0 : StreamId)].storeFullNotice = true))
        ∧ t.encodings[(0 : StreamId)].storeFullNotified = notified ∧ t.completions.length < 64
        ∧ (t.completionsOf 0).length = n) := by decide +kernel

/-- A later notice of a stream whose earlier one still waits keeps its one place (log entry 39). -/
theorem test_one_notice_waits :
    let s : State :=
      { staged { openStream with storeFullNotice := true } {} [.record 0 { called := [1] }] with
        freeList := [], completions := entries 32, waiting := [.notice 0, .post 1] }
    (after (exec .encoderTakeHead s)).map (fun t => (t.waiting, t.headWait)) = some ([.notice 0, .post 1], some .storeFull) := by
  decide +kernel

/-- A write image of extent `n` with the first record of 4.5. -/
def imageOf (n : Nat) : WriteImage :=
  { segment := n, allocation := 1, header := greatHeader.bytes, payload := workedPayload.take 23
    figures := { recordCount := 1, durationSum := 1874, encodedLength := 23 }, writing := true }

/-- A CLOSE marker, with the store idle or busy, no wait or an image wait, and with the image still held; and of a stream with
no filling segment. -/
theorem witness_close_marker :
    let s (filling : Option Filling) (current : Option StoreOp) (w : Option HeadWait) (image : Option WriteImage) : State :=
      { staged { openStream with state := .closing } { fillingContext with filling, image } [.close 0] with
        headWait := w, storePort := { current } }
    ∀ filling ∈ [none, some ⟨3, 1, 0⟩], ∀ current ∈ [none, some (StoreOp.sweep 9)],
      ∀ w ∈ [none, some HeadWait.image], ∀ image ∈ [none, some (imageOf 2)],
      let t := s filling current w image
      t.powered = true ∧ t.staging = StagingEntry.close 0 :: []
        ∧ t.encodings[(0 : StreamId)].filling = filling ∧ t.streams[(0 : StreamId)].fileIndex = some 0
        ∧ t.streams[(0 : StreamId)].switchId = some 12 ∧ t.streams[(0 : StreamId)].sequence = some 400
        ∧ t.encodings[(0 : StreamId)].image = image ∧ t.headWait = w ∧ t.storePort.current = current
        ∧ t.storePort.writes = [] := by
  decide +kernel

/-- A record whose filling segment holds 32,768 records, or 1,048,512 payload bytes less one. -/
theorem witness_segment_full :
    let c : Encoding := { fillingContext with recordCount := 32768 }
    let v : Previous := ⟨1700036130, [], [1]⟩
    let r : CallRecord := { start := 1700036127, duration := 450, called := [1] }
    let s := staged openStream c [.record 0 r]
    (s.powered = true ∧ s.staging = StagingEntry.record 0 r :: [] ∧ s.streams[(0 : StreamId)].state ≠ .aborting
        ∧ s.encodings[(0 : StreamId)].chainFull = false ∧ s.encodings[(0 : StreamId)].previous = some v
        ∧ 1 ≤ s.encodings[(0 : StreamId)].recordCount ∧ 32768 ≤ s.encodings[(0 : StreamId)].recordCount
        ∧ s.encodings[(0 : StreamId)].image = none ∧ s.headWait = none)
      ∧ 1048512 < (List.replicate 1048511 (0 : Byte)).length + (encodeRecord v r).length := by
  refine ⟨by decide +kernel, ?_⟩
  rw [List.length_replicate]; decide +kernel

/-- An ABORT marker with no write image, with one waiting and with one writing. -/
theorem witness_abort_marker :
    ∀ image ∈ [none, some { imageOf 2 with writing := false }, some (imageOf 2)],
      let s := staged { openStream with state := .aborting } { fillingContext with image } [.abort 0]
      s.powered = true ∧ s.headWait = none ∧ s.staging = StagingEntry.abort 0 :: []
        ∧ s.encodings[(0 : StreamId)].image = image ∧ s.streams[(0 : StreamId)].fileIndex = some 0
        ∧ s.file 0 = some openFile ∧ openFile.state = .ingesting := by decide +kernel

/-- The write of the last extent in progress: its image, its FILLING segment, its file. -/
def writing : State :=
  { staged openStream { image := some (imageOf 262143) } [] with
    storePort := { current := some (.write 0 262143) }
    segments := [(262143, { state := .filling, allocation := 1 })] }

theorem witness_store_write :
    writing.powered = true ∧ writing.storePort.current = some (.write 0 262143) ∧ 262143 ≤ 262143
      ∧ writing.encodings[(0 : StreamId)].image = some (imageOf 262143)
      ∧ writing.encodings[(0 : StreamId)].removal ≠ .held ∧ (writing.segment 262143).state = .filling
      ∧ (writing.segment 262143).fileIndex = 0 ∧ writing.file 0 = some openFile := by decide +kernel

/-- The same with the removal of its file held. -/
theorem witness_held_removal :
    let s : State :=
      { writing with encodings := ready.encodings.set 0 { image := some (imageOf 262143), removal := .held } }
    s.powered = true ∧ s.storePort.current = some (.write 0 262143) ∧ 262143 ≤ 262143
      ∧ s.encodings[(0 : StreamId)].image = some (imageOf 262143) ∧ s.encodings[(0 : StreamId)].removal = .held
      ∧ s.streams[(0 : StreamId)].fileIndex = some 0 ∧ s.file 0 = some openFile ∧ openFile.state = .ingesting := by
  decide +kernel

/-- Every class waiting, then the later ones alone, then none. -/
theorem witness_store_order :
    let s (w : List (StreamId × Nat)) (r : List (CursorId × Nat)) (x : Option Nat) : State :=
      { ready with storePort := { current := some (.sweep 9), writes := w, reads := r, sweep := x } }
    (s [(0, 3)] [(1, 4)] (some 5)).storePort.writes = (0, 3) :: []
      ∧ ((s [] [(1, 4)] (some 5)).storePort.writes = [] ∧ (s [] [(1, 4)] (some 5)).storePort.reads = (1, 4) :: [])
      ∧ ((s [] [] (some 5)).storePort.writes = [] ∧ (s [] [] (some 5)).storePort.reads = []
        ∧ (s [] [] (some 5)).storePort.sweep = some 5)
      ∧ ((s [] [] none).storePort.writes = [] ∧ (s [] [] none).storePort.reads = []
        ∧ (s [] [] none).storePort.sweep = none) := by decide +kernel

/-! ## Witnesses: retention -/

/-- A hold on ALL switches and every day into entry 1, with room in the trail; an ACTIVE and a FREE entry to release, and
with the trail full; hold 32. -/
theorem witness_holds :
    let s (n : Nat) : State :=
      { ready with holds := ready.holds.set 0 { active := true, lastDay := 49709 }, trail := trailOf n }
    (s 127).admits 0 1 ∧ ((s 127).roles 0).admin = true
      ∧ ((s 127).canonical = true ∧ (List.replicate 16 (0 : Byte)).length = 16 ∧ (s 127).trail.entries.length < 128
        ∧ readSelector (wire16 ((s 127).byteOrder 0) ⟨255, 255⟩) = some none
        ∧ readLabel 0 0 (List.replicate 16 0) = some none
        ∧ wire16 ((s 127).byteOrder 0) ⟨0, 0⟩ ≤ wire16 ((s 127).byteOrder 0) ⟨45, 194⟩
        ∧ wire16 ((s 127).byteOrder 0) ⟨45, 194⟩ ≤ 49709
        ∧ (s 127).holds[(1 : Fin 32)].active = false ∧ ∀ j : Fin 32, j < 1 → (s 127).holds[j].active = true)
      ∧ (s 127).holds[(0 : Fin 32)].active = true
      ∧ ((s 128).holds[(0 : Fin 32)].active = true ∧ 128 ≤ (s 128).trail.entries.length)
      ∧ 31 < (32 : Byte).toNat := by
  unfold State.admits; decide +kernel

/-- The refusals of PLACE HOLD: switch 1,024, day 49,710, first day 1 above last day 0, a presence byte 2, a label of 17
characters and one with a byte 127; every entry ACTIVE; a FREE entry and a full trail. -/
theorem witness_hold_refused :
    let full : State := { ready with holds := Vector.replicate 32 { active := true } }
    (full.admits 0 1 ∧ (full.roles 0).admin = true ∧ ∀ j : Fin 32, full.holds[j].active = true)
      ∧ ((List.replicate 16 (127 : Byte)).length = 16 ∧ 1023 < wire16 .little ⟨0, 4⟩ ∧ wire16 .little ⟨0, 4⟩ ≠ 65535
        ∧ 49709 < wire16 .little ⟨46, 194⟩ ∧ wire16 .little ⟨0, 0⟩ < wire16 .little ⟨1, 0⟩ ∧ 1 < (2 : Byte).toNat
        ∧ 16 < (17 : Byte).toNat ∧ ∃ c ∈ (List.replicate 16 (127 : Byte)).take (1 : Byte).toNat, c.toNat < 32 ∨ 126 < c.toNat)
      ∧ (¬(1023 < wire16 .little ⟨255, 255⟩ ∧ wire16 .little ⟨255, 255⟩ ≠ 65535) ∧ ¬49709 < wire16 .little ⟨45, 194⟩
        ∧ ¬wire16 .little ⟨45, 194⟩ < wire16 .little ⟨0, 0⟩ ∧ ¬1 < (0 : Byte).toNat ∧ (0 : Byte) ≠ 1)
      ∧ { ready with trail := trailOf 128 }.admits 0 1 ∧ ready.holds[(0 : Fin 32)].active = false
      ∧ 128 ≤ (trailOf 128).entries.length := by
  unfold State.admits; decide +kernel

/-- A state with a pass. -/
def withPass (p : Pass) : State := { ready with pass := p }

/-- Requests of a port without ADMIN; the clock UNSET; a pass IDLE and WALKING; a pass PAUSED; paused. -/
theorem witness_expiry_controls :
    ((withRoles ⟨true, true, true, false⟩).admits 0 1 ∧ ((withRoles ⟨true, true, true, false⟩).roles 0).admin = false)
      ∧ (opened.admits 0 1 ∧ (opened.roles 0).admin = true ∧ opened.clock.state = .unset)
      ∧ ((withPass {}).admits 0 1 ∧ ((withPass {}).roles 0).admin = true ∧ (withPass {}).clock.state ≠ .unset
        ∧ (withPass {}).pass.state = .idle)
      ∧ ((withPass { state := .walking }).admits 0 1 ∧ (withPass { state := .walking }).pass.state ≠ .idle
        ∧ (withPass { state := .walking }).pass.state ≠ .paused)
      ∧ ((withPass { state := .paused, paused := true }).pass.state = .paused
        ∧ (withPass { state := .paused, paused := true }).pass.paused = true) := by
  unfold State.admits; decide +kernel

/-- A file at the last index, of day 19,675 with a retention of one day, due on day 19,676. -/
def dueFile (state : FileState) (pins : Nat) : File := { openFile with state, fileDay := 19675, pinCount := pins }

def visiting (f : Option File) (state : PassState) (n : Nat) : State :=
  { mapped ready with
    files := f.toList.map (fun g => (131071, some g)), pass := { state, position := 131071, again := true }
    trail := trailOf n }

/-- The pass at index 131,071: WALKING, WAITING_TRAIL or PAUSED; the entry free, or a file due or not, with and without
pins, with the trail holding 127 or 128 entries. -/
theorem witness_pass_visit :
    (∀ state ∈ [PassState.walking, .waitingTrail, .paused],
        (visiting none state 127).powered = true ∧ (visiting none state 127).pass.state = state
          ∧ (visiting none state 127).pass.position = 131071 ∧ (visiting none state 127).file 131071 = none)
      ∧ (visiting none .paused 127).admits 0 1 ∧ ((visiting none .paused 127).roles 0).admin = true
      ∧ (∀ n ∈ [127, 128], ∀ state ∈ [FileState.accepted, .expiring], ∀ pins ∈ [0, 1],
        (visiting (some (dueFile state pins)) .walking n).file 131071 = some (dueFile state pins)
          ∧ (visiting (some (dueFile state pins)) .walking n).clock.state ≠ .unset
          ∧ (visiting (some (dueFile state pins)) .walking n).retentionOf (dueFile state pins).retentionClass ≠ 0
          ∧ (dueFile state pins).fileDay
              + (visiting (some (dueFile state pins)) .walking n).retentionOf (dueFile state pins).retentionClass
            ≤ (visiting (some (dueFile state pins)) .walking n).clock.value / 86400
          ∧ (∀ k : Fin 32, (visiting (some (dueFile state pins)) .walking n).holds[k].active = false)
          ∧ (dueFile state pins).suspectCount = 0
          ∧ (visiting (some (dueFile state pins)) .walking n).trail.entries.length = n)
      ∧ ((visiting (some { dueFile .accepted 0 with fileDay := 19676 }) .walking 127).file 131071
          = some { dueFile .accepted 0 with fileDay := 19676 }
        ∧ ¬(19676 + (visiting none .walking 127).retentionOf 2 ≤ (visiting none .walking 127).clock.value / 86400)) := by
  unfold State.admits; decide +kernel

/-- R99: a pass in WAITING_TRAIL whose trail is full stays where it is although its file is no longer due, and goes on once
an entry has left the trail. -/
theorem test_pass_waits_for_trail :
    let s (woken : Bool) : State :=
      { visiting (some { dueFile .expiring 0 with fileDay := 19676 }) .waitingTrail 128 with passWoken := woken }
    (after (exec .passTrailRetry (s false))).map (fun t => t.pass.state) = some .waitingTrail
      ∧ (after (exec .passTrailRetry (s true))).map (fun t => (t.pass.state, t.pass.position, t.passWoken))
        = some (.walking, 0, false) := by decide +kernel

/-- The File Table with the pair 12, 400 in a state. -/
def holding (f : File) (n : Nat) : State := { ready with files := [(0, some f)], trail := trailOf n }

/-- Switch 1,024; a pair not held; a DISPUTED, an INGESTING and an ACCEPTED file, its loss accepted or not, the trail
holding 127 or 128 entries. -/
theorem witness_disputes :
    ((withRoles ⟨true, true, true, false⟩).admits 0 1 ∧ ((withRoles ⟨true, true, true, false⟩).roles 0).admin = false)
      ∧ (ready.admits 0 1 ∧ (ready.roles 0).admin = true ∧ 1023 < wire16 (ready.byteOrder 0) ⟨0, 4⟩
        ∧ wire16 (ready.byteOrder 0) ⟨255, 3⟩ ≤ 1023 ∧ ready.findFile 1023 400 = none)
      ∧ (∀ f ∈ [{ openFile with state := .disputed }, openFile, { openFile with state := .accepted },
            { openFile with state := .accepted, lossAccepted := true }], ∀ n ∈ [127, 128],
        (holding f n).admits 0 1 ∧ ((holding f n).roles 0).admin = true
          ∧ wire16 ((holding f n).byteOrder 0) ⟨12, 0⟩ = 12 ∧ wire16 ((holding f n).byteOrder 0) ⟨144, 1⟩ = 400
          ∧ (holding f n).findFile 12 400 = some (0, f) ∧ (holding f n).file 0 = some f
          ∧ (holding f n).trail.entries.length = n) := by
  unfold State.admits; decide +kernel

/-! ## Witnesses: audit sweep, findings and trail -/

/-- The sweep in each of its states, for an AUDIT port; freeze 0, 1 and 2. -/
theorem witness_sweep_controls :
    (∀ state ∈ [SweepState.stopped, .frozen, .active, .resting, .waitingLog],
      { ready with sweep := { state } }.admits 0 1 ∧ ({ ready with sweep := { state } }.roles 0).audit = true
        ∧ { ready with sweep := { state } }.sweep.state = state)
      ∧ ((1 : Byte) = 0 ∨ (1 : Byte) = 1) ∧ (2 : Byte) ≠ 0 ∧ (2 : Byte) ≠ 1 := by
  unfold State.admits; decide +kernel

/-- A sweep at the last segment, its segment FREE or STORED, with `n` findings. -/
def sweeping (state : SweepState) (segments : Sparse Segment) (position n : Nat) : State :=
  { ready with
    sweep := { state, position, visitsLeft := 1, rest := .due }, segments
    findings := List.replicate n
      { kind := .readError, source := .sweep, segment := 0, fileIndex := 0, switchId := 0, sequence := 0, clock := 0 } }

theorem witness_sweep_visit :
    (∀ state ∈ [SweepState.active, .waitingLog, .resting, .stopped],
      ∀ segments ∈ [[], [(262143, ({ state := .stored } : Segment))]], ∀ n ∈ [29, 30],
      (sweeping state segments 262143 n).powered = true ∧ (sweeping state segments 262143 n).sweep.visit = none
        ∧ (sweeping state segments 262143 n).sweep.reserved = 0
        ∧ (sweeping state segments 262143 n).storePort.sweep = none
        ∧ (sweeping state segments 262143 n).storePort.current = none
        ∧ (sweeping state segments 262143 n).storePort.writes = [] ∧ (sweeping state segments 262143 n).storePort.reads = []
        ∧ (sweeping state segments 262143 n).sweep.state = state
        ∧ 0 < (sweeping state segments 262143 n).sweep.visitsLeft
        ∧ (sweeping state segments 262143 n).sweep.position = 262143
        ∧ (sweeping state segments 262143 n).sweep.rest = .due
        ∧ (sweeping state segments 262143 n).findings.length = n
        ∧ (sweeping state segments 262143 n).canonical = true)
      ∧ ((sweeping .active [] 262143 29).segment 262143).state = .free
      ∧ ((sweeping .active [(262143, { state := .stored })] 262143 29).segment 262143).state = .stored := by decide +kernel

/-- STEP SWEEP: a segment at the position, one that is reached after a return to 0, and none in the store. -/
theorem witness_step_sweep :
    ((sweeping .stopped [] 262143 29).admits 0 1 ∧ ((sweeping .stopped [] 262143 29).roles 0).audit = true)
      ∧ ((sweeping .stopped [(262143, { state := .stored })] 262143 29).segment 262143).state = .stored
      ∧ (((sweeping .stopped [(0, { state := .suspect })] 262143 29).segment 0).state = .suspect
        ∧ ((sweeping .stopped [(0, { state := .suspect })] 262143 29).segment 262143).state = .free)
      ∧ ∀ k, k ≤ 262143 → ¬(((sweeping .stopped [] 262143 29).segment k).state = .stored
          ∨ ((sweeping .stopped [] 262143 29).segment k).state = .suspect) := by
  refine ⟨by unfold State.admits; decide +kernel, by decide +kernel, by decide +kernel, fun k _ => ?_⟩
  have h : (sweeping .stopped [] 262143 29).segment k = {} := rfl
  rw [h]; decide

/-- STEP SWEEP in STOPPED while a visit is in flight. -/
theorem test_step_sweep_in_flight :
    (after (exec (.stepSweep 0 1)
        { ready with sweep := { visit := some ⟨9, 1, 0, .paced, false⟩ } })).map (fun t => t.replies.map Reply.status)
      = some [.wrongState] := by decide +kernel

/-- The read of a paced visit of the last extent in progress; it reports an error, or an extent that is clean. -/
def reading (window rest : Nat) (freeze : Bool) : State :=
  { withStream openStream with
    settings := { ready.settings with rest, freeze }
    segments := [(262143, { state := .stored, allocation := 1, figures := { check := 1 } })]
    storePort := { current := some (.sweep 262143) }
    sweep :=
      { state := .active, position := 262143, visitsLeft := window, reserved := 3
        visit := some { segment := 262143, allocation := 1, fileIndex := 0, kind := .paced } } }

theorem witness_sweep_read :
    (∀ window ∈ [0, 1], ∀ rest ∈ [0, 60], ∀ freeze ∈ [true, false],
      (reading window rest freeze).powered = true ∧ (reading window rest freeze).storePort.current = some (.sweep 262143)
        ∧ (reading window rest freeze).sweep.visit
          = some { segment := 262143, allocation := 1, fileIndex := 0, kind := .paced, restarted := false }
        ∧ ((reading window rest freeze).segment 262143).state = .stored
        ∧ ((reading window rest freeze).segment 262143).allocation = 1
        ∧ ((reading window rest freeze).segment 262143).fileIndex = 0
        ∧ (reading window rest freeze).file 0 = some openFile ∧ (reading window rest freeze).sweep.state = .active
        ∧ (reading window rest freeze).judge 262143 .error = [(.readError, none)])
      ∧ (reading 0 60 true).judge 262143
          (.complete ((List.range 64).zip (Header.mk 262143 1 0 0 12 400 { check := 1 }).bytes)) = [] := by decide +kernel

/-- A read in progress for a STEP visit, its request outstanding or gone; the segment's standing, its file's suspect count
and the trail's length are the arguments. -/
def stepping (standing : SegmentState) (allocation suspects n : Nat) (os : List Outstanding) : State :=
  { withOutstanding os with
    trail := trailOf n, files := [(0, some { openFile with suspectCount := suspects })]
    segments := [(262143, { state := standing, allocation, unreported := true, figures := { check := 1 } })]
    storePort := { current := some (.sweep 262143) }
    sweep :=
      { position := 262143, reserved := 3
        visit := some { segment := 262143, allocation := 1, fileIndex := 0, kind := .step 0 1, restarted := true } } }

/-- Visits of STORED and SUSPECT segments, damaged and clean; a FREE one and one with another allocation are stale. -/
theorem witness_step_read :
    (∀ standing ∈ [SegmentState.stored, .suspect], ∀ suspects ∈ [0, 1, 2], ∀ n ∈ [127, 128],
      let s := stepping standing 1 suspects n [⟨1, .stepping⟩]
      s.powered = true ∧ s.storePort.current = some (.sweep 262143) ∧ (s.segment 262143).state = standing
        ∧ (s.segment 262143).allocation = 1 ∧ (s.segment 262143).fileIndex = 0
        ∧ s.file 0 = some { openFile with suspectCount := suspects } ∧ s.trail.entries.length = n
        ∧ (s.segment 262143).unreported = true ∧ s.judge 262143 .error = [(.readError, none)]
        ∧ s.judge 262143
          (.complete ((List.range 64).zip (Header.mk 262143 1 0 0 12 400 { check := 1 }).bytes)) = []
        ∧ ∃ o ∈ s.ports[(0 : PortId)].outstanding, o.tag = 1 ∧ o.standing = .stepping)
      ∧ ((stepping .free 1 0 127 []).segment 262143).state = .free
      ∧ ((stepping .stored 2 0 127 []).segment 262143).allocation ≠ 1
      ∧ (stepping .stored 1 0 127 []).ports[(0 : PortId)].outstanding = [] := by decide +kernel

/-- The segment of 4.5 with its own header, with another file's, with an altered duration sum, and with no byte. -/
theorem witness_judge :
    let g : Figures :=
      { recordCount := 4, durationSum := 2481, encodedLength := 64, check := dualSumOf workedPayload
        baseTime := 1700036130 }
    let h : Header := Header.mk 5 1 0 0 12 400 g
    judgeExtent h h workedPayload = []
      ∧ judgeExtent h { h with fileIndex := 1 } workedPayload = [(.malformed, none)]
      ∧ (decodePayload g workedPayload = some workedRecords
        ∧ judgeExtent h { h with figures := { g with durationSum := 0 } } workedPayload
          = [(.durationMismatch, some (2481, 0))])
      ∧ decodePayload g [] = none := by decide +kernel

/-- A trail of the three entries of 7.7 and the acknowledgement of sequence 1, and of sequence 3, which is not held. -/
def threeEntries : Trail :=
  ((Trail.append {} 1700006400 .clockSet (some 0) (.clock 0 1700006400) 0).append 1700006405 .retentionChanged (some 0)
    (.index 2) 1825).append 1700010000 .fileAccepted (some 0) (.file 12 400 0 {}) 52768

theorem witness_logs :
    let s : State := { ready with trail := threeEntries }
    (s.admits 0 1 ∧ (s.roles 0).audit = true ∧ s.sweep.state ≠ .waitingLog)
      ∧ (∃ d e f, s.trail.entries = [d] ++ e :: [f] ∧ e.sequence = wire32 (s.byteOrder 0) ⟨1, 0, 0, 0⟩
        ∧ ∀ b ∈ [d], b.sequence ≠ wire32 (s.byteOrder 0) ⟨1, 0, 0, 0⟩)
      ∧ ∀ e ∈ s.trail.entries, e.sequence ≠ wire32 (s.byteOrder 0) ⟨3, 0, 0, 0⟩ := by
  refine ⟨by unfold State.admits; decide +kernel, ⟨_, _, _, rfl, by decide +kernel, by decide +kernel⟩, by decide +kernel⟩

/-- A WAITING_LOG sweep at a STORED segment while FETCH FINDINGS frees 16 places: the visit begins. -/
theorem test_fetch_findings_wakes_sweep :
    let s := sweeping .waitingLog [(262143, { state := .stored })] 262143 30
    s.admits 0 1 ∧ (s.roles 0).audit = true
      ∧ (after (exec (.fetchFindings 0 1) s)).map (fun t => (t.findings.length, t.sweep.state, t.sweep.reserved))
        = some (14, .active, 3) := by
  unfold State.admits; decide +kernel

/-! ## Witnesses: retrieval cursors -/

/-- An accepted file of one stored segment of four records (4.5) in the last extent. -/
def keptFile (state : FileState) (pins : Nat) : File :=
  { openFile with
    state, fileDay := 19675, firstSegment := some 262143, lastSegment := some 262143, segmentCount := 1
    recordCount := 4, durationTotal := 2481, pinCount := pins }

def keeping (state : FileState) (pins : Nat) (standing : SegmentState) (u : Cursor) : State :=
  { mapped ready with
    files := [(0, some (keptFile state pins))]
    segments := [(262143,
      { state := standing, allocation := 1
        figures := { recordCount := 4, durationSum := 2481, encodedLength := 64, check := dualSumOf workedPayload
                     baseTime := 1700036130 } })]
    cursors := ready.cursors.set 0 u }

/-- A cursor the test of `freeCursor` passes is openable, and one it fails is not. -/
theorem cursor_openable {s : State} {c : CursorId} (h : (!s.cursors[c].isOpen && !s.cursorReserved c) = true) :
    s.cursorOpenable c := (State.cursorOpenable_iff s c).mpr h

theorem cursor_not_openable {s : State} {c : CursorId} (h : (!s.cursors[c].isOpen && !s.cursorReserved c) = false) :
    ¬s.cursorOpenable c := fun h' => by rw [State.cursorOpenable_iff, h] at h'; cases h'

/-- The request of OPEN CURSOR of the kept file at its first record, for cursor 0. -/
def cursorRequest : OpeningCursor := { switchId := 12, sequence := 400, start := 0, cursor := 0 }

/-- OPEN CURSOR at ordinal 0, at the last record, and at the end; FREE cursor 0, the catalogue free and busy; and the
request outstanding on a file in each state, and on none. -/
theorem witness_open_cursor :
    (∀ busy ∈ [false, true],
      let s := catalogued (keeping .accepted 0 .stored {}) busy []
      s.powered = true ∧ s.file 0 = some (keptFile .accepted 0) ∧ s.admits 0 1 ∧ (s.roles 0).retrieve = true
        ∧ wire16 (s.byteOrder 0) ⟨12, 0⟩ ≤ 1023 ∧ wire32 (s.byteOrder 0) ⟨3, 0, 0, 0⟩ = 3
        ∧ wire32 (s.byteOrder 0) ⟨255, 255, 255, 0⟩ = 16777215 ∧ s.catalogueBusy = busy ∧ s.openings = []
        ∧ s.findFile (wire16 (s.byteOrder 0) ⟨12, 0⟩) (wire16 (s.byteOrder 0) ⟨144, 1⟩) = some (0, keptFile .accepted 0)
        ∧ locate s.segments (s.chain (keptFile .accepted 0)) 0 = some (262143, 0)
        ∧ locate s.segments (s.chain (keptFile .accepted 0)) 3 = some (262143, 3)
        ∧ locate s.segments (s.chain (keptFile .accepted 0)) 16777215 = none)
      ∧ (∀ busy ∈ [false, true], (catalogued (keeping .accepted 0 .stored {}) busy []).cursorOpenable 0)
      ∧ (∀ d : CursorId, ¬d < 0)
      ∧ (∀ state ∈ [FileState.accepted, .disputed, .ingesting, .expiring],
        let s := catalogued (keeping state 0 .stored {}) true [⟨0, some 7, .cursor cursorRequest⟩]
        s.powered = true ∧ s.file 0 = some (keptFile state 0) ∧ s.pending = [] ∧ (∀ q : PortId, s.ports[q].unsent = [])
          ∧ s.openings = ⟨0, some 7, .cursor cursorRequest⟩ :: [] ∧ ⟨7, .opening⟩ ∈ s.ports[(0 : PortId)].outstanding
          ∧ s.cursors[(0 : CursorId)].isOpen = false
          ∧ s.findFile 12 400 = some (0, keptFile state 0) ∧ s.findFile 12 401 = none
          ∧ locate s.segments (s.chain (keptFile state 0)) 0 = some (262143, 0)
          ∧ locate s.segments (s.chain (keptFile state 0)) 4 = none) := by
  refine ⟨?_, fun busy h => cursor_openable ?_, by decide, by decide +kernel⟩
  · unfold State.admits; decide +kernel
  · revert busy; decide +kernel

/-- R24, R135: two cursors are reserved while the catalogue is busy, and the first request is answered once nothing waits. -/
theorem test_opening_cursor :
    let open' (tag : Byte) := Instr.openCursor 0 tag ⟨12, 0⟩ ⟨144, 1⟩ 0 ⟨0, 0, 0, 0⟩
    let s := catalogued (keeping .accepted 0 .stored {}) true []
    ((after (exec (open' 1) s)).bind (fun t => after (exec (open' 2) t))).map (fun t => (t.openings, t.replies))
        = some ([⟨0, some 1, .cursor cursorRequest⟩, ⟨0, some 2, .cursor { cursorRequest with cursor := 1 }⟩], [])
      ∧ ((after (exec (open' 1) s)).bind (fun t => after (step t))).map
        (fun t => (t.ports[0].outstanding, t.cursors[0].isOpen, t.file 0, t.replies.map Reply.status))
        = some ([], true, some (keptFile .accepted 1), [.ok]) := by decide +kernel

/-- A cursor at the first record, idle and due. -/
def firstCursor : Cursor :=
  { isOpen := true, owner := some 0, fileIndex := some 0, segment := some 262143, idle := .due }

/-- A cursor to free: on an ACCEPTED file, and as the last one on an EXPIRING file that is due; with no read at the Store
Port, with one waiting there, and with one in progress. -/
theorem witness_free_cursor :
    ∀ state ∈ [FileState.accepted, .expiring],
      ∀ port ∈ [({} : StorePort), { current := some (.sweep 9), reads := [(0, 262143)] },
        { current := some (.read 0 262143 true) }],
      let s : State := { keeping state 1 .stored firstCursor with storePort := port }
      s.powered = true ∧ s.file 0 = some (keptFile state 1) ∧ s.cursors[(0 : CursorId)] = firstCursor
        ∧ (keptFile state 1).pinCount = 1 ∧ s.admits 0 1 ∧ (s.roles 0).retrieve = true ∧ s.cursorBusy 0 0 = false
        ∧ s.pass.paused = false ∧ s.dueToExpire (keptFile state 1) = true ∧ s.trail.entries.length < 128 := by
  unfold State.admits; decide +kernel

/-- R144: a link reset withdraws a cursor's waiting read, and leaves one in progress to be discarded at its end. -/
theorem test_abandoned_read :
    let u : Cursor := { firstCursor with idle := .stopped, fetch := some ⟨1, 1, []⟩, read := some ⟨262143, 1, true⟩ }
    let s (port : StorePort) : State := { keeping .accepted 1 .stored u with storePort := port }
    (after (exec (.linkReset 0) (s { current := some (.sweep 9), reads := [(0, 262143)] }))).map State.storePort
        = some { current := some (.sweep 9) }
      ∧ ((after (exec (.linkReset 0) (s { current := some (.read 0 262143 true) }))).bind
          (fun t => after (exec (.retrievalReadComplete .error) t))).map
        (fun t => (t.storePort.current, t.findings, (t.segment 262143).state, t.trail.entries))
        = some (none, [], .stored, []) := by decide +kernel

/-- The end of a read whose fetch was abandoned. -/
theorem witness_abandoned_read :
    let s : State := { keeping .accepted 0 .stored {} with storePort := { current := some (.read 0 262143 false) } }
    s.powered = true ∧ s.storePort.current = some (.read 0 262143 false) ∧ 262143 ≤ 262143 := by decide +kernel

/-- The last unpin of an EXPIRING file that is not due, and of one that is due with the trail full; paused; requests that
name cursor 0 while a fetch of it is unanswered; requests that OPEN CURSOR and CLOSE CURSOR refuse. -/
theorem witness_cursor_cases :
    let s (f : File) (n : Nat) : State :=
      { keeping .expiring 1 .stored firstCursor with files := [(0, some f)], trail := trailOf n }
    let kept := keptFile .expiring 1
    ((s kept 128).dueToExpire kept = true ∧ (s kept 128).trail.entries.length = 128)
      ∧ (s { kept with fileDay := 19676 } 0).dueToExpire { kept with fileDay := 19676 } = false
      ∧ (kept.state = .expiring ∧ kept.pinCount = 1 ∧ (s kept 128).pass.paused = false
        ∧ { (s kept 128) with pass := { paused := true } }.pass.paused = true)
      ∧ ((withOutstanding [⟨9, .fetching 0⟩]).admits 0 1
        ∧ ∃ o ∈ (withOutstanding [⟨9, .fetching 0⟩]).ports[(0 : PortId)].outstanding, o.standing.cursor = some 0)
      ∧ (∀ f ∈ [openFile, keptFile .expiring 0, keptFile .accepted 0],
        (s f 0).admits 0 1 ∧ ((s f 0).roles 0).retrieve = true
          ∧ (s f 0).findFile (wire16 .little ⟨12, 0⟩) (wire16 .little ⟨144, 1⟩) = some (0, f)
          ∧ (s f 0).findFile (wire16 .little ⟨12, 0⟩) (wire16 .little ⟨145, 1⟩) = none)
      ∧ (∀ c : CursorId, ¬{ ready with cursors := Vector.replicate 16 firstCursor }.cursorOpenable c)
      ∧ (1023 < wire16 .little ⟨0, 4⟩ ∧ (2 : Byte) ≠ 0 ∧ (2 : Byte) ≠ 1 ∧ 15 < (16 : Byte).toNat)
      ∧ (ready.cursorBusy 0 0 = false ∧ ready.cursors[(0 : CursorId)].isOpen = false) := by
  refine ⟨by decide +kernel, by decide +kernel, by decide +kernel, ?_, ?_, fun c => cursor_not_openable ?_, by decide,
    by decide +kernel⟩
  · unfold State.admits; decide +kernel
  · unfold State.admits; decide +kernel
  · revert c; decide +kernel

/-- FETCH RECORDS at end, and with a segment to enter while the store is busy and while it is idle. -/
theorem witness_fetch :
    let s (u : Cursor) (current : Option StoreOp) : State := { keeping .accepted 1 .stored u with storePort := { current } }
    ∀ u ∈ [firstCursor, { firstCursor with segment := none, nextOrdinal := 4 }], ∀ current ∈ [none, some (StoreOp.sweep 9)],
      (s u current).cursors[(0 : CursorId)] = u ∧ u.isOpen = true ∧ u.owner = some 0 ∧ u.fileIndex = some 0
        ∧ (s u current).file 0 = some (keptFile .accepted 1) ∧ (s u current).admits 0 1
        ∧ ((s u current).roles 0).retrieve = true
        ∧ (s u current).cursorBusy 0 0 = false ∧ 1 ≤ wire16 ((s u current).byteOrder 0) ⟨1, 0⟩ ∧ u.loaded = none
        ∧ (s u current).storePort.current = current ∧ (s u current).storePort.writes = []
        ∧ (s u current).storePort.reads = [] := by
  unfold State.admits; decide +kernel

/-- FETCH RECORDS of no record and at end, with the line busy. -/
theorem witness_fetch_busy_line :
    let s (u : Cursor) : State :=
      { keeping .accepted 1 .stored u with ports := ready.ports.set 0 { up := true, lineBusy := true } }
    ∀ u ∈ [firstCursor, { firstCursor with segment := none, nextOrdinal := 4 }],
      (s u).cursors[(0 : CursorId)] = u ∧ u.isOpen = true ∧ u.owner = some 0 ∧ u.fileIndex = some 0
        ∧ (s u).file 0 = some (keptFile .accepted 1) ∧ (s u).admits 0 1 ∧ ((s u).roles 0).retrieve = true
        ∧ (s u).ports[(0 : PortId)].lineBusy = true ∧ (s u).cursorBusy 0 0 = false
        ∧ min (wire16 ((s u).byteOrder 0) ⟨0, 0⟩) 64 = 0 := by
  unfold State.admits; decide +kernel

/-- R87, R138: a FETCH RECORDS that enters a segment while the store is idle starts its read in its own step. -/
theorem test_fetch_starts_read :
    (after (exec (.fetchRecords 0 1 0 ⟨1, 0⟩) (keeping .accepted 1 .stored firstCursor))).map
        (fun t => (t.storePort.current, t.cursors[0].read, t.ports[0].outstanding))
      = some (some (.read 0 262143 true), some ⟨262143, 1, true⟩, [⟨1, .fetching 0⟩]) := by decide +kernel

/-- A port whose line is busy, with a fetch of cursor 0 whose reply, one record, waits on it, and the requests behind it. -/
def unsentFetch (table : List Outstanding) : State :=
  { keeping .accepted 1 .stored
      { firstCursor with
        loaded := some workedRecords, within := 1, nextOrdinal := 1, idle := .stopped, fetch := some ⟨1, 1, []⟩ } with
    ports := ready.ports.set 0
      { up := true, lineBusy := true, outstanding := table, unsent := [⟨0, 1, .ok, .little, .records [] 0 1⟩] } }

/-- R137, R142: with the line busy a fetch stays in progress behind its formed reply, its countdown stopped. -/
theorem test_fetch_reply_waits :
    let s : State :=
      { keeping .accepted 1 .stored { firstCursor with loaded := some workedRecords } with
        ports := ready.ports.set 0 { up := true, lineBusy := true } }
    (after (exec (.fetchRecords 0 1 0 ⟨1, 0⟩) s)).map
        (fun t => (t.cursors[0].idle, t.cursors[0].fetch.map Fetch.tag, t.ports[0].outstanding, t.replies))
        = some (.stopped, some 1, [⟨1, .delivering 0⟩], []) := by decide +kernel

/-- R137, R142, R156: when the reply of a fetch is sent, the countdown is loaded, and a CLOSE CURSOR held behind it is taken. -/
theorem test_fetch_ends_when_sent :
    (after (step (unsentFetch [⟨1, .delivering 0⟩]))).map
        (fun t => (t.cursors[0].idle, t.cursors[0].fetch.isSome, t.ports[0].outstanding, t.replies.map Reply.tag))
        = some (.running 300, false, [], [1])
      ∧ (after (step (unsentFetch [⟨1, .delivering 0⟩, ⟨2, .heldClose 0⟩]))).map
        (fun t => (t.cursors[0].isOpen, t.ports[0].outstanding, t.ports[0].unsent.map Reply.tag, t.replies.map Reply.tag))
        = some (false, [⟨2, .answered⟩], [2], [1]) := by decide +kernel

/-- The reply of a fetch waiting on its line: alone, and before a request held behind it. -/
theorem witness_fetch_sent :
    ∀ behind ∈ [[⟨6, .stepping⟩], [⟨6, Standing.answered⟩, ⟨2, .heldFetch 0 (wire16 .little ⟨1, 0⟩)⟩],
          [⟨2, Standing.heldClose 0⟩]],
        let s := unsentFetch ([] ++ ⟨1, .delivering 0⟩ :: behind)
        (s.pending = [] ∧ s.powered = true ∧ s.ports[(0 : PortId)].unsent ≠ [] ∧ ∀ o : PortId, o < 0 → s.ports[o].unsent = [])
          ∧ s.ports[(0 : PortId)].outstanding = [] ++ ⟨1, .delivering 0⟩ :: behind
          ∧ (∀ o ∈ [] ++ behind, o.standing.delivers = none)
          ∧ ((behind.filter (fun o => o.standing ≠ .answered)).filter (fun o => o.standing.cursor = some 0)).length ≤ 1
          ∧ (s.cursors[(0 : CursorId)].isOpen = true ∧ s.cursors[(0 : CursorId)].owner = some 0
            ∧ s.cursors[(0 : CursorId)].fileIndex = some 0 ∧ s.file 0 = some (keptFile .accepted 1))
          ∧ (s.roles 0).retrieve = true ∧ s.ports[(0 : PortId)].up = true ∧ s.controller = .ready ∧ s.resetLow = false := by
  decide +kernel

/-- The report of the read: the payload of 4.5, delivered; and an error under SUSPECT standing. -/
theorem witness_fetch_report :
    let u : Cursor := { firstCursor with idle := .stopped, fetch := some ⟨1, 1, []⟩, read := some ⟨262143, 1, true⟩ }
    let line (standing : SegmentState) (lineBusy : Bool) : State :=
      { keeping .accepted 1 standing u with
        storePort := { current := some (.read 0 262143 true) }
        ports := ready.ports.set 0 { up := true, outstanding := [⟨6, .stepping⟩, ⟨1, .fetching 0⟩], lineBusy } }
    let s (standing : SegmentState) : State := line standing false
    let altered := (List.range' 64 64).zip workedPayload
    (∀ lineBusy ∈ [false, true], (line .stored lineBusy).ports[(0 : PortId)].lineBusy = lineBusy)
      ∧ (∀ standing ∈ [SegmentState.stored, .suspect],
      (s standing).powered = true ∧ (s standing).cursors[(0 : CursorId)] = u
        ∧ (s standing).storePort.current = some (.read 0 262143 true) ∧ u.segment = some 262143
        ∧ u.read = some ⟨262143, 1, true⟩ ∧ u.fetch = some ⟨1, 1, []⟩
        ∧ (s standing).ports[(0 : PortId)].outstanding = [⟨6, .stepping⟩, ⟨1, .fetching 0⟩]
        ∧ (∀ o ∈ (s standing).ports[(0 : PortId)].outstanding, o.standing.cursor = some 0 → o.tag = 1)
        ∧ (s standing).deliveredBytes 262143 altered 64 64 = workedPayload
        ∧ dualSumOf workedPayload = ((s standing).segment 262143).figures.check
        ∧ decodePayload ((s standing).segment 262143).figures workedPayload = some workedRecords
        ∧ workedRecords[u.within]? = workedRecords.head?
        ∧ u.within + 1 < ((s standing).segment 262143).figures.recordCount)
      ∧ ((s .suspect).segment 262143).state = .suspect := by decide +kernel

/-- A loaded segment with more records than asked for, with fewer and a further segment, and with fewer and none; a request
held behind the fetch; a damaged payload, and one that has the check and does not decode. -/
theorem witness_fetch_cases :
    let u : Cursor := { firstCursor with loaded := some workedRecords, within := 2 }
    let g : Figures :=
      { recordCount := 4, durationSum := 2481, encodedLength := 64, check := dualSumOf workedPayload
        baseTime := 1700036130 }
    let s (next : Option Nat) : State :=
      { keeping .accepted 1 .stored u with
        segments := [(262143, { state := .stored, allocation := 1, figures := g, next })]
        storePort := { current := some (.sweep 9) } }
    let busy (standing : Standing) : State := withOutstanding [⟨6, .stepping⟩, ⟨1, .fetching 0⟩, ⟨2, standing⟩]
    (∀ next ∈ [none, some 9], (s next).admits 0 1 ∧ ((s next).roles 0).retrieve = true
        ∧ (s next).cursorBusy 0 0 = false ∧ u.segment = some 262143 ∧ u.loaded = some workedRecords
        ∧ workedRecords.length = ((s next).segment 262143).figures.recordCount ∧ u.within < 4
        ∧ ((s next).segment 262143).next = next ∧ (s next).storePort.current.isSome = true)
      ∧ (min (wire16 .little ⟨1, 0⟩) 64 ≤ 4 - u.within ∧ 4 - u.within < min (wire16 .little ⟨100, 0⟩) 64)
      ∧ (∀ standing ∈ [Standing.heldFetch 0 (wire16 .little ⟨1, 0⟩), .heldClose 0],
        (busy standing).ports[(0 : PortId)].outstanding = [⟨6, .stepping⟩, ⟨1, .fetching 0⟩, ⟨2, standing⟩]
          ∧ (busy standing).ports[(0 : PortId)].outstanding.length ≤ 8
          ∧ (∀ o ∈ (busy standing).ports[(0 : PortId)].outstanding,
            o.standing.cursor = some 0 → o.tag = 1 ∨ o = ⟨2, standing⟩)
          ∧ ((busy standing).roles 0).retrieve = true ∧ (busy standing).ports[(0 : PortId)].up = true
          ∧ (busy standing).controller = .ready ∧ (busy standing).resetLow = false)
      ∧ dualSumOf ((s none).deliveredBytes 262143 [] 64 64) ≠ g.check
      ∧ (dualSumOf [] = ({ recordCount := 1, check := 1 } : Figures).check
        ∧ decodePayload { recordCount := 1, check := 1 } [] = none) := by
  unfold State.admits; decide +kernel

/-! ## Witnesses: clock, settings, links, resets, information -/

/-- The clock in REFERENCE, in HOLDOVER and UNSET with and without reference, with 0, 1 and 2 internal seconds since the
last pulse; SET CLOCK to a later day, to the same second, and with the trail full. -/
theorem witness_clock :
    let s (state : ClockState) (present : Bool) (n : Nat) : State :=
      { ready with clock := { value := 4294943998, state, referencePresent := present, internalSeconds := n } }
    (∀ state ∈ [ClockState.reference, .unset, .holdover], ∀ present ∈ [true, false], ∀ n ∈ [0, 1, 2],
      (s state present n).powered = true ∧ (s state present n).clock.state = state
        ∧ (s state present n).clock.referencePresent = present ∧ (s state present n).clock.internalSeconds = n)
      ∧ (State.reset.powered = true ∧ State.reset.clock.state = .unset ∧ State.reset.clock.referencePresent = false
        ∧ State.reset.clock.internalSeconds = 0)
      ∧ (∀ n ∈ [127, 128], (holding openFile n).admits 0 1 ∧ ((holding openFile n).roles 0).admin = true
        ∧ (holding openFile n).trail.entries.length = n ∧ (holding openFile n).clock.state ≠ .unset)
      ∧ ready.clock.value / 86400 < wire32 .little ⟨128, 91, 85, 101⟩ / 86400
      ∧ ¬(ready.clock.value / 86400 < wire32 .little ⟨0, 10, 84, 101⟩ / 86400) := by
  unfold State.admits; decide +kernel

/-- SET RETENTION with the trail holding 127; SET ROLES of port 0 with every role but AUDIT and ADMIN, another port
keeping ADMIN, and with no other port keeping it. -/
theorem witness_settings :
    let s := holding openFile 127
    let alone : State := { s with settings := { s.settings with
      ports := (Vector.replicate 4 { roles := ⟨true, true, true, false⟩ }).set 0 {} } }
    s.admits 0 1 ∧ (s.roles 0).admin = true ∧ s.trail.entries.length < 128
      ∧ (3 : Byte).toNat = true.toNat + 2 * true.toNat + 4 * false.toNat + 8 * false.toNat
      ∧ (∃ o : PortId, o ≠ 0 ∧ (s.roles o).admin = true)
      ∧ (alone.admits 0 1 ∧ (alone.roles 0).admin = true ∧ ∀ o : PortId, o ≠ 0 → (alone.roles o).admin = false) := by
  unfold State.admits; decide +kernel

/-- Code 8, ADMIN alone, withdraws INGEST and RETRIEVE; the streams it reaches: IDLE, ABORTING, settled, RUNNING, CLOSING
with and without a verdict; the cursor it reaches: idle, and with a fetch in progress, waiting on the store and with its
reply formed, beside a request that names no cursor and one held behind the fetch; a full trail. -/
theorem witness_withdrawal :
    let settled : Stream := { openStream with state := .posting, pending := some ⟨.timeout, .idle⟩ }
    let os (taken : Standing) : List Outstanding := [⟨6, .stepping⟩, ⟨7, taken⟩, ⟨8, .heldClose 0⟩]
    let s (roles : RoleSet) (os : List Outstanding) : State :=
      { keeping .accepted 1 .stored { firstCursor with fetch := some ⟨7, 1, []⟩ } with
        ports := (withOutstanding os).ports, settings := (withRoles roles).settings }
    ((8 : Byte).toNat = false.toNat + 2 * false.toNat + 4 * false.toNat + 8 * true.toNat)
      ∧ (({} : Stream).state = .idle ∧ { openStream with state := .aborting }.abortBegun = true
        ∧ settled.settled = true ∧ (openStream.state ≠ .idle ∧ openStream.abortBegun = false ∧ openStream.settled = false))
      ∧ (∀ v ∈ [none, some ({} : DisputeReasons)],
        { openStream with state := .closing, verdict := v }.abortBegun = false
          ∧ { openStream with state := .closing, verdict := v }.settled = false)
      ∧ (∀ taken ∈ [Standing.fetching 0, .delivering 0], ∀ table ∈ [[⟨7, taken⟩], os taken],
        (s ⟨true, true, true, true⟩ table).powered = true
          ∧ (s ⟨true, true, true, true⟩ table).cursors[(0 : CursorId)].isOpen = true
          ∧ (s ⟨true, true, true, true⟩ table).cursors[(0 : CursorId)].fetch = some ⟨7, 1, []⟩
          ∧ (s ⟨true, true, true, true⟩ table).ports[(0 : PortId)].outstanding = table ∧ ⟨7, taken⟩ ∈ table)
      ∧ (∀ taken ∈ [Standing.fetching 0, .delivering 0],
        (∀ o ∈ os taken, o.standing.cursor = some 0 → o.tag = 7 ∨ o = ⟨8, .heldClose 0⟩)
          ∧ ((s ⟨false, false, true, true⟩ (os taken)).roles 0).retrieve = false)
      ∧ 128 ≤ (holding openFile 128).trail.entries.length ∧ (holding openFile 128).admits 0 1
      ∧ (keeping .accepted 1 .stored firstCursor).cursors[(0 : CursorId)].fetch = none := by
  refine ⟨by decide, by decide +kernel, by decide +kernel, by decide +kernel, by decide +kernel,
    by decide +kernel, ?_, by decide +kernel⟩
  unfold State.admits; decide +kernel

/-- R144, R156, R160: SET ROLES without RETRIEVE answers the fetch, then the request held behind it, then itself. -/
theorem test_withdrawal_answers_held :
    let s : State :=
      { keeping .accepted 1 .stored { firstCursor with fetch := some ⟨7, 1, []⟩ } with
        ports := (withOutstanding [⟨6, .stepping⟩, ⟨7, .fetching 0⟩, ⟨8, .heldClose 0⟩]).ports }
    (after (exec (.setRoles 0 1 0 8) s)).map (fun t => (t.replies.map (fun r => (r.tag, r.status)), t.ports[0].outstanding))
      = some ([(7, .notPermitted), (8, .notPermitted), (1, .ok)], [⟨6, .stepping⟩]) := by decide +kernel

/-- R144: SET ROLES without RETRIEVE drops the records of a reply that has not been sent and answers NOT_PERMITTED. -/
theorem test_withdrawal_drops_unsent :
    (after (exec (.setRoles 0 9 0 8) (unsentFetch [⟨1, .delivering 0⟩, ⟨2, .heldClose 0⟩]))).map
        (fun t => (t.cursors[0].isOpen, t.ports[0].unsent.map (fun r => (r.tag, r.status, r.body)), t.ports[0].outstanding))
      = some (false, [(1, .notPermitted, .empty), (2, .notPermitted, .empty), (9, .ok, .empty)],
          [⟨1, .answered⟩, ⟨2, .answered⟩, ⟨9, .answered⟩]) := by decide +kernel

/-- LOAD CLASS ENTRIES of the entry 255, and LOAD FIELD MAP of START_CLOCK, DURATION and CALLED. -/
theorem witness_profile_loads :
    readClassEntries [⟨2, 1, 7, 0⟩] = some [{ kind := .recordEnd, includeInCheck := true, nextMode := 7, hold := false }]
      ∧ [(⟨2, 1, 7, 0⟩ : WireClassEntry)].length = wire16 .little ⟨1, 0⟩
      ∧ (255 : Byte).toNat + [(⟨2, 1, 7, 0⟩ : WireClassEntry)].length ≤ 256
      ∧ ([1, 2, 4] ++ List.replicate 13 (9 : Byte)).length = 16
      ∧ readTargets ([1, 2, 4] ++ List.replicate 13 9) = some billing.map.toList
      ∧ readRounding 2 = some .nearest ∧ readOverflow 1 = some .clamp ∧ mapsRequired billing.map.toList = true
      ∧ ∀ t ∈ [FieldTarget.startEpoch, .startClock, .duration, .calling, .called, .trunkIn, .trunkOut, .cause, .service],
        targetCount t billing.map.toList ≤ 1 := by decide +kernel

/-- A DOWN link; an UP link with a completion entry and work of its port; the reset input low; a first power-on; STARTING
with an INGESTING file and a FILLING segment. -/
theorem witness_links :
    (State.reset.powered = true ∧ State.reset.ports[(0 : PortId)].up = false)
      ∧ ((working .powerOn).powered = true ∧ (working .powerOn).ports[(0 : PortId)].up = true
        ∧ (working .powerOn).waiting = [] ∧ (working .powerOn).cursors[(0 : CursorId)].isOpen = true)
      ∧ (∃ t, exec (.linkReset 0) (working .powerOn) = .next t)
      ∧ (ready.admits 0 1 ∧ (ready.roles 0).admin = true ∧ ready.initialised = true ∧ State.reset.initialised = false)
      ∧ { ready with resetLow := true }.resetLow = true
      ∧ ((writing.file 0 = some openFile ∧ openFile.state = .ingesting ∧ (writing.segment 262143).state = .filling)
        ∧ State.reset.powered = true ∧ State.reset.controller = .starting ∧ State.reset.resetLow = false
        ∧ State.reset.pass = {}) := by
  refine ⟨by decide +kernel, by decide +kernel, next_of_after (by decide +kernel), ?_, by decide +kernel, by decide +kernel⟩
  unfold State.admits; decide +kernel

/-- Each owned stream that waits is in use: a CLOSING stream with abort after close set whose store-full notice waits, behind
another port's stream in POSTING; the port holds its 32 entries. -/
def noticed : State :=
  let closing : Stream :=
    { openStream with state := .closing, abortAfterClose := true, abortCause := some .request, storeFullNotice := true }
  let posting : Stream := { openStream with state := .posting, owner := some 1, pending := some ⟨.timeout, .starved⟩ }
  { (withStream closing).setStream 1 posting with
    waiting := [.post 1, .notice 0], completions := entries 32 ++ List.replicate 32 ⟨1, 1, 12, 1, .storeFull⟩ }

theorem witness_noticed :
    noticed.powered = true ∧ noticed.ports[(0 : PortId)].up = true ∧ noticed.streams[(0 : StreamId)].abortBegun = true
      ∧ ∀ i ∈ noticed.waiting, ∀ x ∈ List.finRange 12, i = .post x ∨ i = .notice x →
        noticed.streams[x].state ≠ .idle ∧ noticed.streams[x].owner.isSome = true := by decide +kernel

/-- R157, R43: a port reset clears the waiting notice of a stream whose abort has begun; no entry of the port is left or
posted, and the other port's stream keeps its place. -/
theorem test_reset_clears_notice :
    (after (exec (.linkReset 0) noticed)).map
        (fun t => ((t.completionsOf 0).length, t.waiting, t.streams[0].storeFullNotice, t.streams[0].abortCause,
          t.streams[0].state))
      = some (0, [.post 1], false, some .portReset, .closing) := by decide +kernel

/-- A port reset leaves an OPEN FILE and an OPEN CURSOR outstanding in the catalogue, their replies lost; then the entry is
made and its stream is ABORTING, and of the cursor nothing is left. -/
theorem test_reset_cut :
    let s (request : OpeningRequest) : State := catalogued (keeping .accepted 0 .stored {}) true [⟨0, some 7, request⟩]
    let file : OpeningRequest := .file { openRequest with switchId := 13 }
    let answered (request : OpeningRequest) := (after (exec (.linkReset 0) (s request))).bind (fun t => after (step t))
    (after (exec (.linkReset 0) (s file))).map (fun t => (t.openings, t.ports[0].outstanding))
        = some ([⟨0, none, file⟩], [])
      ∧ (answered file).map (fun t => ((t.findFile 13 400).isSome, t.streams[0].state, t.staging, t.replies))
        = some (true, .aborting, [.abort 0], [])
      ∧ (answered (.cursor cursorRequest)).map (fun t => (t.openings, t.cursors[0].isOpen, t.file 0, t.replies))
        = some ([], false, some (keptFile .accepted 0), []) := by decide +kernel

/-- Such an OPEN FILE of a new pair and of a held one; such an OPEN CURSOR of a file in each state and of none. -/
theorem witness_reset_cut :
    let s (state : FileState) (request : OpeningRequest) : State :=
      catalogued (keeping state 0 .stored {}) true [⟨0, none, request⟩]
    (∀ state ∈ [FileState.accepted, .disputed, .ingesting, .expiring],
      ∀ request ∈ [OpeningRequest.file openRequest, .cursor cursorRequest],
      (s state request).pending = [] ∧ (s state request).powered = true
        ∧ (∀ q : PortId, (s state request).ports[q].unsent = [])
        ∧ (s state request).openings = ⟨0, none, request⟩ :: []
        ∧ (s state request).findFile 12 400 = some (0, keptFile state 0)
        ∧ (s state request).file 0 = some (keptFile state 0)
        ∧ (s state request).findFile 13 400 = none ∧ (s state request).heldFiles.length < 131072
        ∧ (s state request).cursors[(0 : CursorId)] = {} ∧ (s state request).storePort.reads = []
        ∧ (s state request).storePort.current = none) := by decide +kernel

/-- FILE INFO of the held pair, LIST FILES over every switch, day and state from index 131,071, SEGMENT INFO of a FREE and
of a STORED segment, PART STATUS in STARTING. -/
theorem witness_information :
    let s := keeping .accepted 0 .stored {}
    s.admits 0 1 ∧ s.roles 0 ≠ ⟨false, false, false, false⟩
      ∧ s.findFile (wire16 (s.byteOrder 0) ⟨12, 0⟩) (wire16 (s.byteOrder 0) ⟨144, 1⟩) = some (0, keptFile .accepted 0)
      ∧ readSelector (wire16 (s.byteOrder 0) ⟨255, 255⟩) = some none
      ∧ readStates 15 = some [.ingesting, .accepted, .disputed, .expiring]
      ∧ wire16 (s.byteOrder 0) ⟨0, 0⟩ ≤ wire16 (s.byteOrder 0) ⟨45, 194⟩ ∧ wire16 (s.byteOrder 0) ⟨45, 194⟩ ≤ 49709
      ∧ wire32 (s.byteOrder 0) ⟨255, 255, 1, 0⟩ ≤ 131071 ∧ wire32 (s.byteOrder 0) ⟨255, 255, 3, 0⟩ ≤ 262143
      ∧ (s.segment 0).state = .free ∧ (s.segment 262143).state ≠ .free
      ∧ s.file (s.segment 262143).fileIndex = some (keptFile .accepted 0)
      ∧ ({ s with controller := .starting }.hears 0 = true
        ∧ { s with controller := .starting }.ports[(0 : PortId)].outstanding = []) := by
  unfold State.admits; decide +kernel

/-- The refusals of the informational requests: switch 1,024, a pair no entry holds, day 49,710, first day 1 above last day 0,
states 0 and 16, index 131,072, segment 262,144. -/
theorem witness_information_refused :
    (ready.admits 0 1 ∧ ready.roles 0 ≠ ⟨false, false, false, false⟩ ∧ (ready.roles 0).audit = true)
      ∧ 1023 < wire16 (ready.byteOrder 0) ⟨0, 4⟩ ∧ wire16 (ready.byteOrder 0) ⟨0, 4⟩ ≠ 65535
      ∧ (wire16 (ready.byteOrder 0) ⟨255, 3⟩ ≤ 1023
        ∧ ready.findFile (wire16 (ready.byteOrder 0) ⟨255, 3⟩) (wire16 (ready.byteOrder 0) ⟨0, 0⟩) = none)
      ∧ 49709 < wire16 (ready.byteOrder 0) ⟨46, 194⟩
      ∧ wire16 (ready.byteOrder 0) ⟨0, 0⟩ < wire16 (ready.byteOrder 0) ⟨1, 0⟩ ∧ 15 < (16 : Byte).toNat
      ∧ 131071 < wire32 (ready.byteOrder 0) ⟨0, 0, 2, 0⟩ ∧ 262143 < wire32 (ready.byteOrder 0) ⟨0, 0, 4, 0⟩ := by
  unfold State.admits; decide +kernel

theorem witness_attention : State.reset.powered = true := rfl

end Sys2Proof.Tests
end

section
/-! PROOFS. Laws of the sparse tables and of the File Table that the invariants need. -/

namespace Sys2Proof.Machine

/-! ## Sparse tables: entries and reads -/

section
variable {α : Type} {d : α} {m : Sparse α}

theorem Sparse.mem_of_get_ne {k : Nat} (h : Sparse.get d k m ≠ d) : (k, Sparse.get d k m) ∈ m := by
  induction m with
  | nil => exact absurd rfl h
  | cons e rest ih =>
    obtain ⟨j, w⟩ := e
    simp only [Sparse.get] at h ⊢
    split
    · next hj => exact hj ▸ List.mem_cons_self ..
    · next hj =>
      rw [if_neg hj] at h
      exact List.mem_cons_of_mem _ (ih h)

theorem Sparse.get_of_mem {k : Nat} {v : α} (hr : (m.map Prod.fst).Pairwise (· < ·)) (h : (k, v) ∈ m) :
    Sparse.get d k m = v := by
  induction m with
  | nil => cases h
  | cons e rest ih =>
    obtain ⟨j, w⟩ := e
    simp only [List.map_cons, List.pairwise_cons] at hr
    rcases List.mem_cons.mp h with h | h
    · cases h
      simp [Sparse.get]
    · have hj : j < k := hr.1 k (List.mem_map.mpr ⟨(k, v), h, rfl⟩)
      simp only [Sparse.get, if_neg (Nat.ne_of_lt hj)]
      exact ih hr.2 h

variable [DecidableEq α]

theorem Sparse.wf_iff :
    Sparse.wf d m = true ↔ (m.map Prod.fst).Pairwise (· < ·) ∧ ∀ e ∈ m, e.2 ≠ d := by
  simp [Sparse.wf]

/-- In canonical form the entries listed are the reads that differ from the unlisted value. -/
theorem Sparse.mem_iff (h : Sparse.wf d m = true) (k : Nat) (v : α) :
    (k, v) ∈ m ↔ Sparse.get d k m = v ∧ v ≠ d := by
  obtain ⟨hr, hd⟩ := Sparse.wf_iff.mp h
  constructor
  · exact fun hm => ⟨Sparse.get_of_mem hr hm, hd _ hm⟩
  · rintro ⟨rfl, hv⟩
    exact Sparse.mem_of_get_ne hv

/-- Rewriting every entry in place keeps the canonical form. -/
theorem Sparse.wf_map {f : Nat × α → Nat × α} (h : Sparse.wf d m = true) (hk : ∀ e, (f e).1 = e.1)
    (hv : ∀ e, e.2 ≠ d → (f e).2 ≠ d) : Sparse.wf d (m.map f) = true := by
  obtain ⟨hr, hd⟩ := Sparse.wf_iff.mp h
  refine Sparse.wf_iff.mpr ⟨?_, ?_⟩
  · have : (m.map f).map Prod.fst = m.map Prod.fst := by simp [hk]
    rwa [this]
  · intro e he
    obtain ⟨e', he', rfl⟩ := List.mem_map.mp he
    exact hv e' (hd e' he')

end

/-! ## The File Table -/

/-- The canonical form, table by table. -/
theorem State.canonical_iff (s : State) :
    s.canonical = true ↔ storeWf s.store = true ∧ Sparse.wf none s.files = true ∧ Sparse.wf {} s.segments = true
      ∧ Sparse.wf {} s.switches = true ∧ ∀ i : Fin 4, Sparse.wf {} s.settings.profiles[i].classes = true := by
  simp only [State.canonical, Bool.and_eq_true, List.all_eq_true, List.mem_finRange, true_implies, and_assoc]

theorem State.mem_heldFiles {s : State} (h : Sparse.wf none s.files = true) (i : Nat) (f : File) :
    (i, f) ∈ s.heldFiles ↔ s.file i = some f := by
  simp only [State.heldFiles, List.mem_filterMap, Option.map_eq_some_iff, Prod.mk.injEq, State.file]
  constructor
  · rintro ⟨⟨j, o⟩, hm, g, hg, rfl, rfl⟩
    exact ((Sparse.mem_iff h j o).mp hm).1.trans hg
  · intro hf
    exact ⟨(i, some f), (Sparse.mem_iff h i _).mpr ⟨hf, by simp⟩, f, rfl, rfl, rfl⟩

/-- Every held entry is listed, canonical form or not. -/
theorem State.mem_heldFiles_of_file {s : State} {i : Nat} {f : File} (h : s.file i = some f) :
    (i, f) ∈ s.heldFiles := by
  have hm := Sparse.mem_of_get_ne (d := none) (m := s.files) (k := i) (by rw [← State.file, h]; simp)
  rw [← State.file, h] at hm
  exact List.mem_filterMap.mpr ⟨_, hm, rfl⟩

/-- The keys of the held entries are those of the table. -/
theorem State.heldFiles_keys {s : State} (h : Sparse.wf none s.files = true) :
    s.heldFiles.map Prod.fst = s.files.map Prod.fst := by
  obtain ⟨-, hd⟩ := Sparse.wf_iff.mp h
  have key : ∀ m : Sparse (Option File), (∀ e ∈ m, e.2 ≠ none) →
      (m.filterMap (fun e => e.2.map (fun f => (e.1, f)))).map Prod.fst = m.map Prod.fst := by
    intro m hm
    induction m with
    | nil => rfl
    | cons e rest ih =>
      obtain ⟨f, hf⟩ := Option.ne_none_iff_exists'.mp (hm e (List.mem_cons_self ..))
      simp [hf, ih (fun e he => hm e (List.mem_cons_of_mem _ he))]
  exact key s.files hd

theorem State.heldFiles_rising {s : State} (h : Sparse.wf none s.files = true) :
    (s.heldFiles.map Prod.fst).Pairwise (· < ·) := by
  rw [State.heldFiles_keys h]
  exact (Sparse.wf_iff.mp h).1

/-- On a canonical File Table: a switch id and sequence is held at one index only. -/
theorem State.pairsDistinct_iff {s : State} (h : Sparse.wf none s.files = true) :
    s.pairsDistinct ↔ ∀ i j f g, s.file i = some f → s.file j = some g →
      f.switchId = g.switchId → f.sequence = g.sequence → i = j := by
  have hn : s.heldFiles.Nodup :=
    List.Nodup.of_map Prod.fst ((State.heldFiles_rising h).imp Nat.ne_of_lt)
  unfold State.pairsDistinct
  rw [List.nodup_map_iff_inj_on hn]
  constructor
  · intro hi i j f g hf hg hw hq
    have := hi _ ((State.mem_heldFiles h i f).mpr hf) _ ((State.mem_heldFiles h j g).mpr hg)
      (by simp [hw, hq])
    exact congrArg Prod.fst this
  · rintro hi ⟨i, f⟩ hf ⟨j, g⟩ hg he
    obtain ⟨hw, hq⟩ := Prod.mk.inj he
    have hf := (State.mem_heldFiles h i f).mp hf
    have hg := (State.mem_heldFiles h j g).mp hg
    obtain rfl := hi i j f g hf hg hw hq
    rw [hf] at hg
    cases hg
    rfl

theorem firstGap_notMem {n : Nat} {ks : List Nat} (hr : ks.Pairwise (· < ·)) (hn : ∀ k ∈ ks, n ≤ k) :
    firstGap n ks ∉ ks ∧ n ≤ firstGap n ks := by
  induction ks generalizing n with
  | nil => simp [firstGap]
  | cons k rest ih =>
    obtain ⟨hk, hr⟩ := List.pairwise_cons.mp hr
    have hnk := hn k (List.mem_cons_self ..)
    simp only [firstGap]
    split
    · next he =>
      obtain ⟨h1, h2⟩ := ih (n := n + 1) hr (fun j hj => he ▸ hk j hj)
      refine ⟨?_, by omega⟩
      simp only [List.mem_cons, not_or]
      exact ⟨by omega, h1⟩
    · next he =>
      simp only [List.mem_cons, not_or, le_refl, and_true]
      exact ⟨fun h => he h.symm, fun h => by have := hk n h; omega⟩

/-- The lowest free index is free (R2). -/
theorem State.file_lowestFreeFile {s : State} (h : Sparse.wf none s.files = true) : s.file s.lowestFreeFile = none := by
  by_contra hne
  obtain ⟨f, hf⟩ := Option.ne_none_iff_exists'.mp hne
  have := (firstGap_notMem (n := 0) (State.heldFiles_rising h) (fun _ _ => Nat.zero_le _)).1
  exact this (List.mem_map.mpr ⟨_, (State.mem_heldFiles h _ f).mpr hf, rfl⟩)

theorem State.findFile_some {s : State} (h : Sparse.wf none s.files = true) {w q i : Nat} {f : File}
    (hf : s.findFile w q = some (i, f)) : s.file i = some f ∧ f.switchId = w ∧ f.sequence = q := by
  have hp := List.find?_some hf
  simp only [decide_eq_true_eq] at hp
  exact ⟨(State.mem_heldFiles h i f).mp (List.mem_of_find?_eq_some hf), hp⟩

theorem State.findFile_none {s : State} {w q : Nat} (h : s.findFile w q = none) {i : Nat} {f : File}
    (hf : s.file i = some f) : ¬(f.switchId = w ∧ f.sequence = q) := by
  have := List.find?_eq_none.mp h _ (State.mem_heldFiles_of_file hf)
  simpa using this

theorem State.file_setFile (s : State) (i j : Nat) (f : File) :
    (s.setFile i f).file j = if j = i then some f else s.file j :=
  Sparse.get_set none i j (some f) s.files

theorem State.file_dropFile (s : State) (i j : Nat) :
    (s.dropFile i).file j = if j = i then none else s.file j :=
  Sparse.get_set none i j none s.files

/-! ## Pins -/

/-- The OPEN cursors on a file. -/
def State.cursorSet (s : State) (i : Nat) : Finset CursorId :=
  Finset.univ.filter (fun c => s.cursors[c].isOpen = true ∧ s.cursors[c].fileIndex = some i)

theorem State.mem_cursorSet {s : State} {i : Nat} {c : CursorId} :
    c ∈ s.cursorSet i ↔ s.cursors[c].isOpen = true ∧ s.cursors[c].fileIndex = some i := by
  simp [State.cursorSet]

theorem toList_eq_map_finRange {β : Type} {n : Nat} (v : Vector β n) :
    v.toList = (List.finRange n).map (fun c => v[c]) := by
  apply List.ext_getElem <;> simp

theorem State.cursorsOn_eq_card (s : State) (i : Nat) : s.cursorsOn i = (s.cursorSet i).card := by
  have hn : ((List.finRange 16).filter
      (fun c => decide (s.cursors[c].isOpen = true ∧ s.cursors[c].fileIndex = some i))).Nodup :=
    (List.nodup_finRange 16).filter _
  have hs : s.cursorSet i = ((List.finRange 16).filter
      (fun c => decide (s.cursors[c].isOpen = true ∧ s.cursors[c].fileIndex = some i))).toFinset := by
    ext c
    simp [State.mem_cursorSet]
  rw [hs, List.toFinset_card_of_nodup hn, State.cursorsOn, toList_eq_map_finRange, List.filter_map, List.length_map]
  congr 2
  funext c
  simp [Function.comp]

end Sys2Proof.Machine
end

section
/-! PROOFS. What operations keep: the canonical form, the distinct pairs, the agreement of pins and fetches; and the quiet operations, which leave cursors and requests alone. -/

namespace Sys2Proof.Machine

/-! ## What operations keep -/

/-- Pins, cursors, outstanding requests and fetches agree. -/
def State.agree (s : State) : Prop := s.pinsAgree ∧ s.fetchesAgree

/-- From `s` to `t` the canonical form is kept, and with it the files' pairs stay distinct. -/
structure Formed (s t : State) : Prop where
  canonical : s.canonical = true → t.canonical = true
  pairs : s.canonical = true → s.pairsDistinct → t.pairsDistinct

/-- From `s` to `t` the agreement of pins and fetches is kept besides. -/
structure Handled (s t : State) : Prop extends Formed s t where
  agree : s.canonical = true → s.agree → t.agree

/-- A cursor differs at most where pins and fetches do not look. -/
structure Cursor.Alike (u v : Cursor) : Prop where
  isOpen : v.isOpen = u.isOpen
  owner : v.owner = u.owner
  fileIndex : v.fileIndex = u.fileIndex
  tag : v.fetch.map Fetch.tag = u.fetch.map Fetch.tag
  idle : u.idle = .stopped → v.idle = .stopped
  free : u = {} → v = {}

/-- What operations away from cursors and ports do: the invariants are kept, every cursor stays as it is but for its
place, its read and its countdown, and the outstanding requests stay. -/
structure Quiet (s t : State) : Prop extends Handled s t where
  cursors : ∀ c : CursorId, s.cursors[c].Alike t.cursors[c]
  requests : ∀ p : PortId, t.ports[p].outstanding = s.ports[p].outstanding

theorem Formed.refl (s : State) : Formed s s := ⟨id, fun _ => id⟩

theorem Formed.trans {s t u : State} (h : Formed s t) (k : Formed t u) : Formed s u where
  canonical hc := k.canonical (h.canonical hc)
  pairs hc hp := k.pairs (h.canonical hc) (h.pairs hc hp)

theorem Handled.refl (s : State) : Handled s s := ⟨.refl s, fun _ => id⟩

theorem Handled.trans {s t u : State} (h : Handled s t) (k : Handled t u) : Handled s u where
  toFormed := h.toFormed.trans k.toFormed
  agree hc ha := k.agree (h.canonical hc) (h.agree hc ha)

theorem Cursor.Alike.refl (u : Cursor) : u.Alike u := ⟨rfl, rfl, rfl, rfl, id, id⟩

theorem Cursor.Alike.trans {u v w : Cursor} (h : u.Alike v) (k : v.Alike w) : u.Alike w where
  isOpen := k.isOpen.trans h.isOpen
  owner := k.owner.trans h.owner
  fileIndex := k.fileIndex.trans h.fileIndex
  tag := k.tag.trans h.tag
  idle hi := k.idle (h.idle hi)
  free hf := k.free (h.free hf)

theorem Quiet.refl (s : State) : Quiet s s := ⟨.refl s, fun _ => .refl _, fun _ => rfl⟩

theorem Quiet.trans {s t u : State} (h : Quiet s t) (k : Quiet t u) : Quiet s u where
  toHandled := h.toHandled.trans k.toHandled
  cursors c := (h.cursors c).trans (k.cursors c)
  requests p := (k.requests p).trans (h.requests p)

/-! ## Agreement under operations away from cursors -/

theorem State.cursorSet_congr {s t : State} (h : ∀ c : CursorId, s.cursors[c].Alike t.cursors[c]) (i : Nat) :
    t.cursorSet i = s.cursorSet i := by
  ext c
  rw [State.mem_cursorSet, State.mem_cursorSet, (h c).isOpen, (h c).fileIndex]

/-- How the entry under one file index may change away from the cursors: its pin count stays and it does not return to
INGESTING; or a file without pins, or one that is INGESTING, comes or goes. -/
inductive FileKept : Option File → Option File → Prop
  | same (o : Option File) : FileKept o o
  | rewrite {f g : File} (pins : g.pinCount = f.pinCount) (kept : g.state = .ingesting → f.state = .ingesting) :
      FileKept (some f) (some g)
  | create {g : File} (pins : g.pinCount = 0) : FileKept none (some g)
  | drop {f : File} (unpinned : f.state = .ingesting ∨ f.pinCount = 0) : FileKept (some f) none

/-- Pins that agree: the OPEN cursors on an index are counted by its entry, and an INGESTING file has none. -/
theorem State.pinsAgree.card {s : State} (h : s.pinsAgree) (i : Nat) :
    (s.cursorSet i).card = match s.file i with | some f => f.pinCount | none => 0 := by
  rw [← State.cursorsOn_eq_card]
  exact h.1 i

theorem State.pinsAgree.of_open {s : State} (h : s.pinsAgree) {c : CursorId} (ho : s.cursors[c].isOpen = true) :
    s.cursors[c].owner.isSome = true
      ∧ ∃ i f, s.cursors[c].fileIndex = some i ∧ s.file i = some f ∧ f.state ≠ .ingesting := by
  have := h.2 c
  rwa [if_pos ho] at this

theorem State.pinsAgree.free {s : State} (h : s.pinsAgree) {c : CursorId} (ho : s.cursors[c].isOpen ≠ true) :
    s.cursors[c] = {} := by
  have := h.2 c
  rwa [if_neg ho] at this

theorem State.pinsAgree.cursorSet_ingesting {s : State} (h : s.pinsAgree) {i : Nat} {f : File}
    (hf : s.file i = some f) (hi : f.state = .ingesting) : s.cursorSet i = ∅ := by
  refine Finset.eq_empty_of_forall_notMem fun c hc => ?_
  obtain ⟨ho, hx⟩ := State.mem_cursorSet.mp hc
  obtain ⟨-, j, g, hj, hg, hn⟩ := h.of_open ho
  obtain rfl : i = j := Option.some.inj (hx.symm.trans hj)
  exact hn (by rw [← Option.some.inj (hf.symm.trans hg)]; exact hi)

/-- Conversely: the count and the two forms of a cursor are all that agreement asks. -/
theorem State.pinsAgree_of {s : State}
    (hcard : ∀ i, (s.cursorSet i).card = match s.file i with | some f => f.pinCount | none => 0)
    (hopen : ∀ c : CursorId, s.cursors[c].isOpen = true → s.cursors[c].owner.isSome = true
      ∧ ∃ i f, s.cursors[c].fileIndex = some i ∧ s.file i = some f ∧ f.state ≠ .ingesting)
    (hfree : ∀ c : CursorId, s.cursors[c].isOpen ≠ true → s.cursors[c] = {}) : s.pinsAgree := by
  refine ⟨fun i => by rw [State.cursorsOn_eq_card]; exact hcard i, fun c => ?_⟩
  split
  · next h => exact hopen c h
  · next h => exact hfree c h

theorem State.pinsAgree_of_kept {s t : State} (hc : ∀ c : CursorId, s.cursors[c].Alike t.cursors[c])
    (hf : ∀ i, FileKept (s.file i) (t.file i)) (h : s.pinsAgree) : t.pinsAgree := by
  refine State.pinsAgree_of (fun i => ?_) (fun c ho => ?_) (fun c ho => ?_)
  · have hi := h.card i
    rw [State.cursorSet_congr hc]
    generalize ho : s.file i = o at hi
    generalize ho' : t.file i = o'
    have hk := hf i
    rw [ho, ho'] at hk
    cases hk with
    | same => exact hi
    | rewrite pins kept => simpa [pins] using hi
    | create pins => simpa [pins] using hi
    | drop unpinned =>
      rcases unpinned with hu | hu
      · rw [h.cursorSet_ingesting ho hu]
        rfl
      · simpa [hu] using hi
  · rw [(hc c).isOpen] at ho
    obtain ⟨hp, i, f, hi, hfi, hn⟩ := h.of_open ho
    rw [(hc c).owner, (hc c).fileIndex]
    refine ⟨hp, ?_⟩
    have hpos : 0 < (s.cursorSet i).card := Finset.card_pos.mpr ⟨c, State.mem_cursorSet.mpr ⟨ho, hi⟩⟩
    have hcard := h.card i
    rw [hfi] at hcard
    have hk := hf i
    rw [hfi] at hk
    generalize ho' : t.file i = o' at hk
    cases hk with
    | same => exact ⟨i, f, hi, ho', hn⟩
    | rewrite pins kept => exact ⟨i, _, hi, ho', fun h => hn (kept h)⟩
    | drop unpinned =>
      rcases unpinned with hu | hu
      · exact absurd hu hn
      · simp only at hcard
        omega
  · rw [(hc c).isOpen] at ho
    exact (hc c).free (h.free ho)

theorem Cursor.Alike.fetch_some {u v : Cursor} (h : u.Alike v) {q : Fetch} (hq : u.fetch = some q) :
    ∃ r, v.fetch = some r ∧ r.tag = q.tag := by
  have ht := h.tag
  rw [hq] at ht
  simpa using ht

theorem Cursor.Alike.fetch_isSome {u v : Cursor} (h : u.Alike v) : v.fetch.isSome = u.fetch.isSome := by
  have ht := congrArg Option.isSome h.tag
  simpa using ht

theorem State.fetchesAgree_of_alike {s t : State} (hc : ∀ c : CursorId, s.cursors[c].Alike t.cursors[c])
    (hr : ∀ p : PortId, t.ports[p].outstanding = s.ports[p].outstanding) (h : s.fetchesAgree) : t.fetchesAgree := by
  refine ⟨fun p => ?_, fun c hi => ?_⟩
  · rw [hr p]
    refine ⟨(h.1 p).1, fun o ho c hs => ?_⟩
    obtain ⟨h1, h2, q, h3, h4⟩ := (h.1 p).2 o ho c hs
    obtain ⟨r, h5, h6⟩ := (hc c).fetch_some h3
    exact ⟨(hc c).isOpen.trans h1, (hc c).owner.trans h2, r, h5, h6.trans h4⟩
  · rw [(hc c).fetch_isSome] at hi
    exact (hc c).idle (h.2 c hi)

theorem State.agree_of_kept {s t : State} (hc : ∀ c : CursorId, s.cursors[c].Alike t.cursors[c])
    (hr : ∀ p : PortId, t.ports[p].outstanding = s.ports[p].outstanding) (hf : ∀ i, FileKept (s.file i) (t.file i))
    (h : s.agree) : t.agree :=
  ⟨State.pinsAgree_of_kept hc hf h.1, State.fetchesAgree_of_alike hc hr h.2⟩

/-! ## The elementary quiet operations -/

/-- The tables of which the canonical form speaks. -/
def State.tables (s : State) :=
  (s.files, s.segments, s.switches, s.store, s.settings.profiles)

/-- All that the invariants look at: the tables, the cursors and the outstanding requests. -/
def State.watched (s : State) :=
  (s.tables, s.cursors, fun p : PortId => s.ports[p].outstanding)

theorem State.tables_eq_iff {s t : State} : t.tables = s.tables ↔ t.files = s.files ∧ t.segments = s.segments
    ∧ t.switches = s.switches ∧ t.store = s.store ∧ t.settings.profiles = s.settings.profiles := by
  simp only [State.tables, Prod.mk.injEq]

theorem State.watched_eq_iff {s t : State} : t.watched = s.watched ↔ t.tables = s.tables ∧ t.cursors = s.cursors
    ∧ ∀ p : PortId, t.ports[p].outstanding = s.ports[p].outstanding := by
  simp only [State.watched, Prod.mk.injEq, funext_iff]

/-- Where no table changes, no form does. -/
theorem Formed.same {s t : State} (h : t.tables = s.tables) : Formed s t := by
  obtain ⟨files, segments, switches, store, profiles⟩ := State.tables_eq_iff.mp h
  refine ⟨fun h => ?_, fun _ h => ?_⟩
  · rw [State.canonical_iff] at h ⊢
    rwa [files, segments, switches, store, profiles]
  · unfold State.pairsDistinct State.heldFiles at h ⊢
    rwa [files]

/-- An operation that touches none of the tables, no cursor and no outstanding request. -/
theorem Quiet.same {s t : State} (h : t.watched = s.watched) : Quiet s t := by
  obtain ⟨tables, cursors, requests⟩ := State.watched_eq_iff.mp h
  have hc : ∀ c : CursorId, s.cursors[c].Alike t.cursors[c] := fun c => by rw [cursors]; exact .refl _
  have hf : ∀ i, FileKept (s.file i) (t.file i) := fun i => by
    unfold State.file
    rw [(State.tables_eq_iff.mp tables).1]
    exact .same _
  exact { Formed.same tables with
    agree := fun _ h => State.agree_of_kept hc requests hf h
    cursors := hc
    requests := requests }

/-- Tables other than the File Table may change to any canonical form. -/
theorem Quiet.tables {s t : State} (files : t.files = s.files) (cursors : t.cursors = s.cursors)
    (ports : t.ports = s.ports)
    (store : storeWf s.store = true → storeWf t.store = true)
    (segments : Sparse.wf {} s.segments = true → Sparse.wf {} t.segments = true)
    (switches : Sparse.wf {} s.switches = true → Sparse.wf {} t.switches = true)
    (profiles : (∀ i : Fin 4, Sparse.wf {} s.settings.profiles[i].classes = true) →
      ∀ i : Fin 4, Sparse.wf {} t.settings.profiles[i].classes = true) : Quiet s t where
  canonical h := by
    obtain ⟨h1, h2, h3, h4, h5⟩ := s.canonical_iff.mp h
    exact t.canonical_iff.mpr ⟨store h1, by rwa [files], segments h3, switches h4, profiles h5⟩
  pairs _ h := by unfold State.pairsDistinct State.heldFiles at h ⊢; rwa [files]
  agree _ h := by
    refine State.agree_of_kept (fun c => ?_) (fun p => by rw [ports]) (fun i => ?_) h
    · rw [cursors]; exact .refl _
    · unfold State.file; rw [files]; exact .same _
  cursors c := by rw [cursors]; exact .refl _
  requests p := by rw [ports]

/-- One cursor changes where pins and fetches do not look. -/
theorem State.setCursor_quiet (s : State) (c : CursorId) (v : Cursor) (h : s.cursors[c].Alike v) :
    Quiet s (s.setCursor c v) := by
  have hc : ∀ c' : CursorId, s.cursors[c'].Alike (s.setCursor c v).cursors[c'] := by
    intro c'
    by_cases he : c = c'
    · subst he
      simpa using h
    · simpa [getElem_set_fin_ne _ _ _ _ he] using Cursor.Alike.refl _
  exact
    { canonical := fun h => h
      pairs := fun _ h => h
      agree := fun _ h => State.agree_of_kept hc (fun _ => rfl) (fun _ => .same _) h
      cursors := hc
      requests := fun _ => rfl }

theorem State.setSegment_quiet (s : State) (n : Nat) (e : Segment) : Quiet s (s.setSegment n e) :=
  .tables rfl rfl rfl id (Sparse.wf_set _ _ _ _) id id

theorem State.setSwitch_quiet (s : State) (w : Nat) (e : SwitchEntry) : Quiet s (s.setSwitch w e) :=
  .tables rfl rfl rfl id id (Sparse.wf_set _ _ _ _) id

/-- A change of one File Table entry keeps the pairs distinct when no other entry holds the new pair. -/
theorem Formed.file {s : State} {i : Nat} {o : Option File}
    (pair : s.canonical = true → s.pairsDistinct → ∀ g, o = some g →
      ∀ j f, s.file j = some f → f.switchId = g.switchId → f.sequence = g.sequence → j = i) :
    Formed s { s with files := Sparse.set none i o s.files } := by
  have hfile : ∀ j, State.file { s with files := Sparse.set none i o s.files } j = if j = i then o else s.file j :=
    fun j => Sparse.get_set none i j o s.files
  have hwf := fun h => Sparse.wf_set none i o s.files h
  refine { canonical := fun h => ?_, pairs := fun hc hp => ?_ }
  · rw [State.canonical_iff] at h ⊢
    exact ⟨h.1, hwf h.2.1, h.2.2⟩
  · have hw := (s.canonical_iff.mp hc).2.1
    have pair := pair hc hp
    rw [State.pairsDistinct_iff hw] at hp
    rw [State.pairsDistinct_iff (hwf hw)]
    intro j k f g hf hg h1 h2
    rw [hfile] at hf hg
    split at hf <;> split at hg
    · subst_vars; rfl
    · next hj hk => rw [hj, pair f hf k g hg h1.symm h2.symm]
    · next hj hk => rw [hk, pair g hg j f hf h1 h2]
    · exact hp j k f g hf hg h1 h2

/-- A held entry is rewritten and its pair stays. -/
theorem Formed.setFile {s : State} {i : Nat} {f g : File} (hf : s.file i = some f)
    (pair : (g.switchId, g.sequence) = (f.switchId, f.sequence)) : Formed s (s.setFile i g) :=
  Formed.file (by
    rintro hc hp _ ⟨⟩ j f' hf' hw hq
    obtain ⟨switchId, sequence⟩ := Prod.mk.inj pair
    exact (State.pairsDistinct_iff (s.canonical_iff.mp hc).2.1).mp hp j i f' f hf' hf (hw.trans switchId)
      (hq.trans sequence))

/-- The entry under one file index changes as an operation away from cursors may change it. -/
theorem Quiet.file {s : State} {i : Nat} {o : Option File} (kept : FileKept (s.file i) o)
    (formed : Formed s { s with files := Sparse.set none i o s.files }) :
    Quiet s { s with files := Sparse.set none i o s.files } := by
  refine { toFormed := formed, agree := fun _ h => ?_, cursors := fun _ => .refl _, requests := fun _ => rfl }
  refine State.agree_of_kept (s := s) (fun _ => .refl _) (fun _ => rfl) (fun j => ?_) h
  rw [show State.file { s with files := Sparse.set none i o s.files } j = if j = i then o else s.file j from
    Sparse.get_set none i j o s.files]
  split
  · next hj => rw [hj]; exact kept
  · exact .same _

/-- A held entry is rewritten: its pair and its pin count stay, and it does not return to INGESTING. -/
theorem State.setFile_quiet {s : State} {i : Nat} {f g : File} (hf : s.file i = some f)
    (pair : (g.switchId, g.sequence) = (f.switchId, f.sequence)) (pins : g.pinCount = f.pinCount)
    (kept : g.state = .ingesting → f.state = .ingesting) : Quiet s (s.setFile i g) :=
  Quiet.file (by rw [hf]; exact .rewrite pins kept) (Formed.setFile hf pair)

theorem State.dropFile_quiet {s : State} {i : Nat} {f : File} (hf : s.file i = some f)
    (unpinned : f.state = .ingesting ∨ f.pinCount = 0) : Quiet s (s.dropFile i) :=
  Quiet.file (by rw [hf]; exact .drop unpinned) (Formed.file (by rintro - - _ ⟨⟩))

end Sys2Proof.Machine
end

section
/-! PROOFS. Every operation away from cursors and ports is quiet: one lemma for each. -/

namespace Sys2Proof.Machine

/-! ## Quiet operations: the catalogue -/

theorem Quiet.foldl {α : Type} {f : State → α → State} (h : ∀ s a, Quiet s (f s a)) (l : List α) (s : State) :
    Quiet s (l.foldl f s) := by
  induction l generalizing s with
  | nil => exact .refl s
  | cons a l ih => exact (h s a).trans (ih _)

/-- An internal request that changes nothing when it is answered STALE. -/
theorem Quiet.getD {s : State} {o : Option State} (h : ∀ t, o = some t → Quiet s t) : Quiet s (o.getD s) := by
  cases o with
  | none => exact .refl s
  | some t => exact h t rfl

theorem State.newEntryAnswer_done {s : State} {w q i : Nat} (h : s.newEntryAnswer w q = .done i) :
    s.findFile w q = none ∧ i = s.lowestFreeFile := by
  unfold State.newEntryAnswer at h
  split at h
  · cases h
  · next hn =>
    split at h
    · cases h
    · cases h
      exact ⟨by simpa using hn, rfl⟩

theorem State.createFile_quiet {s : State} {w q i : Nat} {f : File} (hc : s.canonical = true)
    (h : s.newEntryAnswer w q = .done i) (hw : f.switchId = w) (hq : f.sequence = q) (hp : f.pinCount = 0) :
    Quiet s (s.createFile i f) := by
  obtain ⟨hn, rfl⟩ := State.newEntryAnswer_done h
  refine (Quiet.file ?_ (Formed.file ?_)).trans (State.setSwitch_quiet _ _ _)
  · rw [State.file_lowestFreeFile (s.canonical_iff.mp hc).2.1]
    exact .create hp
  · rintro - - _ ⟨⟩ j g hg h1 h2
    exact absurd ⟨h1.trans hw, h2.trans hq⟩ (State.findFile_none hn hg)

theorem State.acceptFile_quiet {s t : State} {i n r d : Nat} {reasons : DisputeReasons} {tr : Option Trailer} {k : Nat}
    (h : s.acceptFile i n r d reasons tr k = some t) : Quiet s t := by
  unfold State.acceptFile at h
  split at h
  · next f hf =>
    split at h
    · next hi =>
      cases h
      exact (State.setFile_quiet hf (by rfl) (by rfl) fun _ => hi).trans (State.setSwitch_quiet _ _ _)
    · cases h
  · cases h

theorem State.freeSegment_quiet (s : State) (n : Nat) : Quiet s (s.freeSegment n) :=
  (s.setSegment_quiet n _).trans (.same (by rfl))

theorem State.freeSegments_quiet (s : State) (ns : List Nat) : Quiet s (s.freeSegments ns) :=
  Quiet.foldl State.freeSegment_quiet ns s

@[simp] theorem State.freeSegments_files (s : State) (ns : List Nat) : (s.freeSegments ns).files = s.files := by
  induction ns generalizing s with
  | nil => rfl
  | cons n ns ih => exact (ih (s.freeSegment n)).trans rfl

theorem State.releaseFile_quiet {s : State} {i : Nat} {f : File} (hf : s.file i = some f)
    (unpinned : f.state = .ingesting ∨ f.pinCount = 0) : Quiet s (s.releaseFile i f) := by
  have hf' : (s.freeSegments (s.chain f)).file i = some f := by
    rwa [State.file, State.freeSegments_files]
  exact ((s.freeSegments_quiet _).trans (State.dropFile_quiet hf' unpinned)).trans (State.setSwitch_quiet _ _ _)

theorem State.removeFile_quiet {s t : State} {i : Nat} (h : s.removeFile i = some t) : Quiet s t := by
  rcases State.removeFile_cases s i with ⟨f, hf, hi, he⟩ | he
  · rw [he] at h
    cases h
    exact State.releaseFile_quiet hf (.inl hi)
  · rw [he] at h
    cases h

theorem State.reclaimFile_quiet {s t : State} {i : Nat} (h : s.reclaimFile i = some t) : Quiet s t := by
  rcases State.reclaimFile_cases s i with ⟨f, hf, -, hp, he⟩ | he
  · rw [he] at h
    cases h
    exact State.releaseFile_quiet hf (.inr hp)
  · rw [he] at h
    cases h

/-- The former last segment of a chain points to the one linked behind it. -/
def State.linkLast (s : State) (last : Option Nat) (n : Nat) : State :=
  match last with
  | some k => s.setSegment k { s.segment k with next := some n }
  | none => s

/-- The catalogue once segment `n`, the head of the Free Segment List, is the file's FILLING last segment (R6). -/
def State.allocated (s : State) (i : Nat) (f : File) (n : Nat) (rest : List (Nat × Nat)) : State :=
  (((({ s with freeList := rest }).linkLast f.lastSegment n).setSegment n
    { state := .filling, allocation := ((s.segment n).allocation + 1) % 65536, fileIndex := i,
      ordinal := f.segmentCount }).setFile i
    { f with
      firstSegment := match f.firstSegment with | some k => some k | none => some n
      lastSegment := some n
      segmentCount := f.segmentCount + 1 })

/-- All that a segment allocation can answer (R6). -/
theorem State.allocate_cases (s : State) (i : Nat) :
    s.allocate i = .stale ∨ s.allocate i = .empty ∨ s.allocate i = .chainFull
      ∨ ∃ f n rest, s.file i = some f ∧ f.state = .ingesting ∧ Runs.pop s.freeList = some (n, rest)
          ∧ f.segmentCount ≠ 512
          ∧ s.allocate i = .done ⟨n, ((s.segment n).allocation + 1) % 65536, f.segmentCount⟩
            (s.allocated i f n rest) := by
  unfold State.allocate
  split
  · exact .inl rfl
  next f hf =>
  split
  · exact .inl rfl
  next hi =>
  split
  · exact .inr (.inl rfl)
  next n rest hp =>
  split
  · exact .inr (.inr (.inl rfl))
  next hl => exact .inr (.inr (.inr ⟨f, n, rest, hf, not_not.mp hi, hp, hl, rfl⟩))

theorem State.linkLast_quiet (s : State) (last : Option Nat) (n : Nat) : Quiet s (s.linkLast last n) := by
  cases last with
  | none => exact .refl s
  | some k => exact s.setSegment_quiet k _

@[simp] theorem State.linkLast_files (s : State) (last : Option Nat) (n : Nat) :
    (s.linkLast last n).files = s.files := by
  cases last <;> rfl

theorem State.allocated_quiet {s : State} {i : Nat} {f : File} (hf : s.file i = some f) (n : Nat)
    (rest : List (Nat × Nat)) : Quiet s (s.allocated i f n rest) := by
  refine Quiet.trans (Quiet.trans (Quiet.trans (.same (by rfl)) (State.linkLast_quiet _ _ _))
      (State.setSegment_quiet _ _ _))
    (State.setFile_quiet (f := f) ?_ (by rfl) (by rfl) (by exact id))
  simpa [State.file] using hf

theorem State.allocate_quiet {s t : State} {i : Nat} {g : Filling} (h : s.allocate i = .done g t) : Quiet s t := by
  rcases s.allocate_cases i with he | he | he | ⟨f, n, rest, hf, -, -, -, he⟩ <;> rw [he] at h <;> cases h
  exact State.allocated_quiet hf n rest

theorem State.countSuspect_quiet (s : State) (i : Nat) (change : Nat → Nat) : Quiet s (s.countSuspect i change) := by
  unfold State.countSuspect
  split
  · next f hf => exact State.setFile_quiet hf (by rfl) (by rfl) id
  · exact .refl s

theorem State.finishStored_quiet {s t : State} {n : Nat} {g : Figures} (h : s.finishStored n g = some t) :
    Quiet s t := by
  rcases State.finishStored_cases s n g with ⟨-, he⟩ | he
  · rw [he] at h
    cases h
    exact s.setSegment_quiet n _
  · rw [he] at h
    cases h

theorem State.finishFailed_quiet {s t : State} {n : Nat} {g : Figures} {b : Bool} (h : s.finishFailed n g b = some t) :
    Quiet s t := by
  unfold State.finishFailed at h
  simp only at h
  split at h
  · cases h
    exact (s.setSegment_quiet n _).trans (State.countSuspect_quiet _ _ _)
  · cases h

theorem State.markSuspect_quiet {s t : State} {n a i : Nat} {b : Bool} (h : s.markSuspect n a i b = some t) :
    Quiet s t := by
  unfold State.markSuspect at h
  simp only at h
  split at h
  · cases h
  split at h
  · cases h
    exact (s.setSegment_quiet n _).trans (State.countSuspect_quiet _ _ _)
  · cases h
    split
    · exact s.setSegment_quiet n _
    · exact .refl s
  · cases h

theorem State.returnStored_quiet {s t : State} {n a i : Nat} (h : s.returnStored n a i = some t) : Quiet s t := by
  unfold State.returnStored at h
  simp only at h
  split at h
  · cases h
    exact (s.setSegment_quiet n _).trans (State.countSuspect_quiet _ _ _)
  · cases h

theorem State.clearUnreported_quiet {s t : State} {n a : Nat} (h : s.clearUnreported n a = some t) : Quiet s t := by
  unfold State.clearUnreported at h
  simp only at h
  split at h
  · cases h
    exact s.setSegment_quiet n _
  · cases h

theorem State.markAllUnreported_quiet (s : State) : Quiet s s.markAllUnreported := by
  refine .tables rfl rfl rfl id (fun h => Sparse.wf_map h (fun e => ?_) (fun e he => ?_)) id id
  · simp only
    split <;> rfl
  · simp only
    split
    · next hs =>
      intro h
      have := congrArg Segment.state h
      rw [hs] at this
      cases this
    · exact he

theorem State.markExpiring_quiet {s t : State} {i : Nat} (h : s.markExpiring i = some t) : Quiet s t := by
  unfold State.markExpiring at h
  split at h
  · next f hf =>
    split at h
    · cases h
      exact State.setFile_quiet hf (by rfl) (by rfl) fun h => nomatch h
    · cases h
  · cases h

theorem State.returnAccepted_quiet {s t : State} {i : Nat} (h : s.returnAccepted i = some t) : Quiet s t := by
  unfold State.returnAccepted at h
  split at h
  · next f hf =>
    split at h
    · cases h
      exact State.setFile_quiet hf (by rfl) (by rfl) fun h => nomatch h
    · cases h
  · cases h

theorem State.clearDispute_quiet {s t : State} {i : Nat} (h : s.clearDispute i = some t) : Quiet s t := by
  unfold State.clearDispute at h
  split at h
  · next f hf =>
    split at h
    · cases h
      exact State.setFile_quiet hf (by rfl) (by rfl) fun h => nomatch h
    · cases h
  · cases h

theorem State.acceptLoss_quiet {s t : State} {i : Nat} (h : s.acceptLoss i = some t) : Quiet s t := by
  unfold State.acceptLoss at h
  split at h
  · next f hf =>
    split at h
    · cases h
    · cases h
      exact State.setFile_quiet hf (by rfl) (by rfl) id
  · cases h

/-! ## Quiet operations: streams -/

section
variable (s : State) (x : StreamId)

theorem State.updateStream_quiet (f : Stream → Stream) : Quiet s (s.updateStream x f) := .same (by rfl)

theorem State.record_quiet (kind : TrailKind) (port : Option PortId) (subject : Subject) (value : Nat) :
    Quiet s (s.record kind port subject value) := .same (by rfl)

theorem State.postNotice_quiet : Quiet s (s.postNotice x) := by
  rcases s.postNotice_cases x with ⟨-, -, h⟩ | h <;> rw [h]
  · exact .same (by rfl)
  · exact .refl s

theorem State.tryPost_quiet {s t : State} {x : StreamId} {d : CompletionDetail} {b : Bool}
    (h : s.tryPost x d = (t, b)) : Quiet s t := by
  rcases s.tryPost_cases x d with ⟨-, he⟩ | he
  · rw [he] at h
    cases h
    exact (s.postNotice_quiet x).trans (.same (by rfl))
  · rw [he] at h
    cases h
    exact s.postNotice_quiet x

theorem State.waitPost_quiet (d : CompletionDetail) (after : AfterPost) : Quiet s (s.waitPost x d after) :=
  .same (by rfl)

theorem State.streamIdle_quiet : Quiet s (s.streamIdle x) := .same (by rfl)

theorem State.enterWaiting_quiet (state : StreamState) : Quiet s (s.enterWaiting x state) := .same (by rfl)

/-- The trail, the catalogue and the stream once a verdict is accepted, its closing entry still to be posted (R40). -/
def State.markAccepted (s : State) (x : StreamId) (reasons : DisputeReasons) : State :=
  let st := s.streams[x]
  let i := st.fileIndex.getD 0
  let s := s.record .fileAccepted st.owner
    (.file (st.switchId.getD 0) (st.sequence.getD 0) i reasons) st.accepted
  ((s.acceptFile i st.accepted st.rejected st.duration reasons st.trailer s.stamp).getD s).updateStream x
    (fun st => { st with verdict := none })

/-- With trail room an acceptance marks the file and then posts the closing entry, with IDLE to follow (R40). -/
theorem State.acceptStream_room {reasons : DisputeReasons} (h : s.trailRoom = true) :
    s.acceptStream x reasons
      = (s.markAccepted x reasons).postThen x (s.streams[x].closingEntry reasons) .idle := by
  simp only [State.acceptStream, h, if_true]
  rfl

theorem State.markAccepted_quiet (reasons : DisputeReasons) : Quiet s (s.markAccepted x reasons) := by
  unfold State.markAccepted
  exact ((s.record_quiet _ _ _ _).trans (Quiet.getD fun _ h => State.acceptFile_quiet h)).trans
    (State.updateStream_quiet _ x _)

/-- A post with IDLE to follow leaves the stream IDLE or waiting in POSTING. -/
theorem State.postThen_idle_quiet (d : CompletionDetail) : Quiet s (s.postThen x d .idle) := by
  unfold State.postThen
  split
  · next t h => exact (State.tryPost_quiet h).trans (t.streamIdle_quiet x)
  · next t h => exact (State.tryPost_quiet h).trans (t.waitPost_quiet x _ _)

theorem State.acceptStream_quiet (reasons : DisputeReasons) : Quiet s (s.acceptStream x reasons) := by
  cases h : s.trailRoom with
  | true =>
    rw [s.acceptStream_room x h]
    exact (s.markAccepted_quiet x reasons).trans (State.postThen_idle_quiet _ x _)
  | false =>
    rw [State.acceptStream_full h]
    exact s.updateStream_quiet x _

theorem State.reconcile_quiet : Quiet s (s.reconcile x) := s.acceptStream_quiet x _

theorem State.rejectRecord_quiet {s t : State} {x : StreamId} {reason : RejectReason} {after : AfterPost} {b : Bool}
    (h : s.rejectRecord x reason after = (t, b)) : Quiet s t := by
  unfold State.rejectRecord at h
  simp only at h
  split at h
  · cases h
    exact .same (by rfl)
  · split at h
    · next u hu =>
      cases h
      exact (s.updateStream_quiet x _).trans (State.tryPost_quiet hu)
    · next u hu =>
      cases h
      exact ((s.updateStream_quiet x _).trans (State.tryPost_quiet hu)).trans (u.waitPost_quiet x _ _)

theorem State.rejectRecord_fst_quiet (reason : RejectReason) (after : AfterPost) :
    Quiet s (s.rejectRecord x reason after).1 := State.rejectRecord_quiet (b := (s.rejectRecord x reason after).2) rfl

theorem State.closeInput_quiet : Quiet s (s.closeInput x) := .same (by rfl)

theorem State.endOfInput_quiet : Quiet s (s.endOfInput x) := by
  unfold State.endOfInput
  simp only
  split
  · split
    · next t h => exact (State.rejectRecord_quiet h).trans (t.closeInput_quiet x)
    · next t h => exact State.rejectRecord_quiet h
  · exact s.closeInput_quiet x

theorem State.exhaust_quiet : Quiet s (s.exhaust x) := by
  unfold State.exhaust
  simp only
  split
  · split
    · exact (s.updateStream_quiet x _).trans (State.endOfInput_quiet _ x)
    · split
      · exact (s.updateStream_quiet x _).trans (State.updateStream_quiet _ x _)
      · exact ((s.updateStream_quiet x _).trans (State.updateStream_quiet _ x _)).trans (State.enterWaiting_quiet _ x _)
  · exact .refl s

theorem State.afterPost_quiet (after : AfterPost) : Quiet s (s.afterPost x after) := by
  cases after with
  | running => exact (s.updateStream_quiet x _).trans (State.exhaust_quiet _ x)
  | starved => exact s.enterWaiting_quiet x _
  | held => exact s.enterWaiting_quiet x _
  | idle => exact s.streamIdle_quiet x
  | endOfInput => exact s.closeInput_quiet x
  | reconcile => exact s.reconcile_quiet x

theorem State.postThen_quiet (d : CompletionDetail) (after : AfterPost) : Quiet s (s.postThen x d after) := by
  unfold State.postThen
  split
  · next t h => exact (State.tryPost_quiet h).trans (t.afterPost_quiet x after)
  · next t h => exact (State.tryPost_quiet h).trans (t.waitPost_quiet x d after)

theorem State.serveWaiting_quiet (i : WaitItem) : Quiet s (s.serveWaiting i) := by
  unfold State.serveWaiting
  split
  · exact s.postNotice_quiet _
  · simp only
    split
    · exact .refl s
    · split
      · next t h => exact ((State.tryPost_quiet h).trans (.same (by rfl))).trans (State.afterPost_quiet _ _ _)
      · next t h => exact State.tryPost_quiet h

theorem State.serveWaitList_quiet : Quiet s s.serveWaitList := Quiet.foldl State.serveWaiting_quiet _ s

theorem State.removeCompletions_quiet (kept : List Completion) : Quiet s (s.removeCompletions kept) := by
  unfold State.removeCompletions
  split
  · exact Quiet.trans (.same (by rfl)) (State.serveWaitList_quiet _)
  · exact .refl s

theorem State.stageRecord_quiet (r : CallRecord) : Quiet s (s.stageRecord x r) := .same (by rfl)

theorem State.handRecord_quiet (r : CallRecord) : Quiet s (s.handRecord x r) := by
  unfold State.handRecord
  split
  · exact s.stageRecord_quiet x r
  · exact .same (by rfl)

theorem State.endRecord_quiet : Quiet s (s.endRecord x) := by
  unfold State.endRecord
  simp only
  split
  · exact s.updateStream_quiet x _
  · split
    · exact s.rejectRecord_fst_quiet x _ _
    · split
      · exact s.rejectRecord_fst_quiet x _ _
      · exact (s.updateStream_quiet x _).trans (State.handRecord_quiet _ x _)

theorem State.startTrailer_quiet : Quiet s (s.startTrailer x) := by
  unfold State.startTrailer
  simp only
  split
  · exact (s.rejectRecord_fst_quiet x _ _).trans (State.updateStream_quiet _ x _)
  · exact s.updateStream_quiet x _

theorem State.recordByte_quiet (kind : ClassKind) (b : Byte) : Quiet s (s.recordByte x kind b) := by
  unfold State.recordByte
  cases kind with
  | data => exact s.updateStream_quiet x _
  | separator => exact s.updateStream_quiet x _
  | recordEnd => exact s.endRecord_quiet x
  | skip => exact .refl s
  | trailerStart => exact s.startTrailer_quiet x
  | illegal => exact (s.rejectRecord_fst_quiet x _ _).trans (State.updateStream_quiet _ x _)

theorem State.takeByte_quiet (e : ClassEntry) (b : Byte) : Quiet s (s.takeByte x e b) := by
  unfold State.takeByte
  simp only
  split
  · exact (s.updateStream_quiet x _).trans (State.recordByte_quiet _ x _ b)
  · exact (s.updateStream_quiet x _).trans (State.updateStream_quiet _ x _)

theorem State.holdByte_quiet (e : ClassEntry) (b : Byte) : Quiet s (s.holdByte x e b) :=
  (s.updateStream_quiet x _).trans (State.postThen_quiet _ x _ _)

theorem State.streamByte_quiet : Quiet s (s.streamByte x) := by
  unfold State.streamByte
  simp only
  split
  · exact .refl s
  split
  · exact .refl s
  split
  · exact (s.updateStream_quiet x _).trans (State.exhaust_quiet _ x)
  split
  · exact s.holdByte_quiet x _ _
  · exact (s.takeByte_quiet x _ _).trans (State.exhaust_quiet _ x)

theorem State.resumeBlocked_quiet : Quiet s s.resumeBlocked := by
  unfold State.resumeBlocked
  split
  · exact .refl s
  split
  · split
    · exact .same (by rfl)
    · exact Quiet.trans (Quiet.trans (.same (by rfl)) (State.updateStream_quiet _ _ _)) (State.exhaust_quiet _ _)
  · exact .refl s

theorem State.placeAbort_quiet : Quiet s (s.placeAbort x) := .same (by rfl)

theorem State.abandonHead_quiet : Quiet s (s.abandonHead x) := by
  rcases s.abandonHead_cases x with ⟨-, h⟩ | h <;> rw [h]
  · exact .same (by rfl)
  · exact .refl s

theorem State.recordCause_quiet (cause : AbortCause) : Quiet s (s.recordCause x cause) := .same (by rfl)

theorem State.beginAbort_quiet (cause : AbortCause) : Quiet s (s.beginAbort x cause) := by
  unfold State.beginAbort
  simp only
  split
  · exact ((s.recordCause_quiet x cause).trans (State.updateStream_quiet _ x _)).trans (State.abandonHead_quiet _ x)
  · exact ((s.recordCause_quiet x cause).trans (State.updateStream_quiet _ x _)).trans (State.placeAbort_quiet _ x)

theorem State.resetStream_quiet : Quiet s (s.resetStream x) := by
  rcases s.resetStream_cases x with ⟨-, h⟩ | ⟨-, h⟩ | ⟨-, h⟩ | ⟨-, h⟩ <;> rw [h]
  · exact s.beginAbort_quiet x _
  · exact s.recordCause_quiet x _
  · exact s.streamIdle_quiet x
  · exact .refl s

theorem State.withdrawStream_quiet : Quiet s (s.withdrawStream x) := by
  unfold State.withdrawStream
  split
  · exact s.beginAbort_quiet x _
  · exact .refl s

theorem State.closeAbort_quiet : Quiet s (s.closeAbort x) := by
  unfold State.closeAbort
  split
  · exact s.streamIdle_quiet x
  · exact s.postThen_quiet x _ _
  · exact s.postThen_quiet x _ _
  · exact s.postThen_quiet x _ _
  · exact s.streamIdle_quiet x

theorem State.takeCloseAck_quiet (count duration : Nat) : Quiet s (s.takeCloseAck x count duration) := by
  unfold State.takeCloseAck
  simp only
  split
  · exact Quiet.trans (.same (by rfl)) (State.placeAbort_quiet _ x)
  split
  · exact s.reconcile_quiet x
  split
  · exact (s.updateStream_quiet x _).trans (State.reconcile_quiet _ x)
  · exact (s.updateStream_quiet x _).trans (State.postThen_quiet _ x _ _)

theorem State.takeNotice_quiet : Quiet s (s.takeNotice x) := by
  unfold State.takeNotice
  simp only
  split
  · exact ((s.updateStream_quiet x _).trans (State.postNotice_quiet _ x)).trans (.same (by rfl))
  · exact (s.updateStream_quiet x _).trans (State.postNotice_quiet _ x)

theorem State.streamExpiry_quiet : Quiet s (s.streamExpiry x) := by
  unfold State.streamExpiry
  simp only
  split
  · exact s.beginAbort_quiet x _
  · exact .refl s

theorem State.retryAcceptance_quiet : Quiet s (s.retryAcceptance x) := by
  unfold State.retryAcceptance
  simp only
  split
  · split
    · exact s.acceptStream_quiet x _
    · exact .refl s
  · exact .refl s

theorem State.resumeHeld_quiet (substitute : Option ClassEntry) : Quiet s (s.resumeHeld x substitute) := by
  unfold State.resumeHeld
  split
  · exact s.updateStream_quiet x _
  · exact ((s.updateStream_quiet x _).trans (State.takeByte_quiet _ x _ _)).trans (State.exhaust_quiet _ x)

theorem State.startStream_quiet (w q : Nat) : Quiet s (s.startStream x w q) := by
  unfold State.startStream
  split
  · split
    · exact s.enterWaiting_quiet x _
    · exact s.postThen_quiet x _ _
  · exact s.enterWaiting_quiet x _

end

/-! ## Quiet operations: the Store Port and the Encoder -/

section
variable (s : State) (x : StreamId)

/-- A read that starts changes no more of a cursor than its read; a FREE cursor has none. -/
theorem State.readReading_quiet (c : CursorId) : Quiet s (s.readReading c) := by
  refine s.setCursor_quiet c _ ⟨rfl, rfl, rfl, rfl, id, fun h => ?_⟩
  rw [h]
  rfl

theorem State.startStore_quiet : Quiet s s.startStore := by
  unfold State.startStore
  simp only
  split
  · exact .refl s
  split
  · exact .same (by rfl)
  split
  · exact Quiet.trans (.same (by rfl)) (State.readReading_quiet _ _)
  split
  · exact .same (by rfl)
  · exact .refl s

theorem State.endStore_quiet : Quiet s s.endStore := Quiet.trans (.same (by rfl)) (State.startStore_quiet _)

theorem State.askWrite_quiet (n : Nat) : Quiet s (s.askWrite x n) :=
  Quiet.trans (.same (by rfl)) (State.startStore_quiet _)

theorem State.askRead_quiet (c : CursorId) (n : Nat) : Quiet s (s.askRead c n) :=
  Quiet.trans (.same (by rfl)) (State.startStore_quiet _)

theorem State.askSweep_quiet (n : Nat) : Quiet s (s.askSweep n) :=
  Quiet.trans (.same (by rfl)) (State.startStore_quiet _)

theorem State.finishSegment_quiet {s t : State} {x : StreamId} (h : s.finishSegment x = some t) : Quiet s t := by
  unfold State.finishSegment at h
  simp only at h
  split at h
  · cases h
    exact .refl s
  · cases h
  · cases h
    exact Quiet.trans (.same (by rfl)) (State.askWrite_quiet _ x _)

theorem State.leaveHead_quiet : Quiet s s.leaveHead := .same (by rfl)

theorem State.discardCounted_quiet (r : CallRecord) : Quiet s (s.discardCounted x r) := .same (by rfl)

theorem State.endEpisode_quiet : Quiet s s.endEpisode := by
  unfold State.endEpisode
  split
  · exact .same (by rfl)
  · exact .refl s

theorem State.waitStoreFull_quiet : Quiet s (s.waitStoreFull x) := by
  unfold State.waitStoreFull
  simp only
  split
  · exact .same (by rfl)
  split
  · exact .same (by rfl)
  · exact Quiet.trans (.same (by rfl)) (State.takeNotice_quiet _ x)

theorem State.placeFirst_quiet (r : CallRecord) : Quiet s (s.placeFirst x r) := by
  unfold State.placeFirst
  split
  · exact s.leaveHead_quiet
  · exact s.waitStoreFull_quiet x
  · exact s.discardCounted_quiet x r
  · next g t h => exact ((State.allocate_quiet h).trans t.endEpisode_quiet).trans (.same (by rfl))

theorem State.placeRecord_quiet (r : CallRecord) : Quiet s (s.placeRecord x r) := by
  unfold State.placeRecord
  simp only
  split
  · exact .same (by rfl)
  split
  · exact .same (by rfl)
  · next t h => exact (State.finishSegment_quiet h).trans (t.placeFirst_quiet x r)

theorem State.takeCloseMarker_quiet : Quiet s (s.takeCloseMarker x) := by
  unfold State.takeCloseMarker
  split
  · exact .same (by rfl)
  split
  · exact .same (by rfl)
  · next t h => exact (State.finishSegment_quiet h).trans (.same (by rfl))

theorem State.carryRemoval_quiet : Quiet s (s.carryRemoval x) := by
  unfold State.carryRemoval
  split
  · next t h => exact (State.removeFile_quiet h).trans (.same (by rfl))
  · exact .same (by rfl)

theorem State.takeAbortMarker_quiet : Quiet s (s.takeAbortMarker x) := by
  unfold State.takeAbortMarker
  simp only
  split
  · split
    · exact .same (by rfl)
    · exact Quiet.trans (.same (by rfl)) (State.carryRemoval_quiet _ x)
  · exact Quiet.trans (.same (by rfl)) (State.carryRemoval_quiet _ x)

theorem State.dealHead_quiet : Quiet s s.dealHead := by
  unfold State.dealHead
  split
  · exact .refl s
  · split
    · exact s.leaveHead_quiet
    split
    · exact s.discardCounted_quiet _ _
    · exact s.placeRecord_quiet _ _
  · exact s.takeCloseMarker_quiet _
  · exact s.takeAbortMarker_quiet _

theorem State.takeHead_quiet : Quiet s s.takeHead := by
  unfold State.takeHead
  split
  · exact s.dealHead_quiet
  split
  · split
    · exact s.leaveHead_quiet
    · exact .refl s
  · exact .refl s

theorem State.retryStoreFull_quiet : Quiet s s.retryStoreFull := by
  unfold State.retryStoreFull
  split
  · exact s.dealHead_quiet
  · exact .refl s

theorem State.endImageWait_quiet : Quiet s s.endImageWait := by
  unfold State.endImageWait
  split
  · split
    · exact s.dealHead_quiet
    · exact .refl s
  · exact .refl s

/-- Bytes put into the store. -/
theorem State.store_quiet (a : Nat) (bytes : List Byte) : Quiet s { s with store := writeBytes a bytes s.store } :=
  .tables rfl rfl rfl (storeWf_writeBytes a bytes s.store) id id id

theorem State.dropImage_quiet : Quiet s (s.dropImage x) := .same (by rfl)

theorem State.writeDone_quiet (n : Nat) : Quiet s (s.writeDone x n) := by
  unfold State.writeDone
  simp only
  split
  · exact .refl s
  split
  · exact ((s.store_quiet _ _).trans (State.dropImage_quiet _ x)).trans (State.carryRemoval_quiet _ x)
  · exact ((s.store_quiet _ _).trans (State.dropImage_quiet _ x)).trans
      (Quiet.getD fun _ h => State.finishStored_quiet h)

theorem State.recordQuarantine_quiet (kind : TrailKind) (i : Nat) : Quiet s (s.recordQuarantine kind i) := by
  unfold State.recordQuarantine
  split
  · exact s.record_quiet _ _ _ _
  · exact .refl s

theorem State.reportDamage_quiet (f : Finding) : Quiet s (s.reportDamage f).1 := by
  unfold State.reportDamage
  split
  next t owed h =>
  have ht : Quiet s t := by
    split at h <;> cases h
    · exact .same (by rfl)
    · exact .refl s
  simp only
  split
  · exact ht.trans (t.recordQuarantine_quiet _ _)
  · exact ht

theorem State.writeFailed_quiet (n : Nat) (left : List Byte) : Quiet s (s.writeFailed x n left) := by
  unfold State.writeFailed
  simp only
  split
  · exact .refl s
  split
  · exact ((s.store_quiet _ _).trans (State.dropImage_quiet _ x)).trans (State.carryRemoval_quiet _ x)
  · exact (((s.store_quiet _ _).trans (State.dropImage_quiet _ x)).trans (State.reportDamage_quiet _ _)).trans
      (Quiet.getD fun _ h => State.finishFailed_quiet h)

theorem State.acknowledgeClose_quiet : Quiet s (s.acknowledgeClose x) := by
  unfold State.acknowledgeClose
  simp only
  split
  · exact Quiet.trans (.same (by rfl)) (State.takeCloseAck_quiet _ x _ _)
  · exact .refl s

theorem State.tellAbort_quiet : Quiet s (s.tellAbort x) := by
  unfold State.tellAbort
  split
  · exact Quiet.trans (.same (by rfl)) (State.closeAbort_quiet _ x)
  · exact .refl s

end

/-! ## Quiet operations: retention -/

section
variable (s : State)

theorem State.reclaimStep_quiet (i : Nat) (f : File) : Quiet s (s.reclaimStep i f).2 := by
  rcases s.reclaimStep_cases i f with ⟨-, h⟩ | ⟨-, -, h⟩ | ⟨-, -, h⟩ <;> rw [h] <;> dsimp only
  · exact Quiet.getD fun t h => State.returnAccepted_quiet h
  · exact Quiet.getD fun t h => (s.record_quiet _ _ _ _).trans (State.reclaimFile_quiet h)
  · exact .refl s

theorem State.pinReleased_quiet (i : Nat) : Quiet s (s.pinReleased i) := by
  unfold State.pinReleased
  split
  · exact .refl s
  split
  · split
    · exact s.reclaimStep_quiet i _
    · exact .refl s
  · exact .refl s

theorem State.startCause_quiet : Quiet s s.startCause := by
  rcases s.startCause_cases with ⟨-, -, h⟩ | h <;> rw [h] <;> exact .same (by rfl)

theorem State.passVisited_quiet : Quiet s s.passVisited := .same (by rfl)

theorem State.visitExpiring_quiet (i : Nat) (f : File) : Quiet s (s.visitExpiring i f) := by
  have hr := s.reclaimStep_quiet i f
  unfold State.visitExpiring
  split
  · split
    · next t h => rw [h] at hr; exact hr.trans (.same (by rfl))
    · next r t _ h => rw [h] at hr; exact hr.trans (.same (by rfl))
  · exact s.passVisited_quiet

theorem State.visit_quiet : Quiet s s.visit := by
  unfold State.visit
  simp only
  split
  · exact s.passVisited_quiet
  split
  · exact s.passVisited_quiet
  · exact s.passVisited_quiet
  · exact s.visitExpiring_quiet _ _
  · split
    · exact (Quiet.getD fun t h => State.markExpiring_quiet h).trans (State.visitExpiring_quiet _ _ _)
    · exact s.passVisited_quiet

theorem State.walkAgain_quiet : Quiet s s.walkAgain := Quiet.trans (.same (by rfl)) (State.visit_quiet _)

theorem State.passRetry_quiet : Quiet s s.passRetry := by
  rcases s.passRetry_cases with ⟨-, -, h⟩ | h <;> rw [h]
  · exact Quiet.trans (.same (by rfl)) (State.walkAgain_quiet _)
  · exact .refl s

theorem State.passVisit_quiet : Quiet s s.passVisit := by
  unfold State.passVisit
  split
  · exact s.visit_quiet
  · exact .refl s

theorem State.returnHeld_quiet (h : Hold) : Quiet s (s.returnHeld h) :=
  Quiet.foldl (fun _ _ => Quiet.getD fun _ h => State.returnAccepted_quiet h) _ s

/-! ## Quiet operations: the sweep -/

theorem State.beginVisit_quiet (n : Nat) (kind : VisitKind) : Quiet s (s.beginVisit n kind) :=
  Quiet.trans (.same (by rfl)) (State.askSweep_quiet _ n)

theorem State.lookSegment_quiet : Quiet s s.lookSegment := by
  unfold State.lookSegment
  simp only
  split
  · exact .same (by rfl)
  split
  · exact Quiet.trans (.same (by rfl)) (State.beginVisit_quiet _ _ _)
  · exact .same (by rfl)

theorem State.sweepLooks_quiet : Quiet s s.sweepLooks := by
  unfold State.sweepLooks
  split
  · exact s.lookSegment_quiet
  · exact .refl s

theorem State.logRoom_quiet : Quiet s s.logRoom := by
  unfold State.logRoom
  split
  · exact Quiet.trans (.same (by rfl)) (State.sweepLooks_quiet _)
  · exact .refl s

theorem State.completeVisit_quiet (v : Visit) (report : ReadReport) : Quiet s (s.completeVisit v report).1 := by
  unfold State.completeVisit
  split
  · exact .refl s
  simp only
  split
  · split
    · show Quiet s (s.cleanSuspect v)
      unfold State.cleanSuspect
      split
      · exact Quiet.getD fun t h => State.returnStored_quiet h
      split
      · exact (s.recordQuarantine_quiet _ _).trans (Quiet.getD fun t h => State.returnStored_quiet h)
      · exact .refl s
    · exact .refl s
  split
  · unfold State.damageSuspect
    split
    · exact (Quiet.trans (.same (by rfl)) (State.recordQuarantine_quiet _ _ _)).trans
        (Quiet.getD fun t h => State.clearUnreported_quiet h)
    · exact .refl s
  · unfold State.damageStored
    simp only
    split
    · exact (Quiet.trans (.same (by rfl)) (State.recordQuarantine_quiet _ _ _)).trans
        (Quiet.getD fun t h => State.markSuspect_quiet h)
    · exact Quiet.trans (.same (by rfl)) (Quiet.getD fun t h => State.markSuspect_quiet h)

theorem State.paceSweep_quiet (n : Nat) : Quiet s (s.paceSweep n) := by
  unfold State.paceSweep
  simp only
  split
  · exact .refl s
  split
  · exact .same (by rfl)
  split
  · split
    · exact .same (by rfl)
    · exact .same (by rfl)
  · exact .refl s

theorem State.stepWalk_quiet (p : PortId) (tag : Byte) : Quiet s (s.stepWalk p tag).1 := by
  unfold State.stepWalk
  simp only
  split
  · exact Quiet.trans (.same (by rfl)) (State.beginVisit_quiet _ _ _)
  · exact .same (by rfl)

/-! ## Quiet operations: the clock -/

theorem State.advanceClock_quiet : Quiet s s.advanceClock := by
  unfold State.advanceClock
  simp only
  split
  · exact .refl s
  split
  · exact Quiet.trans (.same (by rfl)) (State.startCause_quiet _)
  · exact .same (by rfl)

/-- A countdown that falls is no longer stopped only if it was not. -/
theorem State.tickCountdowns_quiet : Quiet s s.tickCountdowns := by
  have hc : ∀ c : CursorId, s.cursors[c].Alike s.tickCountdowns.cursors[c] := by
    intro c
    have he : s.tickCountdowns.cursors[c] = { s.cursors[c] with idle := s.cursors[c].idle.tick } := by
      simp [State.tickCountdowns]
    rw [he]
    exact ⟨rfl, rfl, rfl, rfl, fun h => by rw [h]; rfl, fun h => by rw [h]; rfl⟩
  exact
    { canonical := fun h => h
      pairs := fun _ h => h
      agree := fun _ h => State.agree_of_kept hc (fun _ => rfl) (fun _ => .same _) h
      cursors := hc
      requests := fun _ => rfl }

theorem State.tick_quiet : Quiet s s.tick := s.advanceClock_quiet.trans (State.tickCountdowns_quiet _)

theorem State.pulse_quiet (half : Bool) : Quiet s (s.pulse half) := by
  unfold State.pulse
  simp only
  split
  · split
    · exact Quiet.trans (.same (by rfl)) (State.tick_quiet _)
    · exact .refl s
  split
  · exact Quiet.trans (.same (by rfl)) (State.tick_quiet _)
  · exact .same (by rfl)

theorem State.elapse_quiet : Quiet s s.elapse := by
  rcases s.elapse_cases with ⟨-, -, h⟩ | ⟨-, h⟩ | ⟨-, h⟩ <;> rw [h]
  · exact .same (by rfl)
  · exact (Quiet.trans (.same (by rfl)) (State.tick_quiet _)).trans (State.tick_quiet _)
  · exact s.tick_quiet

theorem State.setClockTo_quiet (p : PortId) (value : Nat) : Quiet s (s.setClockTo p value) := by
  unfold State.setClockTo
  simp only
  split
  · exact Quiet.trans (.same (by rfl)) (State.startCause_quiet _)
  · exact .same (by rfl)

end

end Sys2Proof.Machine
end

section
/-! PROOFS. The outstanding requests of the ports, and the agreement of cursors and requests. -/

namespace Sys2Proof.Machine

/-! ## Outstanding requests -/

theorem State.outstanding_setPort (s : State) (p r : PortId) (q : PortState) :
    (s.setPort p q).ports[r].outstanding = if r = p then q.outstanding else s.ports[r].outstanding := by
  split
  · next h => subst h; simp
  · next h => simp only [State.setPort_ports, getElem_set_fin_ne _ _ _ _ (Ne.symm h)]

/-- A reply formed adds its entries to the table of its port if its line is busy. -/
theorem State.outstanding_form (s : State) (p r : PortId) (tag : Byte) (status : Status) (body : ReplyBody)
    (entries : List Outstanding) :
    (s.form p tag status body entries).ports[r].outstanding
      = s.ports[r].outstanding ++ if r = p ∧ s.ports[p].lineBusy = true then entries else [] := by
  cases h : s.ports[p].lineBusy with
  | false =>
    rw [State.form_free tag status body entries h]
    simp
  | true =>
    rw [State.form_busy tag status body entries h, State.outstanding_setPort]
    split
    · next hr => subst hr; simp
    · next hr => simp [hr]

theorem State.outstanding_freeTag (s : State) (p r : PortId) (tag : Byte) :
    (s.freeTag p tag).ports[r].outstanding
      = if r = p then s.ports[p].outstanding.filter (fun o => o.tag ≠ tag) else s.ports[r].outstanding :=
  s.outstanding_setPort p r _

theorem State.outstanding_setStanding (s : State) (p r : PortId) (tag : Byte) (standing : Standing) :
    (s.setStanding p tag standing).ports[r].outstanding
      = if r = p then s.ports[p].outstanding.map (fun o => if o.tag = tag then ⟨tag, standing⟩ else o)
        else s.ports[r].outstanding :=
  s.outstanding_setPort p r _

theorem State.outstanding_takeEntry (s : State) (p r : PortId) (tag : Byte) (standing : Standing) :
    (s.takeEntry p tag standing).ports[r].outstanding
      = if r = p then s.ports[p].outstanding ++ [⟨tag, standing⟩] else s.ports[r].outstanding :=
  s.outstanding_setPort p r _

/-- No outstanding request of a port holds a tag (R154, order 2). -/
def State.tagFree (s : State) (p : PortId) (tag : Byte) : Prop := ∀ o ∈ s.ports[p].outstanding, o.tag ≠ tag

/-- An outstanding request waits on the fetch of a cursor, its reply formed or not. -/
def Outstanding.fetches (o : Outstanding) (c : CursorId) : Prop := o.standing = .fetching c ∨ o.standing = .delivering c

/-- No outstanding request waits on the fetch of a cursor. -/
def State.unfetched (s : State) (c : CursorId) : Prop :=
  ∀ p : PortId, ∀ o ∈ s.ports[p].outstanding, ¬o.fetches c

/-- What `fetchesAgree` asks of one outstanding request of a port. -/
def State.entryAgrees (s : State) (p : PortId) (o : Outstanding) : Prop :=
  ∀ c : CursorId, o.fetches c →
    s.cursors[c].isOpen = true ∧ s.cursors[c].owner = some p ∧ ∃ q, s.cursors[c].fetch = some q ∧ q.tag = o.tag

theorem State.entryAgrees_of_not_fetches {s : State} {p : PortId} {o : Outstanding} (h : ∀ c, ¬o.fetches c) :
    s.entryAgrees p o := fun c hc => absurd hc (h c)

theorem State.tagFree_freeTag (s : State) (p : PortId) (tag : Byte) : (s.freeTag p tag).tagFree p tag := by
  intro o ho
  rw [State.outstanding_freeTag, if_pos rfl] at ho
  simpa using (List.mem_filter.mp ho).2

theorem State.mem_freeTag {s : State} {p r : PortId} {tag : Byte} {o : Outstanding}
    (ho : o ∈ (s.freeTag p tag).ports[r].outstanding) :
    o ∈ s.ports[r].outstanding ∧ (r = p → o.tag ≠ tag) := by
  rw [State.outstanding_freeTag] at ho
  split at ho
  · next h =>
    subst h
    obtain ⟨h1, h2⟩ := List.mem_filter.mp ho
    exact ⟨h1, fun _ => by simpa using h2⟩
  · next h => exact ⟨ho, fun h' => absurd h' h⟩

theorem State.mem_form {s : State} {p r : PortId} {tag : Byte} {status : Status} {body : ReplyBody}
    {entries : List Outstanding} {o : Outstanding}
    (ho : o ∈ (s.form p tag status body entries).ports[r].outstanding) :
    o ∈ s.ports[r].outstanding ∨ (r = p ∧ o ∈ entries) := by
  rw [State.outstanding_form, List.mem_append] at ho
  rcases ho with ho | ho
  · exact .inl ho
  · split at ho
    · next h => exact .inr ⟨h.1, ho⟩
    · cases ho

theorem State.mem_takeEntry {s : State} {p r : PortId} {tag : Byte} {standing : Standing} {o : Outstanding}
    (ho : o ∈ (s.takeEntry p tag standing).ports[r].outstanding) :
    o ∈ s.ports[r].outstanding ∨ (r = p ∧ o = ⟨tag, standing⟩) := by
  rw [State.outstanding_takeEntry] at ho
  split at ho
  · next h =>
    subst h
    simpa using ho
  · exact .inl ho

theorem State.mem_setStanding {s : State} {p r : PortId} {tag : Byte} {standing : Standing} {o : Outstanding}
    (ho : o ∈ (s.setStanding p tag standing).ports[r].outstanding) :
    o ∈ s.ports[r].outstanding
      ∨ (r = p ∧ o = ⟨tag, standing⟩ ∧ ∃ o' ∈ s.ports[r].outstanding, o'.tag = tag) := by
  rw [State.outstanding_setStanding] at ho
  split at ho
  · next h =>
    subst h
    obtain ⟨o', ho', rfl⟩ := List.mem_map.mp ho
    split
    · next ht => exact .inr ⟨rfl, rfl, o', ho', ht⟩
    · exact .inl ho'
  · exact .inl ho

/-! ## Agreement of cursors and requests -/

theorem State.agree.entry {s : State} (h : s.agree) {p : PortId} {o : Outstanding} (ho : o ∈ s.ports[p].outstanding) :
    s.entryAgrees p o := (h.2.1 p).2 o ho

theorem State.agree.tags {s : State} (h : s.agree) (p : PortId) : (s.ports[p].outstanding.map (fun o => o.tag)).Nodup :=
  (h.2.1 p).1

/-- One outstanding request at most of a port holds a tag. -/
theorem State.agree.eq_of_tag {s : State} (h : s.agree) {p : PortId} {o o' : Outstanding}
    (ho : o ∈ s.ports[p].outstanding) (ho' : o' ∈ s.ports[p].outstanding) (ht : o.tag = o'.tag) : o = o' :=
  List.inj_on_of_nodup_map (h.tags p) ho ho' ht

theorem State.agree.open_of_fetch {s : State} (h : s.agree) {c : CursorId} (hq : s.cursors[c].fetch ≠ none) :
    s.cursors[c].isOpen = true := by
  by_contra ho
  exact hq (by rw [h.1.free ho])

/-- A cursor with no fetch in progress has no request that waits on one. -/
theorem State.agree.unfetched_of_none {s : State} (h : s.agree) {c : CursorId} (hq : s.cursors[c].fetch = none) :
    s.unfetched c := by
  intro p o ho hc
  obtain ⟨-, -, q, hs, -⟩ := h.entry ho c hc
  rw [hq] at hs
  cases hs

/-- A change of cursors and requests alone keeps the agreement when every entry it leaves agrees and the tags differ. -/
theorem State.agree_of_requests {s t : State} (h : s.agree) (files : t.files = s.files)
    (cursors : t.cursors = s.cursors)
    (tags : ∀ p : PortId, (t.ports[p].outstanding.map (fun o => o.tag)).Nodup)
    (entries : ∀ p : PortId, ∀ o ∈ t.ports[p].outstanding, o ∈ s.ports[p].outstanding ∨ s.entryAgrees p o) :
    t.agree := by
  refine ⟨State.pinsAgree_of_kept (s := s) (fun c => ?_) (fun i => ?_) h.1, fun p => ⟨tags p, fun o ho c hc => ?_⟩,
    fun c => ?_⟩
  · rw [cursors]; exact .refl _
  · unfold State.file; rw [files]; exact .same _
  · rw [cursors]
    rcases entries p o ho with he | he
    · exact h.entry he c hc
    · exact he c hc
  · rw [cursors]
    exact h.2.2 c

/-- An OPEN cursor changes and keeps its owner and its file: the requests that wait on its fetch must still find it, and
with a fetch in progress its countdown is stopped. -/
theorem State.setCursor_agree {s : State} {c : CursorId} {v : Cursor} (h : s.agree) (ho : s.cursors[c].isOpen = true)
    (isOpen : v.isOpen = true) (owner : v.owner = s.cursors[c].owner) (fileIndex : v.fileIndex = s.cursors[c].fileIndex)
    (fetches : ∀ p : PortId, ∀ o ∈ s.ports[p].outstanding, o.fetches c → ∃ q, v.fetch = some q ∧ q.tag = o.tag)
    (idle : v.fetch.isSome = true → v.idle = .stopped) : (s.setCursor c v).agree := by
  have hsame : (s.setCursor c v).cursors[c] = v := by simp
  have hother : ∀ c', c ≠ c' → (s.setCursor c v).cursors[c'] = s.cursors[c'] := fun c' hc => by
    simp [getElem_set_fin_ne _ _ _ _ hc]
  have hopen : ∀ c' : CursorId, (s.setCursor c v).cursors[c'].isOpen = s.cursors[c'].isOpen
      ∧ (s.setCursor c v).cursors[c'].owner = s.cursors[c'].owner
      ∧ (s.setCursor c v).cursors[c'].fileIndex = s.cursors[c'].fileIndex := by
    intro c'
    by_cases hc : c = c'
    · subst hc; rw [hsame, isOpen, ho, owner, fileIndex]; exact ⟨rfl, rfl, rfl⟩
    · rw [hother c' hc]; exact ⟨rfl, rfl, rfl⟩
  refine ⟨State.pinsAgree_of (fun i => ?_) (fun c' h' => ?_) (fun c' h' => ?_),
    fun p => ⟨h.tags p, fun o hm c' hc' => ?_⟩, fun c' => ?_⟩
  · rw [show (s.setCursor c v).cursorSet i = s.cursorSet i by
      ext c'; rw [State.mem_cursorSet, State.mem_cursorSet, (hopen c').1, (hopen c').2.2]]
    exact h.1.card i
  · rw [(hopen c').1] at h'
    rw [(hopen c').2.1, (hopen c').2.2]
    exact h.1.of_open h'
  · rw [(hopen c').1] at h'
    rw [hother c' (fun hc => h' (hc ▸ ho))]
    exact h.1.free h'
  · obtain ⟨h1, h2, h3⟩ := h.entry hm c' hc'
    rw [(hopen c').1, (hopen c').2.1]
    refine ⟨h1, h2, ?_⟩
    by_cases hc : c = c'
    · subst hc; rw [hsame]; exact fetches p o hm hc'
    · rw [hother c' hc]; exact h3
  · by_cases hc : c = c'
    · subst hc; rw [hsame]; exact idle
    · rw [hother c' hc]; exact h.2.2 c'

/-- What concerns agreement alone, under the canonical form. -/
theorem Handled.of_agree {s t : State} (formed : Formed s t) (agree : s.canonical = true → s.agree → t.agree) :
    Handled s t := { formed with agree }

/-- Handling is asked for canonical states only. -/
theorem Handled.of_canonical {s t : State} (h : s.canonical = true → Handled s t) : Handled s t where
  canonical hc := (h hc).canonical hc
  pairs hc := (h hc).pairs hc
  agree hc := (h hc).agree hc

/-! ## Replies and table entries -/

section
variable (s : State) (p : PortId) (tag : Byte)

/-- A reply formed with no entry changes no table. -/
theorem State.form_nil_quiet (status : Status) (body : ReplyBody) : Quiet s (s.form p tag status body []) :=
  .same (State.watched_eq_iff.mpr ⟨rfl, rfl, fun r => by rw [State.outstanding_form]; simp⟩)

/-- An entry that agrees is added under a free tag. -/
theorem State.agree_append {s t : State} {p : PortId} {e : Outstanding} (h : s.agree) (files : t.files = s.files)
    (cursors : t.cursors = s.cursors) (ht : s.tagFree p e.tag) (he : s.entryAgrees p e)
    (requests : ∀ r : PortId, t.ports[r].outstanding = s.ports[r].outstanding
      ∨ (r = p ∧ t.ports[r].outstanding = s.ports[p].outstanding ++ [e])) : t.agree := by
  refine State.agree_of_requests h files cursors (fun r => ?_) (fun r o ho => ?_)
  · rcases requests r with hr | ⟨-, hr⟩ <;> rw [hr]
    · exact h.tags r
    · rw [List.map_append, List.map_singleton, ← List.concat_eq_append]
      refine List.Nodup.concat (fun hm => ?_) (h.tags p)
      obtain ⟨o, ho, heq⟩ := List.mem_map.mp hm
      exact ht o ho heq
  · rcases requests r with hr | ⟨rfl, hr⟩ <;> rw [hr] at ho
    · exact .inl ho
    · rcases List.mem_append.mp ho with ho | ho
      · exact .inl ho
      · rw [List.mem_singleton] at ho
        exact .inr (ho ▸ he)

theorem State.takeEntry_handled (standing : Standing) (ht : s.tagFree p tag)
    (hs : s.agree → s.entryAgrees p ⟨tag, standing⟩) : Handled s (s.takeEntry p tag standing) :=
  .of_agree (.same (by rfl)) fun _ h => State.agree_append (e := ⟨tag, standing⟩) h rfl rfl ht (hs h) fun r => by
    rw [State.outstanding_takeEntry]
    split
    · next hr => exact .inr ⟨hr, rfl⟩
    · exact .inl rfl

theorem not_fetches_answered (tag : Byte) (c : CursorId) : ¬Outstanding.fetches ⟨tag, .answered⟩ c := by
  rintro (h | h) <;> cases h

theorem State.reply_handled (status : Status) (body : ReplyBody) (ht : s.tagFree p tag) :
    Handled s (s.reply p tag status body) :=
  .of_agree (.same (by rfl)) fun _ h => State.agree_append (e := ⟨tag, .answered⟩) h rfl rfl ht
    (State.entryAgrees_of_not_fetches (not_fetches_answered tag)) fun r => by
      rw [show s.reply p tag status body = s.form p tag status body [⟨tag, .answered⟩] from rfl, State.outstanding_form]
      split
      · next hr => exact .inr ⟨hr.1, by rw [hr.1]⟩
      · exact .inl (List.append_nil _)

/-- Freeing entries keeps the agreement. -/
theorem State.agree_of_sublist {s t : State} (h : s.agree) (files : t.files = s.files) (cursors : t.cursors = s.cursors)
    (requests : ∀ r : PortId, t.ports[r].outstanding.Sublist s.ports[r].outstanding) : t.agree :=
  State.agree_of_requests h files cursors (fun r => ((requests r).map _).nodup (h.tags r))
    (fun r _ ho => .inl ((requests r).subset ho))

theorem State.freeTag_handled : Handled s (s.freeTag p tag) :=
  .of_agree (.same (by rfl)) fun _ h => State.agree_of_sublist h rfl rfl fun r => by
    rw [State.outstanding_freeTag]
    split
    · next hr => rw [hr]; exact List.filter_sublist
    · exact .refl _

theorem State.answer_handled (status : Status) (body : ReplyBody) : Handled s (s.answer p tag status body) := by
  rcases s.answer_cases p tag status body with ⟨-, h⟩ | ⟨-, h⟩ <;> rw [h]
  · exact (s.freeTag_handled p tag).trans (State.reply_handled _ p tag status body (s.tagFree_freeTag p tag))
  · exact (s.form_nil_quiet p tag status body).toHandled

/-- A request that waits under a tag comes to stand otherwise. -/
theorem State.setStanding_handled (standing : Standing) (hs : s.agree → s.entryAgrees p ⟨tag, standing⟩) :
    Handled s (s.setStanding p tag standing) :=
  .of_agree (.same (by rfl)) fun _ h => by
    refine State.agree_of_requests h rfl rfl (fun r => ?_) (fun r o ho => ?_)
    · have htag : ∀ l : List Outstanding,
          (l.map (fun o => if o.tag = tag then ⟨tag, standing⟩ else o)).map (fun o => o.tag)
            = l.map (fun o => o.tag) := by
        intro l
        rw [List.map_map]
        refine List.map_congr_left fun o _ => ?_
        simp only [Function.comp]
        split
        · next ht => exact ht.symm
        · rfl
      rw [State.outstanding_setStanding]
      split
      · rw [htag]; exact h.tags p
      · exact h.tags r
    · rcases State.mem_setStanding ho with ho | ⟨rfl, rfl, -⟩
      · exact .inl ho
      · exact .inr (hs h)

end

end Sys2Proof.Machine
end

section
/-! PROOFS. The operations on cursors keep the agreement: gathering, the end of a fetch, the freeing of a cursor, held requests, the end of a read. -/

namespace Sys2Proof.Machine

/-! ## Gathering and the end of a fetch -/

/-- A cursor that differs in its place in the file and in its loaded segment only. -/
def Cursor.Moved (u v : Cursor) : Prop :=
  ∃ segment within nextOrdinal loaded, v = { u with segment, within, nextOrdinal, loaded }

theorem Cursor.Moved.refl (u : Cursor) : u.Moved u := ⟨_, _, _, _, rfl⟩

theorem Cursor.Moved.trans {u v w : Cursor} (h : u.Moved v) (k : v.Moved w) : u.Moved w := by
  obtain ⟨a, b, c, d, rfl⟩ := h
  obtain ⟨a', b', c', d', rfl⟩ := k
  exact ⟨a', b', c', d', rfl⟩

theorem State.nextSegment_moved (s : State) (u : Cursor) : u.Moved (s.nextSegment u) := ⟨_, _, _, _, rfl⟩

theorem State.passRecord_moved (s : State) (u : Cursor) (n : Nat) : u.Moved (s.passRecord u n) := by
  have h : u.Moved { u with within := u.within + 1, nextOrdinal := u.nextOrdinal + 1 } := ⟨_, _, _, _, rfl⟩
  unfold State.passRecord
  simp only
  split
  · exact h.trans (s.nextSegment_moved _)
  · exact h

/-- The cursor with which gathering stops. -/
def Gathered.cursor : Gathered → Cursor
  | .finished _ u _ => u
  | .enter _ u _ => u

theorem State.gather_moved (s : State) (room : Nat) (u : Cursor) (ds : List Delivered) :
    u.Moved (s.gather room u ds).cursor := by
  induction room generalizing u ds with
  | zero => exact .refl u
  | succ room ih =>
    unfold State.gather
    split
    · exact .refl u
    · exact .refl u
    · split
      · exact (s.passRecord_moved u _).trans (ih _ _)
      · exact (s.nextSegment_moved u).trans (ih _ _)

section
variable (s : State) (c : CursorId)

/-- The end of a fetch for which no request waits. -/
theorem State.endFetch_handled (p : PortId)
    (h : s.agree → s.cursors[c].isOpen = true ∧ s.unfetched c) : Handled s (s.endFetch p c) :=
  .of_agree (.same (by rfl)) fun _ ha =>
    State.setCursor_agree ha (h ha).1 (h ha).1 rfl rfl (fun q o ho hc => absurd hc ((h ha).2 q o ho))
      (fun h => nomatch h)

/-- With the requests under its fetch's tag gone, a cursor's fetch has no request that waits on it. -/
theorem State.agree.unfetched_of_tagFree {s : State} (h : s.agree) {c : CursorId} {p : PortId} {q : Fetch}
    (ho : s.cursors[c].owner = some p) (hq : s.cursors[c].fetch = some q) (ht : s.tagFree p q.tag) : s.unfetched c := by
  intro r o hm hc
  obtain ⟨-, h2, q', h3, h4⟩ := h.entry hm c hc
  obtain rfl : p = r := Option.some.inj (ho.symm.trans h2)
  obtain rfl : q = q' := Option.some.inj (hq.symm.trans h3)
  exact ht o hm h4.symm

theorem State.answerFetch_handled (status : Status) (skipped : Nat) : Handled s (s.answerFetch c status skipped) := by
  cases ho : s.cursors[c].owner with
  | none =>
    rw [show s.answerFetch c status skipped = s by simp only [State.answerFetch, ho]]
    exact .refl s
  | some p =>
  cases hq : s.cursors[c].fetch with
  | none =>
    rw [show s.answerFetch c status skipped = s by simp only [State.answerFetch, ho, hq]]
    exact .refl s
  | some q =>
  rcases State.answerFetch_cases status skipped ho hq with ⟨-, h⟩ | ⟨-, h, -⟩ <;> rw [h]
  · rcases (s.endFetch p c).answer_cases p q.tag status
      (.records q.gathered skipped s.cursors[c].nextOrdinal) with ⟨-, he⟩ | ⟨ht, he⟩ <;> rw [he]
    · refine Handled.trans (t := (s.freeTag p q.tag).endFetch p c) ?_
        (State.reply_handled _ p q.tag status _ (State.tagFree_freeTag (s.endFetch p c) p q.tag))
      refine (s.freeTag_handled p q.tag).trans (State.endFetch_handled _ c p fun ha => ⟨?_, ?_⟩)
      · exact ha.open_of_fetch (by rw [State.freeTag_cursors, hq]; simp)
      · exact ha.unfetched_of_tagFree (p := p) (q := q) ho hq (s.tagFree_freeTag p q.tag)
    · refine Handled.trans (s.endFetch_handled c p fun ha => ⟨?_, ?_⟩) (State.form_nil_quiet _ p _ _ _).toHandled
      · exact ha.open_of_fetch (by rw [hq]; simp)
      · exact ha.unfetched_of_tagFree (p := p) (q := q) ho hq ht
  · refine Handled.trans (s.setStanding_handled p q.tag (.delivering c) fun ha c' hc => ?_)
      (State.form_nil_quiet _ p _ _ _).toHandled
    obtain rfl : c = c' := by
      rcases hc with hc | hc <;> cases hc
      rfl
    exact ⟨ha.open_of_fetch (by rw [hq]; simp), ho, q, hq, rfl⟩

theorem State.serveFetch_handled : Handled s (s.serveFetch c).1 := by
  cases hq : s.cursors[c].fetch with
  | none =>
    rw [show s.serveFetch c = (s, true) by simp only [State.serveFetch, hq]]
    exact .refl s
  | some q =>
  have hm := s.gather_moved (q.limit - q.gathered.length) s.cursors[c] q.gathered
  have hfree : s.cursors[c] ≠ {} := fun h => by rw [h] at hq; cases hq
  unfold State.serveFetch
  simp only [hq]
  split
  · next status u ds he =>
    rw [he] at hm
    obtain ⟨w, x, y, z, hu⟩ := hm
    obtain rfl : u = _ := hu
    refine Handled.trans (Quiet.toHandled (s.setCursor_quiet c _ ?_)) (State.answerFetch_handled _ c _ _)
    exact ⟨rfl, rfl, rfl, by rw [hq]; rfl, id, fun h => absurd h hfree⟩
  · next n u ds he =>
    rw [he] at hm
    obtain ⟨w, x, y, z, hu⟩ := hm
    obtain rfl : u = _ := hu
    refine Quiet.toHandled (Quiet.trans (s.setCursor_quiet c _ ?_) (State.askRead_quiet _ c n))
    exact ⟨rfl, rfl, rfl, by rw [hq]; rfl, id, fun h => absurd h hfree⟩

theorem State.takeFetch_handled (p : PortId) (tag : Byte) (count : Nat) (ht : s.tagFree p tag)
    (h : s.agree → s.ownsCursor p c = true ∧ s.unfetched c) : Handled s (s.takeFetch p tag c count).1 := by
  refine Handled.trans (t := (s.updateCursor c (fun u =>
    { u with idle := .stopped, fetch := some { tag, limit := min count 64 } })).takeEntry p tag (.fetching c)) ?_
    (State.serveFetch_handled _ c)
  refine .of_agree (.same (by rfl)) fun _ ha => ?_
  obtain ⟨hown, hun⟩ := h ha
  simp only [State.ownsCursor, Bool.and_eq_true, decide_eq_true_eq] at hown
  obtain ⟨hopen, hp⟩ := hown
  have ha' : (s.updateCursor c (fun u =>
      { u with idle := .stopped, fetch := some { tag, limit := min count 64 } })).agree :=
    State.setCursor_agree ha hopen hopen rfl rfl (fun q o ho hc => absurd hc (hun q o ho)) (fun _ => rfl)
  refine State.agree_append (e := ⟨tag, .fetching c⟩) ha' rfl rfl ht (fun c' hc => ?_) fun r => ?_
  · obtain rfl : c = c' := by
      rcases hc with hc | hc <;> cases hc
      rfl
    have hsame : (s.updateCursor c (fun u =>
        { u with idle := .stopped, fetch := some { tag, limit := min count 64 } })).cursors[c]
          = { s.cursors[c] with idle := .stopped, fetch := some { tag, limit := min count 64 } } := by simp
    rw [hsame]
    exact ⟨hopen, hp, _, rfl, rfl⟩
  · rw [State.outstanding_takeEntry]
    split
    · next hr => exact .inr ⟨hr, rfl⟩
    · exact .inl rfl

/-! ## The freeing of a cursor -/

/-- A cursor freed, its reads abandoned, its file not yet unpinned (R143, R144). -/
def State.releaseCursor (s : State) (c : CursorId) : State := (s.abandonRead c).setCursor c {}

/-- A file's entry with one pin less (R16). -/
def File.unpinned (f : File) : File := { f with pinCount := f.pinCount - 1 }

/-- All that the freeing of a cursor can do (R143): with a pinned file, the pin count falls and, where it falls to 0
on an EXPIRING file, the pin-release reclaim follows; otherwise only the cursor is freed. -/
theorem State.freeCursorOf_cases :
    (∃ i f, s.cursors[c].fileIndex = some i ∧ s.file i = some f ∧ 0 < f.pinCount
        ∧ s.freeCursorOf c = if f.pinCount = 1 ∧ f.state = .expiring
            then ((s.releaseCursor c).setFile i f.unpinned).pinReleased i
            else (s.releaseCursor c).setFile i f.unpinned)
      ∨ ((∀ i f, s.cursors[c].fileIndex = some i → s.file i = some f → f.pinCount = 0)
        ∧ s.freeCursorOf c = s.releaseCursor c) := by
  cases hi : s.cursors[c].fileIndex with
  | none =>
    refine .inr ⟨fun i f h => (nomatch h), ?_⟩
    simp only [State.freeCursorOf, hi]
    rfl
  | some i =>
  have hdef : s.freeCursorOf c = match (s.releaseCursor c).unpin i with
      | some (0, .expiring, t) => t.pinReleased i
      | some (_, _, t) => t
      | none => s.releaseCursor c := by
    simp only [State.freeCursorOf, hi]
    rfl
  rcases (s.releaseCursor c).unpin_cases i with ⟨f, hf, hp, hu⟩ | hu
  · refine .inl ⟨i, f, rfl, hf, hp, ?_⟩
    rw [hdef, hu, show { f with pinCount := f.pinCount - 1 } = f.unpinned from rfl]
    split
    · next t h =>
      obtain ⟨hn, hs, rfl⟩ : f.pinCount - 1 = 0 ∧ f.state = .expiring ∧ _ = t := by simpa using h
      rw [if_pos ⟨by omega, hs⟩]
    · next n st t hno h =>
      obtain ⟨rfl, rfl, rfl⟩ : f.pinCount - 1 = n ∧ f.state = st ∧ _ = t := by simpa using h
      rw [if_neg]
      rintro ⟨h1, h2⟩
      exact hno (by rw [h1]) h2
    · next h => cases h
  · refine .inr ⟨fun j f hj hf => ?_, by rw [hdef, hu]⟩
    obtain rfl : i = j := Option.some.inj hj
    have hf' : (s.releaseCursor c).file i = some f := hf
    by_contra hne
    simp [State.unpin, hf', hne] at hu

theorem State.freeCursorOf_of_fileIndex_none (h : s.cursors[c].fileIndex = none) :
    s.freeCursorOf c = s.releaseCursor c := by
  rcases s.freeCursorOf_cases c with ⟨i, f, hi, -⟩ | ⟨-, he⟩
  · rw [h] at hi
    cases hi
  · exact he

theorem State.releaseCursor_formed : Formed s (s.releaseCursor c) := .same (by rfl)

theorem State.cursors_releaseCursor (c' : CursorId) :
    (s.releaseCursor c).cursors[c'] = if c' = c then {} else s.cursors[c'] := by
  split
  · next h => subst h; simp [State.releaseCursor]
  · next h => simp [State.releaseCursor, getElem_set_fin_ne _ _ _ _ (Ne.symm h), State.abandonRead]

/-- The cursor and its pin go together, and the agreement stays. -/
theorem State.agree_unpinned {s : State} {c : CursorId} {i : Nat} {f : File} (h : s.agree) (hun : s.unfetched c)
    (ho : s.cursors[c].isOpen = true) (hi : s.cursors[c].fileIndex = some i) (hf : s.file i = some f) :
    ((s.releaseCursor c).setFile i f.unpinned).agree := by
  set t := (s.releaseCursor c).setFile i f.unpinned with ht
  have hfile : ∀ j, t.file j = if j = i then some f.unpinned else s.file j :=
    fun j => State.file_setFile _ i j _
  have hcur : ∀ c' : CursorId, t.cursors[c'] = if c' = c then {} else s.cursors[c'] := s.cursors_releaseCursor c
  have hset : ∀ j, t.cursorSet j = (s.cursorSet j).erase c := by
    intro j
    ext c'
    rw [State.mem_cursorSet, Finset.mem_erase, State.mem_cursorSet, hcur]
    split
    · next he => simp [he]
    · next he => simp [he]
  have hne : ∀ c' : CursorId, t.cursors[c'].isOpen = true → c' ≠ c ∧ s.cursors[c'].isOpen = true := by
    intro c' h'
    rw [hcur] at h'
    split at h'
    · cases h'
    · next he => exact ⟨he, h'⟩
  refine ⟨State.pinsAgree_of (fun j => ?_) (fun c' h' => ?_) (fun c' h' => ?_),
    fun p => ⟨h.tags p, fun o hm c' hc' => ?_⟩, fun c' hq => ?_⟩
  · have hcard := h.1.card j
    rw [hset, hfile]
    by_cases hj : j = i
    · subst hj
      rw [hf] at hcard
      rw [if_pos rfl, Finset.card_erase_of_mem (State.mem_cursorSet.mpr ⟨ho, hi⟩), hcard]
      rfl
    · rw [if_neg hj, Finset.erase_eq_of_notMem, hcard]
      intro hm
      exact hj (Option.some.inj ((State.mem_cursorSet.mp hm).2.symm.trans hi))
  · obtain ⟨hcc, hopen⟩ := hne c' h'
    obtain ⟨h1, j, g, h2, h3, h4⟩ := h.1.of_open hopen
    rw [hcur, if_neg hcc]
    refine ⟨h1, j, ?_⟩
    by_cases hj : j = i
    · subst hj
      obtain rfl : f = g := Option.some.inj (hf.symm.trans h3)
      exact ⟨f.unpinned, h2, by rw [hfile, if_pos rfl], h4⟩
    · exact ⟨g, h2, by rw [hfile, if_neg hj]; exact h3, h4⟩
  · rw [hcur] at h' ⊢
    split
    · rfl
    · next he =>
      rw [if_neg he] at h'
      exact h.1.free h'
  · have hm : o ∈ s.ports[p].outstanding := hm
    have hcc : c' ≠ c := fun he => hun p o hm (he ▸ hc')
    rw [hcur, if_neg hcc]
    exact h.entry hm c' hc'
  · rw [hcur] at hq ⊢
    split
    · rfl
    · next he =>
      rw [if_neg he] at hq
      exact h.2.2 c' hq

/-- The freeing of a cursor on whose fetch no request waits. -/
theorem State.freeCursorOf_handled (h : s.agree → s.unfetched c) : Handled s (s.freeCursorOf c) := by
  rcases s.freeCursorOf_cases c with ⟨i, f, hi, hf, hp, he⟩ | ⟨hz, he⟩
  · have hu : Handled s ((s.releaseCursor c).setFile i f.unpinned) := by
      refine .of_agree ((s.releaseCursor_formed c).trans (Formed.setFile (f := f) hf (by rfl))) fun _ ha => ?_
      refine State.agree_unpinned ha (h ha) ?_ hi hf
      by_contra ho
      rw [ha.1.free ho] at hi
      cases hi
    rw [he]
    split
    · exact hu.trans (State.pinReleased_quiet _ i).toHandled
    · exact hu
  · rw [he]
    refine .of_agree (s.releaseCursor_formed c) fun _ ha => ?_
    have hfree : s.cursors[c] = {} := by
      refine ha.1.free fun ho => ?_
      obtain ⟨-, i, f, hi, hf, -⟩ := ha.1.of_open ho
      have hcard := ha.1.card i
      rw [hf] at hcard
      simp only [hz i f hi hf, Finset.card_eq_zero] at hcard
      exact Finset.notMem_empty c (hcard ▸ State.mem_cursorSet.mpr ⟨ho, hi⟩)
    refine State.agree_of_sublist ha rfl ?_ (fun _ => List.Sublist.refl _)
    refine Vector.ext fun k hk => ?_
    have := s.cursors_releaseCursor c ⟨k, hk⟩
    simp only [Fin.getElem_fin] at this
    rw [this]
    split
    · next heq => subst heq; simpa using hfree.symm
    · rfl

theorem State.outstanding_freeCursorOf (p : PortId) :
    (s.freeCursorOf c).ports[p].outstanding = s.ports[p].outstanding := by
  rcases s.freeCursorOf_cases c with ⟨i, f, -, -, -, he⟩ | ⟨-, he⟩ <;> rw [he]
  · split
    · exact (State.pinReleased_quiet _ i).requests p
    · rfl
  · rfl

/-! ## Requests held behind a fetch -/

theorem State.cursorTaken_eq_false {s : State} {p : PortId} {c : CursorId} (h : s.cursorTaken p c = false) :
    ∀ o ∈ s.ports[p].outstanding, ¬o.fetches c := by
  intro o ho hc
  have := List.any_eq_false.mp h o ho
  rcases hc with hc | hc <;> simp [hc, Standing.cursor, Standing.held] at this

theorem State.unfetched_of_owner {s : State} (h : s.agree) {p : PortId} {c : CursorId} (ho : s.ownsCursor p c = true)
    (hp : ∀ o ∈ s.ports[p].outstanding, ¬o.fetches c) : s.unfetched c := by
  intro r o hm hc
  obtain ⟨-, h2, -⟩ := h.entry hm c hc
  simp only [State.ownsCursor, Bool.and_eq_true, decide_eq_true_eq] at ho
  obtain rfl : p = r := Option.some.inj (ho.2.symm.trans h2)
  exact hp o hm hc

/-- A request held behind cursor `c` of a port on which no taken request names it. -/
theorem State.takeHeldRequest_handled (p : PortId) {o : Outstanding} (hc : o.standing.cursor = some c)
    (ht : s.cursorTaken p c = false) : Handled s (s.takeHeldRequest p o) := by
  have hfree := s.tagFree_freeTag p o.tag
  have hp : ∀ e ∈ (s.freeTag p o.tag).ports[p].outstanding, ¬e.fetches c := fun e he =>
    State.cursorTaken_eq_false ht e (State.mem_freeTag he).1
  refine (s.freeTag_handled p o.tag).trans ?_
  unfold State.takeHeldRequest
  simp only
  split
  · exact State.reply_handled _ p o.tag _ _ hfree
  split
  · next c' n hs =>
    obtain rfl : c' = c := by rw [hs] at hc; exact Option.some.inj hc
    split
    · next hown =>
      exact State.takeFetch_handled _ c' p o.tag n hfree fun ha => ⟨hown, State.unfetched_of_owner ha hown hp⟩
    · exact State.reply_handled _ p o.tag _ _ hfree
  · next c' hs =>
    obtain rfl : c' = c := by rw [hs] at hc; exact Option.some.inj hc
    split
    · next hown =>
      refine (State.freeCursorOf_handled _ c' fun ha => State.unfetched_of_owner ha hown hp).trans
        (State.reply_handled _ p o.tag _ _ fun e he => ?_)
      rw [State.outstanding_freeCursorOf] at he
      exact hfree e he
    · exact State.reply_handled _ p o.tag _ _ hfree
  · exact .refl _

theorem State.firstHeld_some {s : State} {p : PortId} {c : CursorId} {o : Outstanding} (h : s.firstHeld p c = some o) :
    o ∈ s.ports[p].outstanding ∧ o.standing.cursor = some c ∧ o.standing.held = true := by
  have := List.find?_some h
  simp only [Bool.and_eq_true, decide_eq_true_eq] at this
  exact ⟨List.mem_of_find?_eq_some h, this⟩

theorem State.takeHeld_handled (p : PortId) (n : Nat) : Handled s (State.takeHeld p c n s) := by
  induction n generalizing s with
  | zero => exact .refl s
  | succ n ih =>
    unfold State.takeHeld
    split
    · exact .refl s
    next ht =>
    split
    · exact .refl s
    · next o ho =>
      exact (s.takeHeldRequest_handled c p (State.firstHeld_some ho).2.1 (by simpa using ht)).trans (ih _)

/-! ## The end of a retrieval read -/

@[simp] theorem State.recordQuarantine_cursors (kind : TrailKind) (i : Nat) :
    (s.recordQuarantine kind i).cursors = s.cursors := by
  unfold State.recordQuarantine
  split <;> rfl

@[simp] theorem State.countSuspect_cursors (i : Nat) (change : Nat → Nat) :
    (s.countSuspect i change).cursors = s.cursors := by
  unfold State.countSuspect
  split <;> rfl

theorem State.reportDamage_cursors (f : Finding) : (s.reportDamage f).1.cursors = s.cursors := by
  unfold State.reportDamage
  split
  next t owed h =>
  have ht : t.cursors = s.cursors := by
    split at h <;> cases h <;> rfl
  simp only
  split
  · simpa using ht
  · exact ht

theorem State.markSuspect_cursors {s t : State} {n a i : Nat} {b : Bool} (h : s.markSuspect n a i b = some t) :
    t.cursors = s.cursors := by
  unfold State.markSuspect at h
  simp only at h
  split at h
  · cases h
  split at h
  · cases h
    simp
  · cases h
    split <;> rfl
  · cases h

theorem State.takeDamage_cursors (n a i : Nat) (kind : FindingKind) (values : Option (Nat × Nat)) :
    (s.takeDamage n a i kind values).cursors = s.cursors := by
  unfold State.takeDamage
  split
  · have hr := s.reportDamage_cursors (s.findingFor kind .retrieval n i values)
    simp only
    cases hm : State.markSuspect _ n a i _ with
    | none => exact hr
    | some t => exact (State.markSuspect_cursors hm).trans hr
  · rfl

theorem State.takeDamage_quiet (n a i : Nat) (kind : FindingKind) (values : Option (Nat × Nat)) :
    Quiet s (s.takeDamage n a i kind values) := by
  unfold State.takeDamage
  split
  · exact (s.reportDamage_quiet _).trans (Quiet.getD fun t h => State.markSuspect_quiet h)
  · exact .refl s

theorem State.retrievalRead_handled (report : ReadReport) : Handled s (s.retrievalRead c report).1 := by
  unfold State.retrievalRead
  simp only
  split
  · next read i hr hi =>
    have hfree : s.cursors[c] ≠ {} := fun h => by rw [h] at hr; cases hr
    split
    · refine Handled.trans (Quiet.toHandled (s.setCursor_quiet c _ ?_)) (State.serveFetch_handled _ c)
      exact ⟨rfl, rfl, rfl, rfl, id, fun h => absurd h hfree⟩
    · refine (s.takeDamage_quiet _ _ _ _ _).toHandled.trans
        (Handled.trans (Quiet.toHandled (State.setCursor_quiet _ c _ ?_)) (State.answerFetch_handled _ c _ _))
      rw [State.takeDamage_cursors]
      exact ⟨rfl, rfl, rfl, rfl, id, fun h => absurd h hfree⟩
  · exact .refl s

theorem State.endRetrievalRead_handled (live : Bool) (report : ReadReport) :
    Handled s (s.endRetrievalRead c live report) := by
  have hr := s.retrievalRead_handled c report
  unfold State.endRetrievalRead
  split
  · simp only
    split
    · next owner t p h _ =>
      rw [h] at hr
      exact (hr.trans (t.takeHeld_handled c p _)).trans (State.endStore_quiet _).toHandled
    · next t b h _ =>
      rw [h] at hr
      exact hr.trans t.endStore_quiet.toHandled
  · exact s.endStore_quiet.toHandled

end

end Sys2Proof.Machine
end

section
/-! PROOFS. What the service of one cursor leaves alone, and the walks over cursors. -/

namespace Sys2Proof.Machine

/-! ## What the service of one cursor's requests leaves alone -/

/-- From `s` on, only the requests that name cursor `c` were served: an entry of a table stood there in `s`, or its
tag did and it waits on no fetch but that of `c`; a cursor that is OPEN was so for the same port; the others are OPEN
as before. -/
structure Serves (c : CursorId) (s t : State) : Prop where
  entries : ∀ p : PortId, ∀ o ∈ t.ports[p].outstanding, o ∈ s.ports[p].outstanding
    ∨ ((∃ o' ∈ s.ports[p].outstanding, o'.tag = o.tag) ∧ ∀ c', o.fetches c' → c' = c)
  owners : ∀ c' : CursorId, t.cursors[c'].isOpen = true →
    s.cursors[c'].isOpen = true ∧ t.cursors[c'].owner = s.cursors[c'].owner
  others : ∀ c' : CursorId, c' ≠ c → t.cursors[c'].isOpen = s.cursors[c'].isOpen

section
variable {s₀ s t : State} {c : CursorId}

theorem Serves.refl : Serves c s s := ⟨fun _ _ ho => .inl ho, fun _ h => ⟨h, rfl⟩, fun _ _ => rfl⟩

/-- Every tag of a table stood in it. -/
theorem Serves.tag (h : Serves c s₀ s) {p : PortId} {o : Outstanding} (ho : o ∈ s.ports[p].outstanding) :
    ∃ o' ∈ s₀.ports[p].outstanding, o'.tag = o.tag := by
  rcases h.entries p o ho with hs | ⟨hs, -⟩
  · exact ⟨o, hs, rfl⟩
  · exact hs

theorem Serves.tagFree (h : Serves c s₀ s) {p : PortId} {tag : Byte} (ht : s₀.tagFree p tag) : s.tagFree p tag := by
  intro o ho he
  obtain ⟨o', ho', he'⟩ := h.tag ho
  exact ht o' ho' (he'.trans he)

/-- Requests that wait on the fetch of another cursor stood there already. -/
theorem Serves.unfetched (h : Serves c s₀ s) {c' : CursorId} (hc : c' ≠ c) (hu : s₀.unfetched c') : s.unfetched c' := by
  intro p o ho hf
  rcases h.entries p o ho with hs | ⟨-, hs⟩
  · exact hu p o hs hf
  · exact hc (hs c' hf)

/-- A further operation: its entries are known or stand under a known tag for this cursor alone, its OPEN cursors were
OPEN. -/
theorem Serves.next (h : Serves c s₀ s)
    (entries : ∀ p : PortId, ∀ o ∈ t.ports[p].outstanding, o ∈ s.ports[p].outstanding
      ∨ ((∃ o' ∈ s₀.ports[p].outstanding, o'.tag = o.tag) ∧ ∀ c', o.fetches c' → c' = c))
    (owners : ∀ c' : CursorId, t.cursors[c'].isOpen = true →
      s.cursors[c'].isOpen = true ∧ t.cursors[c'].owner = s.cursors[c'].owner)
    (others : ∀ c' : CursorId, c' ≠ c → t.cursors[c'].isOpen = s.cursors[c'].isOpen) : Serves c s₀ t where
  entries p o ho := by
    rcases entries p o ho with he | he
    · exact h.entries p o he
    · exact .inr he
  owners c' ho := by
    obtain ⟨h1, h2⟩ := owners c' ho
    obtain ⟨h3, h4⟩ := h.owners c' h1
    exact ⟨h3, h2.trans h4⟩
  others c' hc := (others c' hc).trans (h.others c' hc)

theorem Serves.quiet (h : Serves c s₀ s) (q : Quiet s t) : Serves c s₀ t :=
  h.next (fun p o ho => .inl (by rwa [q.requests p] at ho))
    (fun c' ho => ⟨(q.cursors c').isOpen ▸ ho, (q.cursors c').owner⟩) (fun c' _ => (q.cursors c').isOpen)

/-- Entries change under known tags. -/
theorem Serves.requests (h : Serves c s₀ s) (cursors : t.cursors = s.cursors)
    (entries : ∀ p : PortId, ∀ o ∈ t.ports[p].outstanding, o ∈ s.ports[p].outstanding
      ∨ ((∃ o' ∈ s₀.ports[p].outstanding, o'.tag = o.tag) ∧ ∀ c', o.fetches c' → c' = c)) : Serves c s₀ t :=
  h.next entries (fun c' ho => by rw [cursors] at ho ⊢; exact ⟨ho, rfl⟩) (fun c' _ => by rw [cursors])

theorem Serves.freeTag (h : Serves c s₀ s) (p : PortId) (tag : Byte) : Serves c s₀ (s.freeTag p tag) :=
  h.requests rfl fun _ _ ho => .inl (State.mem_freeTag ho).1

theorem Serves.reply (h : Serves c s₀ s) {p : PortId} {tag : Byte} (status : Status) (body : ReplyBody)
    (ht : ∃ o ∈ s₀.ports[p].outstanding, o.tag = tag) : Serves c s₀ (s.reply p tag status body) :=
  h.requests rfl fun r o ho => by
    rcases State.mem_form ho with ho | ⟨rfl, he⟩
    · exact .inl ho
    · rw [List.mem_singleton] at he
      subst he
      exact .inr ⟨ht, fun c' hc => absurd hc (not_fetches_answered tag c')⟩

theorem Serves.answer (h : Serves c s₀ s) (p : PortId) (tag : Byte) (status : Status) (body : ReplyBody) :
    Serves c s₀ (s.answer p tag status body) := by
  rcases s.answer_cases p tag status body with ⟨⟨o, ho, rfl⟩, he⟩ | ⟨-, he⟩ <;> rw [he]
  · exact (h.freeTag p o.tag).reply status body (h.tag ho)
  · exact h.quiet (s.form_nil_quiet p tag status body)

theorem Serves.setCursor (h : Serves c s₀ s) {v : Cursor} (isOpen : v.isOpen = true → s.cursors[c].isOpen = true)
    (owner : v.isOpen = true → v.owner = s.cursors[c].owner) : Serves c s₀ (s.setCursor c v) := by
  have hother : ∀ c', c ≠ c' → (s.setCursor c v).cursors[c'] = s.cursors[c'] := fun c' hc => by
    simp [getElem_set_fin_ne _ _ _ _ hc]
  refine h.next (fun _ _ ho => .inl ho) (fun c' ho => ?_) (fun c' hc => by rw [hother c' (Ne.symm hc)])
  by_cases hc : c = c'
  · subst hc
    have hsame : (s.setCursor c v).cursors[c] = v := by simp
    rw [hsame] at ho ⊢
    exact ⟨isOpen ho, owner ho⟩
  · rw [hother c' hc] at ho ⊢
    exact ⟨ho, rfl⟩

theorem Serves.endFetch (h : Serves c s₀ s) (p : PortId) : Serves c s₀ (s.endFetch p c) := h.setCursor id fun _ => rfl

theorem Serves.answerFetch (h : Serves c s₀ s) (status : Status) (skipped : Nat) :
    Serves c s₀ (s.answerFetch c status skipped) := by
  unfold State.answerFetch
  simp only
  split
  · split
    · refine Serves.quiet ?_ (State.form_nil_quiet _ _ _ _ _)
      refine h.requests rfl fun r o hm => ?_
      rcases State.mem_setStanding hm with hm | ⟨rfl, rfl, o', ho', ht⟩
      · exact .inl hm
      · obtain ⟨o'', ho'', ht'⟩ := h.tag ho'
        refine .inr ⟨⟨o'', ho'', ht'.trans ht⟩, fun c' hc => ?_⟩
        rcases hc with hc | hc <;> cases hc
        rfl
    · exact (h.endFetch _).answer _ _ _ _
  · exact h

theorem Serves.serveFetch (h : Serves c s₀ s) : Serves c s₀ (s.serveFetch c).1 := by
  unfold State.serveFetch
  simp only
  split
  · exact h
  next q hq =>
  have hm := s.gather_moved (q.limit - q.gathered.length) s.cursors[c] q.gathered
  split
  · next status u ds he =>
    rw [he] at hm
    obtain ⟨_, _, _, _, hu⟩ := hm
    obtain rfl : u = _ := hu
    refine Serves.answerFetch (h.setCursor ?_ ?_) _ _
    · exact id
    · exact fun _ => rfl
  · next n u ds he =>
    rw [he] at hm
    obtain ⟨_, _, _, _, hu⟩ := hm
    obtain rfl : u = _ := hu
    refine Serves.quiet (h.setCursor ?_ ?_) (State.askRead_quiet _ c n)
    · exact id
    · exact fun _ => rfl

theorem Serves.takeFetch (h : Serves c s₀ s) {p : PortId} {tag : Byte} (count : Nat)
    (ht : ∃ o ∈ s₀.ports[p].outstanding, o.tag = tag) : Serves c s₀ (s.takeFetch p tag c count).1 := by
  have h1 : Serves c s₀ (s.updateCursor c (fun u =>
      { u with idle := .stopped, fetch := some { tag, limit := min count 64 } })) := h.setCursor id fun _ => rfl
  refine Serves.serveFetch (s := (s.updateCursor c (fun u =>
    { u with idle := .stopped, fetch := some { tag, limit := min count 64 } })).takeEntry p tag (.fetching c)) ?_
  refine h1.requests rfl fun r o ho => ?_
  rcases State.mem_takeEntry ho with ho | ⟨rfl, rfl⟩
  · exact .inl ho
  · refine .inr ⟨ht, fun c' hc => ?_⟩
    rcases hc with hc | hc <;> cases hc
    rfl

theorem Serves.freeCursorOf (h : Serves c s₀ s) : Serves c s₀ (s.freeCursorOf c) := by
  have hr : Serves c s₀ (s.releaseCursor c) := by
    refine Serves.setCursor (h.quiet (t := s.abandonRead c) (.same (by rfl))) (fun h => ?_) (fun h => ?_) <;> cases h
  rcases s.freeCursorOf_cases c with ⟨i, f, -, -, -, he⟩ | ⟨-, he⟩ <;> rw [he]
  · have hf : Serves c s₀ ((s.releaseCursor c).setFile i f.unpinned) := hr.requests rfl fun _ _ ho => .inl ho
    split
    · exact hf.quiet (State.pinReleased_quiet _ i)
    · exact hf
  · exact hr

theorem Serves.takeHeldRequest (h : Serves c s₀ s) {p : PortId} {o : Outstanding} (hc : o.standing.cursor = some c)
    (ho : o ∈ s.ports[p].outstanding) : Serves c s₀ (s.takeHeldRequest p o) := by
  have ht := h.tag ho
  have hf := h.freeTag p o.tag
  unfold State.takeHeldRequest
  simp only
  split
  · exact hf.reply _ _ ht
  split
  · next c' n hs =>
    obtain rfl : c' = c := by rw [hs] at hc; exact Option.some.inj hc
    split
    · exact hf.takeFetch n ht
    · exact hf.reply _ _ ht
  · next c' hs =>
    obtain rfl : c' = c := by rw [hs] at hc; exact Option.some.inj hc
    split
    · exact hf.freeCursorOf.reply _ _ ht
    · exact hf.reply _ _ ht
  · exact hf

theorem Serves.takeHeld (h : Serves c s₀ s) (p : PortId) (n : Nat) : Serves c s₀ (State.takeHeld p c n s) := by
  induction n generalizing s with
  | zero => exact h
  | succ n ih =>
    unfold State.takeHeld
    split
    · exact h
    split
    · exact h
    · next o ho =>
      obtain ⟨hm, hc, -⟩ := State.firstHeld_some ho
      exact ih (h.takeHeldRequest hc hm)

end

/-! ## Walks over cursors -/

theorem Formed.foldl {α : Type} {f : State → α → State} (h : ∀ s a, Formed s (f s a)) (l : List α) (s : State) :
    Formed s (l.foldl f s) := by
  induction l generalizing s with
  | nil => exact .refl s
  | cons a l ih => exact (h s a).trans (ih _)

/-- A walk keeps form and agreement when each of its steps does, under a condition that it carries along. -/
theorem Handled.foldl {α : Type} {f : State → α → State} (P : State → List α → Prop) (l : List α) (s : State)
    (formed : ∀ s a, Formed s (f s a))
    (agree : ∀ s a l, s.canonical = true → s.agree → P s (a :: l) → (f s a).agree ∧ P (f s a) l)
    (h : s.agree → P s l) : Handled s (l.foldl f s) where
  toFormed := Formed.foldl formed l s
  agree hc ha := by
    have hp := h ha
    clear h
    induction l generalizing s with
    | nil => exact ha
    | cons a l ih =>
      obtain ⟨ha', hp'⟩ := agree s a l hc ha hp
      exact ih (f s a) ((formed s a).canonical hc) ha' hp'

theorem State.freeCursorOf_formed (s : State) (c : CursorId) : Formed s (s.freeCursorOf c) := by
  rcases s.freeCursorOf_cases c with ⟨i, f, -, hf, -, he⟩ | ⟨-, he⟩ <;> rw [he]
  · have h := (s.releaseCursor_formed c).trans (Formed.setFile (f := f) (g := f.unpinned) hf (by rfl))
    split
    · exact h.trans (State.pinReleased_quiet _ i).toFormed
    · exact h
  · exact s.releaseCursor_formed c

/-- Cursors on whose fetches no request waits are freed one after the other. -/
theorem State.freeCursors_handled (s : State) (l : List CursorId) (h : s.agree → ∀ c ∈ l, s.unfetched c) :
    Handled s (l.foldl State.freeCursorOf s) := by
  refine Handled.foldl (fun s l => ∀ c ∈ l, s.unfetched c) l s State.freeCursorOf_formed (fun s c l hc ha hl => ?_) h
  refine ⟨(s.freeCursorOf_handled c fun _ => hl c (List.mem_cons_self ..)).agree hc ha, fun c' hm p o ho => ?_⟩
  rw [State.outstanding_freeCursorOf] at ho
  exact hl c' (List.mem_cons_of_mem _ hm) p o ho

theorem State.finishFetch_formed (s : State) (p : PortId) (c : CursorId) : Formed s (s.finishFetch p c) :=
  Formed.trans (t := s.endFetch p c) (.same (by rfl)) (State.takeHeld_handled _ c p _).toFormed

/-- The fetches whose replies were sent end one after the other, the requests held behind each being taken. -/
theorem State.finishFetches_handled (s : State) (p : PortId) (l : List CursorId)
    (h : s.agree → l.Nodup ∧ ∀ c ∈ l, s.cursors[c].isOpen = true ∧ s.unfetched c) :
    Handled s (l.foldl (fun t c => t.finishFetch p c) s) := by
  refine Handled.foldl (fun s l => l.Nodup ∧ ∀ c ∈ l, s.cursors[c].isOpen = true ∧ s.unfetched c) l s
    (fun s c => s.finishFetch_formed p c) (fun s c l hc ha hl => ?_) h
  obtain ⟨hn, hl⟩ := hl
  obtain ⟨hcl, hn⟩ := List.nodup_cons.mp hn
  refine ⟨((s.endFetch_handled c p fun _ => hl c (List.mem_cons_self ..)).trans
    (State.takeHeld_handled _ c p _)).agree hc ha, hn, fun c' hm => ?_⟩
  have hne : c' ≠ c := fun he => hcl (he ▸ hm)
  have hs : Serves c s (s.finishFetch p c) := (Serves.refl.endFetch p).takeHeld p _
  obtain ⟨ho, hu⟩ := hl c' (List.mem_cons_of_mem _ hm)
  exact ⟨(hs.others c' hne).trans ho, hs.unfetched hne hu⟩

theorem State.outstanding_emptyLine (s : State) (p r : PortId) :
    (s.emptyLine p).ports[r].outstanding
      = if r = p then s.ports[p].outstanding.filter (fun o => !o.standing.formed) else s.ports[r].outstanding :=
  s.outstanding_setPort p r _

theorem State.emptyLine_handled (s : State) (p : PortId) : Handled s (s.emptyLine p) :=
  .of_agree (.same (by rfl)) fun _ h => State.agree_of_sublist h rfl rfl fun r => by
    rw [State.outstanding_emptyLine]
    split
    · next hr => rw [hr]; exact List.filter_sublist
    · exact .refl _

theorem Standing.delivers_eq_some {st : Standing} {c : CursorId} : st.delivers = some c ↔ st = .delivering c := by
  cases st <;> simp [Standing.delivers]

/-- The cursors whose fetches' replies wait on a port's line differ. -/
theorem State.agree.delivering_nodup {s : State} (h : s.agree) (p : PortId) :
    (s.ports[p].outstanding.filterMap (fun o => o.standing.delivers)).Nodup := by
  have htags : ∀ l : List Outstanding, (∀ o ∈ l, o ∈ s.ports[p].outstanding) → (l.map (fun o => o.tag)).Nodup →
      (l.filterMap (fun o => o.standing.delivers)).Nodup := by
    intro l hl hn
    induction l with
    | nil => exact List.nodup_nil
    | cons o l ih =>
      obtain ⟨ho, hn⟩ := List.nodup_cons.mp hn
      have ih := ih (fun o' ho' => hl o' (List.mem_cons_of_mem _ ho')) hn
      cases hd : o.standing.delivers with
      | none => simpa only [List.filterMap_cons, hd] using ih
      | some c =>
        simp only [List.filterMap_cons, hd]
        refine List.nodup_cons.mpr ⟨fun hm => ho ?_, ih⟩
        obtain ⟨o', hm', hd'⟩ := List.mem_filterMap.mp hm
        obtain ⟨-, -, q, hq, ht⟩ := h.entry (hl o (List.mem_cons_self ..)) c (.inr (Standing.delivers_eq_some.mp hd))
        obtain ⟨-, -, q', hq', ht'⟩ :=
          h.entry (hl o' (List.mem_cons_of_mem _ hm')) c (.inr (Standing.delivers_eq_some.mp hd'))
        obtain rfl : q = q' := Option.some.inj (hq.symm.trans hq')
        exact List.mem_map.mpr ⟨o', hm', ht'.symm.trans ht⟩
  exact htags _ (fun _ ho => ho) (h.tags p)

/-- Replies that leave a line end their fetches; the agreement of the state they leave is what the walk starts from. -/
theorem State.sendWaiting_handled (s : State) (p : PortId) : Handled s (s.sendWaiting p) := by
  refine .of_agree ?_ fun hc h => ?_
  · exact (s.emptyLine_handled p).toFormed.trans (Formed.foldl (fun s c => s.finishFetch_formed p c) _ _)
  · refine (State.finishFetches_handled (s.emptyLine p) p _ fun _ => ⟨h.delivering_nodup p, fun c hm => ?_⟩).agree
      ((s.emptyLine_handled p).canonical hc) ((s.emptyLine_handled p).agree hc h)
    obtain ⟨o, ho, hd⟩ := List.mem_filterMap.mp hm
    have hd := Standing.delivers_eq_some.mp hd
    obtain ⟨h1, h2, q, hq, ht⟩ := h.entry ho c (.inr hd)
    refine ⟨h1, fun r o' ho' hf => ?_⟩
    rw [State.outstanding_emptyLine] at ho'
    have hr : r = p := by
      have hm' : o' ∈ s.ports[r].outstanding := by
        split at ho'
        · next hr => subst hr; exact (List.mem_filter.mp ho').1
        · exact ho'
      obtain ⟨-, h3, -⟩ := h.entry hm' c hf
      exact Option.some.inj (h3.symm.trans h2)
    subst hr
    rw [if_pos rfl] at ho'
    obtain ⟨hm', hnf⟩ := List.mem_filter.mp ho'
    obtain ⟨-, -, q', hq', ht'⟩ := h.entry hm' c hf
    obtain rfl : q = q' := Option.some.inj (hq.symm.trans hq')
    obtain rfl : o = o' := h.eq_of_tag ho hm' (ht.symm.trans ht')
    simp [hd, Standing.formed] at hnf

end Sys2Proof.Machine
end

section
/-! PROOFS. Resets, pins taken, and the answers of the owning blocks. -/

namespace Sys2Proof.Machine

/-! ## Withdrawn roles and port resets -/

/-- A withdrawal serves the requests of its cursor alone. -/
theorem Serves.withdrawCursor {s₀ s : State} {c : CursorId} (h : Serves c s₀ s) (p : PortId) :
    Serves c s₀ (s.withdrawCursor p c) := by
  unfold State.withdrawCursor
  split
  · next q hq =>
    have hd : Serves c s₀ (s.dropFetched p q.tag) := h.requests rfl fun r o ho => by
      rw [State.dropFetched, State.outstanding_setPort] at ho
      split at ho
      · next hr => subst hr; exact .inl ho
      · exact .inl ho
    exact (hd.answer p q.tag _ _).freeCursorOf.takeHeld p _
  · exact h.freeCursorOf

section
variable (s : State) (p : PortId)

theorem State.dropFetched_quiet (tag : Byte) : Quiet s (s.dropFetched p tag) :=
  .same (State.watched_eq_iff.mpr ⟨rfl, rfl, fun r => by
    rw [State.dropFetched, State.outstanding_setPort]
    split
    · next hr => rw [hr]
    · rfl⟩)

/-- After an answer the requests under its tag wait on no fetch. -/
theorem State.not_fetches_of_mem_answer {s : State} {p : PortId} {tag : Byte} {status : Status} {body : ReplyBody}
    {o : Outstanding} (ho : o ∈ (s.answer p tag status body).ports[p].outstanding) (ht : o.tag = tag) (c : CursorId) :
    ¬o.fetches c := by
  rcases s.answer_cases p tag status body with ⟨-, he⟩ | ⟨hn, he⟩ <;> rw [he] at ho
  · rcases State.mem_form ho with ho | ⟨-, ho⟩
    · exact absurd ht (s.tagFree_freeTag p tag o ho)
    · rw [List.mem_singleton] at ho
      subst ho
      exact not_fetches_answered tag c
  · rcases State.mem_form ho with ho | ⟨-, ho⟩
    · exact absurd ht (hn o ho)
    · cases ho

theorem State.answer_cursors (tag : Byte) (status : Status) (body : ReplyBody) :
    (s.answer p tag status body).cursors = s.cursors := by
  rcases s.answer_cases p tag status body with ⟨-, h⟩ | ⟨-, h⟩ <;> rw [h] <;> simp

/-- RETRIEVE withdrawn from the port of a cursor. -/
theorem State.withdrawCursor_handled (c : CursorId)
    (h : s.cursors[c].isOpen = true → s.cursors[c].owner = some p) : Handled s (s.withdrawCursor p c) := by
  unfold State.withdrawCursor
  split
  · next q hq =>
    have ha := ((s.dropFetched_quiet p q.tag).toHandled).trans (State.answer_handled _ p q.tag .notPermitted .empty)
    refine (ha.trans (State.freeCursorOf_handled _ c fun hg => ?_)).trans (State.takeHeld_handled _ c p _)
    intro r o ho hf
    obtain ⟨h1, h2, q', h3, h4⟩ := hg.entry ho c hf
    have hcur : ((s.dropFetched p q.tag).answer p q.tag .notPermitted .empty).cursors[c] = s.cursors[c] := by
      rw [State.answer_cursors]
      rfl
    rw [hcur] at h1 h2 h3
    obtain rfl : q = q' := Option.some.inj (hq.symm.trans h3)
    obtain rfl : p = r := Option.some.inj ((h h1).symm.trans h2)
    exact State.not_fetches_of_mem_answer ho h4.symm c hf
  · next hq => exact s.freeCursorOf_handled c fun ha => ha.unfetched_of_none hq

/-- What stands for every cursor of a walk that closes cursors: one still OPEN belongs to the port. -/
def State.ownedBy (s : State) (p : PortId) (c : CursorId) : Prop :=
  s.cursors[c].isOpen = true → s.cursors[c].owner = some p

theorem Serves.ownedBy {s t : State} {c c' : CursorId} {p : PortId} (h : Serves c s t) (ho : s.ownedBy p c') :
    t.ownedBy p c' := fun hopen => by
  obtain ⟨h1, h2⟩ := h.owners c' hopen
  exact h2.trans (ho h1)

/-- The walk of a withdrawal over the cursors of a port. -/
theorem State.withdrawCursors_handled (l : List CursorId) (h : ∀ c ∈ l, s.ownedBy p c) :
    Handled s (l.foldl (fun s c => s.withdrawCursor p c) s) := by
  induction l generalizing s with
  | nil => exact .refl s
  | cons c l ih =>
    exact (s.withdrawCursor_handled p c (h c (List.mem_cons_self ..))).trans (ih _ fun c' hm =>
      (Serves.refl.withdrawCursor p).ownedBy (h c' (List.mem_cons_of_mem _ hm)))

theorem State.withdrawCursors_tagFree (l : List CursorId) {r : PortId} {tag : Byte} (h : s.tagFree r tag) :
    (l.foldl (fun s c => s.withdrawCursor p c) s).tagFree r tag := by
  induction l generalizing s with
  | nil => exact h
  | cons c l ih => exact ih _ ((Serves.refl.withdrawCursor p (c := c)).tagFree h)

theorem State.mem_cursorsOf {s : State} {p : PortId} {c : CursorId} (h : c ∈ s.cursorsOf p) :
    s.cursors[c].isOpen = true ∧ s.cursors[c].owner = some p := by
  simpa [State.cursorsOf] using h

theorem Quiet.tagFree {s t : State} (h : Quiet s t) {p : PortId} {tag : Byte} (ht : s.tagFree p tag) :
    t.tagFree p tag := by
  intro o ho
  rw [h.requests p] at ho
  exact ht o ho

theorem State.withdrawRoles_streams_quiet (roles : RoleSet) :
    Quiet s (if roles.ingest then s else (s.streamsOf p).foldl State.withdrawStream s) := by
  split
  · exact .refl s
  · exact Quiet.foldl State.withdrawStream_quiet _ s

theorem State.withdrawRoles_handled (roles : RoleSet) :
    Handled s (s.withdrawRoles p roles) ∧ ∀ r tag, s.tagFree r tag → (s.withdrawRoles p roles).tagFree r tag := by
  have hq := s.withdrawRoles_streams_quiet p roles
  unfold State.withdrawRoles
  simp only
  split
  · exact ⟨hq.toHandled, fun r tag => hq.tagFree⟩
  · exact ⟨hq.toHandled.trans (State.withdrawCursors_handled _ p _ fun c hm _ => (State.mem_cursorsOf hm).2),
      fun r tag ht => State.withdrawCursors_tagFree _ p _ (hq.tagFree ht)⟩

theorem State.outstanding_discardRequests (r : PortId) :
    (s.discardRequests p).ports[r].outstanding = if r = p then [] else s.ports[r].outstanding :=
  s.outstanding_setPort p r _

theorem State.discardRequests_handled : Handled s (s.discardRequests p) :=
  .of_agree (.same (by rfl)) fun _ h => State.agree_of_sublist h rfl rfl fun r => by
    rw [State.outstanding_discardRequests]
    split
    · exact List.nil_sublist _
    · exact .refl _

theorem State.portReset_handled : Handled s (s.portReset p) := by
  unfold State.portReset
  simp only
  have hq := Quiet.foldl State.resetStream_quiet ((s.discardRequests p).streamsOf p) (s.discardRequests p)
  refine (((s.discardRequests_handled p).trans hq.toHandled).trans ?_).trans
    (State.removeCompletions_quiet _ _).toHandled
  refine State.freeCursors_handled _ _ fun ha c hm r o ho hf => ?_
  obtain ⟨-, h2, -⟩ := ha.entry ho c hf
  obtain rfl : p = r := Option.some.inj ((State.mem_cursorsOf hm).2.symm.trans h2)
  rw [hq.requests p, State.outstanding_discardRequests, if_pos rfl] at ho
  cases ho

theorem State.setLink_quiet (up : Bool) : Quiet s (s.setLink p up) :=
  .same (State.watched_eq_iff.mpr ⟨rfl, rfl, fun r => by
    rw [State.setLink, State.outstanding_setPort]
    split
    · next hr => rw [hr]
    · rfl⟩)

theorem State.linkLost_handled : Handled s (s.linkLost p) := by
  unfold State.linkLost
  split
  · exact (s.portReset_handled p).trans (State.setLink_quiet _ p false).toHandled
  · exact .refl s

theorem State.linkReset_handled : Handled s (s.linkReset p) := by
  unfold State.linkReset
  split
  · exact s.portReset_handled p
  · exact .refl s

theorem State.establish_handled : Handled s (s.establish p) := by
  unfold State.establish
  split
  · exact .refl s
  · exact (s.discardRequests_handled p).trans (State.setLink_quiet _ p true).toHandled

end

/-! ## Pins taken -/

theorem State.pinAnswer_done {s : State} {w q i : Nat} {f : File} (h : s.pinAnswer w q = .done i f) :
    s.findFile w q = some (i, f) ∧ f.state ≠ .ingesting ∧ f.state ≠ .expiring := by
  unfold State.pinAnswer at h
  split at h
  · cases h
  next j g hf =>
  split at h
  · cases h
  · cases h
  · next h1 h2 =>
    cases h
    exact ⟨hf, h1, h2⟩

/-- A file's entry with one pin more (R16). -/
def File.pinned (f : File) : File := { f with pinCount := f.pinCount + 1 }

theorem State.pin_of_file {s : State} {i : Nat} {f : File} (hf : s.file i = some f) :
    s.pin i = s.setFile i f.pinned := by
  simp only [State.pin, hf]
  rfl

/-- The cursor and its pin come together, and the agreement stays. -/
theorem State.agree_pinned {s : State} {p : PortId} {i : Nat} {f : File} {b : OpeningCursor} (h : s.agree)
    (hf : s.file i = some f) (hi : f.state ≠ .ingesting) (ho : s.cursors[b.cursor].isOpen = false) :
    (s.pinOpened p i f b).agree := by
  rw [State.pinOpened, State.pin_of_file hf]
  set t := (s.setFile i f.pinned).setCursor b.cursor ((s.setFile i f.pinned).openedCursor p i f b.start) with ht
  set u := (s.setFile i f.pinned).openedCursor p i f b.start with hu
  rw [show (s.setFile i f.pinned).setCursor b.cursor (s.openedCursor p i f b.start) = t from rfl]
  have hfile : ∀ j, t.file j = if j = i then some f.pinned else s.file j := fun j => s.file_setFile i j f.pinned
  have hsame : t.cursors[b.cursor] = u := by simp [ht]
  have hother : ∀ c, c ≠ b.cursor → t.cursors[c] = s.cursors[c] := fun c hc => by
    simp [ht, getElem_set_fin_ne _ _ _ _ (Ne.symm hc)]
  have hnot : ∀ j, b.cursor ∉ s.cursorSet j := fun j hm => by
    have := (State.mem_cursorSet.mp hm).1
    rw [ho] at this
    cases this
  have hset : ∀ j, t.cursorSet j = if j = i then insert b.cursor (s.cursorSet j) else s.cursorSet j := by
    intro j
    ext c
    by_cases hc : c = b.cursor
    · subst hc
      rw [State.mem_cursorSet, hsame]
      split
      · next hj => simp [hj, hu, State.openedCursor]
      · next hj => simp [hu, State.openedCursor, hnot j, Ne.symm hj]
    · rw [State.mem_cursorSet, hother c hc]
      split <;> simp [State.mem_cursorSet, hc]
  refine ⟨State.pinsAgree_of (fun j => ?_) (fun c h' => ?_) (fun c h' => ?_), fun q => ⟨h.tags q, fun o hm c hc => ?_⟩,
    fun c hq => ?_⟩
  · have hcard := h.1.card j
    rw [hset, hfile]
    split
    · next hj =>
      rw [hj, hf] at hcard
      rw [hj, Finset.card_insert_of_notMem (hnot i), hcard]
      rfl
    · exact hcard
  · by_cases hc : c = b.cursor
    · subst hc
      rw [hsame]
      exact ⟨rfl, i, f.pinned, rfl, by rw [hfile, if_pos rfl], hi⟩
    · rw [hother c hc] at h' ⊢
      obtain ⟨h1, j, g, h2, h3, h4⟩ := h.1.of_open h'
      refine ⟨h1, j, ?_⟩
      by_cases hj : j = i
      · rw [hj, hf] at h3
        obtain rfl := Option.some.inj h3
        exact ⟨f.pinned, h2, by rw [hfile, if_pos hj], hi⟩
      · exact ⟨g, h2, by rw [hfile, if_neg hj]; exact h3, h4⟩
  · have hc : c ≠ b.cursor := fun hc => h' (by rw [hc, hsame]; rfl)
    rw [hother c hc] at h' ⊢
    exact h.1.free h'
  · have he := h.entry (p := q) hm c hc
    have hne : c ≠ b.cursor := fun hc => by rw [hc, ho] at he; cases he.1
    rw [hother c hne]
    exact he
  · by_cases hc : c = b.cursor
    · subst hc
      rw [hsame] at hq
      cases hq
    · rw [hother c hc] at hq ⊢
      exact h.2.2 c hq

theorem State.pinOpened_handled {s : State} {p : PortId} {w q i : Nat} {f : File} {b : OpeningCursor}
    (h : s.pinAnswer w q = .done i f) (ho : s.cursors[b.cursor].isOpen = false) : Handled s (s.pinOpened p i f b) := by
  obtain ⟨hf, hi, -⟩ := State.pinAnswer_done h
  refine .of_canonical fun hc => ?_
  have hfile := (State.findFile_some (s.canonical_iff.mp hc).2.1 hf).1
  refine .of_agree ?_ fun _ ha => State.agree_pinned ha hfile hi ho
  rw [State.pinOpened, State.pin_of_file hfile]
  exact (Formed.setFile (f := f) (g := f.pinned) hfile (by rfl)).trans (.same (by rfl))

/-! ## Answers of the owning blocks -/

/-- The state an answer leaves is handled, and tags that were free stay free. -/
structure Answers (s : State) (a : Answer) : Prop extends Handled s a.state where
  tags : ∀ p tag, s.tagFree p tag → a.state.tagFree p tag

theorem Quiet.answers {s : State} {a : Answer} (h : Quiet s a.state) : Answers s a :=
  { h.toHandled with tags := fun _ _ => h.tagFree }

theorem Quiet.ok {s t : State} {body : ReplyBody} (h : Quiet s t) : Answers s (.ok body t) := Quiet.answers h

theorem Answers.refl {s : State} {a : Answer} (h : a.state = s) : Answers s a :=
  Quiet.answers (h ▸ Quiet.refl s)

theorem Answers.send {s : State} {a : Answer} (h : Answers s a) {p : PortId} {tag : Byte} (ht : s.tagFree p tag) :
    Handled s (a.send p tag) :=
  h.toHandled.trans (State.reply_handled _ p tag _ _ (h.tags p tag ht))

theorem Answers.sendLate {s : State} {a : Answer} (h : Answers s a) (p : PortId) (tag : Byte) :
    Handled s (a.sendLate p tag) := h.toHandled.trans (State.answer_handled _ p tag _ _)

theorem State.tagFree_of_entryBar {s : State} {p : PortId} {tag : Byte} (h : s.entryBar p tag = none) :
    s.tagFree p tag := ((s.entryBar_eq_none p tag).mp h).2

/-- A frame that arrives: what is made of it must be handled when its tag is free. -/
theorem State.receive_handled (s : State) (p : PortId) (tag : Byte) (formOk always : Bool) {k : State → State}
    (h : s.tagFree p tag → Handled s (k s)) : Handled s (s.receive p tag formOk always k) := by
  rcases s.receive_cases p tag formOk always k with ⟨-, he⟩ | ⟨st, -, he⟩ | ⟨st, hb, -, he⟩ | ⟨-, hb, -, he⟩ <;> rw [he]
  · exact .refl s
  · exact (s.form_nil_quiet p tag st .empty).toHandled
  · exact s.reply_handled p tag st .empty (State.tagFree_of_entryBar hb)
  · exact h (State.tagFree_of_entryBar hb)

theorem State.permit_handled {s : State} {p : PortId} {tag : Byte} (need : RoleSet → Bool) {k : State → State}
    (ht : s.tagFree p tag) (h : Handled s (k s)) : Handled s (s.permit p tag need k) := by
  unfold State.permit
  split
  · exact h
  · exact s.reply_handled p tag _ _ ht

theorem State.request_handled (s : State) (p : PortId) (tag : Byte) (formOk : Bool) (need : RoleSet → Bool)
    {answer : State → Answer} (h : Answers s (answer s)) : Handled s (s.request p tag formOk need answer) :=
  s.receive_handled p tag formOk false fun ht => State.permit_handled need ht (h.send ht)

theorem State.opening_handled {α : Type} (s : State) (p : PortId) (tag : Byte) (need : RoleSet → Bool)
    {ask : State → Except Status α} {request : α → OpeningRequest} {answer : α → State → Answer}
    (h : s.canonical = true → ∀ b, Answers s (answer b s)) : Handled s (s.opening p tag need ask request answer) := by
  refine .of_canonical fun hc => s.receive_handled p tag true false fun ht => State.permit_handled need ht ?_
  split
  · exact s.reply_handled p tag _ _ ht
  · next b _ =>
    split
    · exact (h hc b).send ht
    · refine (s.takeEntry_handled p tag .opening ht fun _ => ?_).trans (Quiet.toHandled (.same (by rfl)))
      exact State.entryAgrees_of_not_fetches fun c hf => by rcases hf with hf | hf <;> cases hf

/-! ## The commands of each unit -/

section
variable (s : State) (p : PortId)

theorem State.createOpened_quiet {s : State} {p : PortId} {i : Nat} {b : OpeningFile} (hc : s.canonical = true)
    (h : s.newEntryAnswer b.switchId b.sequence = .done i) : Quiet s (s.createOpened p i b) :=
  (State.createFile_quiet hc h (f := newFile s b.switchId b.sequence b.fileDay b.retentionClass b.profile p) rfl rfl
    rfl).trans (.same (by rfl))

theorem State.openFileAnswer_answers (hc : s.canonical = true) (b : OpeningFile) :
    Answers s (s.openFileAnswer p b) := by
  unfold State.openFileAnswer
  split
  · exact .refl rfl
  · exact .refl rfl
  · next i h => exact ((State.createOpened_quiet hc h).trans (State.startStream_quiet _ _ _ _)).answers

theorem State.openCursorAnswer_answers (b : OpeningCursor) : Answers s (s.openCursorAnswer p b) := by
  unfold State.openCursorAnswer
  split
  · next i f h =>
    split
    · exact .refl rfl
    · next ho =>
      refine { State.pinOpened_handled h (by simpa using ho) with tags := fun r tag ht o hm => ht o ?_ }
      have hports : (s.pinOpened p i f b).ports = s.ports := by
        unfold State.pinOpened State.pin
        split <;> rfl
      exact hports ▸ hm
  · exact .refl rfl

theorem State.runOn_handled (request : OpeningRequest) : Handled s (s.runOn p request) := by
  refine .of_canonical fun hc => ?_
  cases request with
  | file b =>
    unfold State.runOn
    simp only
    split
    · next i h => exact ((State.createOpened_quiet hc h).trans (State.beginAbort_quiet _ _ _)).toHandled
    · exact .refl s
  | cursor b =>
    unfold State.runOn
    simp only
    split
    · next i f h =>
      split
      · exact .refl s
      · next ho =>
        refine (State.pinOpened_handled h (by simpa using ho)).trans (State.freeCursorOf_handled _ _ fun ha => ?_)
        refine ha.unfetched_of_none ?_
        simp [State.pinOpened, State.openedCursor]
    · exact .refl s

theorem State.answerOpening_handled (o : Opening) : Handled s (s.answerOpening o) := by
  rcases s.answerOpening_cases o with ⟨tag, -, h⟩ | ⟨-, h⟩ <;> rw [h]
  · refine .of_canonical fun hc => ?_
    cases hr : o.request with
    | file b => exact (s.openFileAnswer_answers o.port hc b).sendLate o.port tag
    | cursor b => exact (s.openCursorAnswer_answers o.port b).sendLate o.port tag
  · exact s.runOn_handled o.port o.request

theorem State.idle_handled : Handled s s.idle := by
  rcases s.idle_cases with h | ⟨p, -, h⟩ | ⟨o, rest, -, h⟩ <;> rw [h]
  · exact .refl s
  · exact s.sendWaiting_handled p
  · exact (Quiet.toHandled (.same (by rfl))).trans (State.answerOpening_handled _ o)

theorem State.ingestChunk_answers (stream final nextMode : Byte) (chunk : List Byte) :
    Answers s (s.ingestChunk p stream final nextMode chunk) := by
  unfold State.ingestChunk
  split
  · split
    · exact .refl rfl
    split
    · exact .refl rfl
    · exact (s.updateStream_quiet _ _).ok
  · exact .refl rfl

theorem State.resumeStream_answers (stream present kind includeInCheck nextMode hold : Byte) :
    Answers s (s.resumeStream p stream present kind includeInCheck nextMode hold) := by
  unfold State.resumeStream
  split
  · split
    · exact .refl rfl
    · exact (s.resumeHeld_quiet _ _).answers
  · exact .refl rfl

theorem State.abortStream_answers (stream : Byte) : Answers s (s.abortStream p stream) := by
  unfold State.abortStream
  split
  · split
    · exact .refl rfl
    · exact (s.beginAbort_quiet _ _).answers
  · exact .refl rfl

theorem State.setSweepSettings_answers (window rest : Nat) (freeze : Byte) :
    Answers s (s.setSweepSettings window rest freeze) := by
  unfold State.setSweepSettings
  split
  · exact .refl rfl
  · exact Quiet.answers (.same (by rfl))

theorem State.startSweep_answers : Answers s s.startSweep := by
  unfold State.startSweep
  split
  · exact Quiet.answers (.same (by rfl))
  · exact .refl rfl

theorem State.fetchFindings_answers : Answers s s.fetchFindings :=
  Quiet.answers (Quiet.trans (t := { s with findings := s.findings.drop 16 }) (.same (by rfl)) (State.logRoom_quiet _))

theorem State.fetchCompletions_answers : Answers s (s.fetchCompletions p) :=
  Quiet.answers (s.removeCompletions_quiet _)

theorem State.stopSweep_answers : Answers s s.stopSweep := Quiet.answers (.same (by rfl))

theorem State.pauseExpiry_answers : Answers s s.pauseExpiry := Quiet.answers (.same (by rfl))

theorem State.restartSweep_answers : Answers s s.restartSweep :=
  Quiet.answers (Quiet.trans (.same (by rfl)) (State.markAllUnreported_quiet _))

theorem State.ackTrail_answers (sequence : Nat) : Answers s (s.ackTrail sequence) := by
  unfold State.ackTrail
  split
  · exact .refl rfl
  · exact Quiet.answers (.same (by rfl))

theorem State.setRetention_answers (retentionClass : Byte) (days : Nat) :
    Answers s (s.setRetention p retentionClass days) := by
  unfold State.setRetention
  split
  · exact .refl rfl
  split
  · exact Quiet.answers (.same (by rfl))
  · exact .refl rfl

theorem State.placeHold_answers (selector firstDay lastDay : Nat) (labelPresent labelLength : Byte)
    (label : List Byte) :
    Answers s (s.placeHold p selector firstDay lastDay labelPresent labelLength label) := by
  unfold State.placeHold
  split
  · split
    · unfold State.placeHoldTested
      split
      · exact .refl rfl
      split
      · exact Quiet.answers (Quiet.trans (.same (by rfl)) (State.returnHeld_quiet _ _))
      · exact .refl rfl
    · exact .refl rfl
  · exact .refl rfl

theorem State.releaseHold_answers (hold : Byte) : Answers s (s.releaseHold p hold) := by
  unfold State.releaseHold
  split
  · exact .refl rfl
  split
  · exact .refl rfl
  split
  · exact Quiet.answers (.same (by rfl))
  · exact .refl rfl

theorem State.expireNow_answers : Answers s s.expireNow := by
  unfold State.expireNow
  split
  · exact s.startCause_quiet.answers
  · exact .refl rfl

theorem State.resumeExpiry_answers : Answers s s.resumeExpiry := by
  unfold State.resumeExpiry
  refine Quiet.answers ?_
  simp only [Answer.ok]
  split
  · exact Quiet.trans (.same (by rfl)) (State.walkAgain_quiet _)
  · exact .same (by rfl)

theorem State.clearDisputeOf_answers (w q : Nat) : Answers s (s.clearDisputeOf p w q) := by
  unfold State.clearDisputeOf
  split
  · exact .refl rfl
  split
  · exact .refl rfl
  split
  · exact .refl rfl
  split
  · exact Quiet.answers ((s.record_quiet _ _ _ _).trans (Quiet.getD fun t h => State.clearDispute_quiet h))
  · exact .refl rfl

theorem State.acceptLossOf_answers (w q : Nat) : Answers s (s.acceptLossOf p w q) := by
  unfold State.acceptLossOf
  split
  · exact .refl rfl
  split
  · exact .refl rfl
  split
  · exact .refl rfl
  split
  · exact .refl rfl
  split
  · exact Quiet.answers ((s.record_quiet _ _ _ _).trans (Quiet.getD fun t h => State.acceptLoss_quiet h))
  · exact .refl rfl

theorem wf_writeEntries (key : Nat) (es : List ClassEntry) (m : Sparse ClassEntry) (h : Sparse.wf {} m = true) :
    Sparse.wf {} (writeEntries key es m) = true := by
  induction es generalizing key m with
  | nil => exact h
  | cons e es ih => exact ih _ _ (Sparse.wf_set _ _ _ _ h)

/-- A profile written with its class table in canonical form. -/
theorem State.setProfile_quiet (i : Fin 4) (f : Profile)
    (h : Sparse.wf {} s.settings.profiles[i].classes = true → Sparse.wf {} f.classes = true) :
    Quiet s (s.setProfile i f) :=
  .tables rfl rfl rfl id id id fun hw j => by
    by_cases hj : i = j
    · subst hj
      simpa [State.setProfile] using h (hw i)
    · simpa [State.setProfile, getElem_set_fin_ne _ _ _ _ hj] using hw j

theorem State.loadClassEntries_answers (profile mode firstByte : Byte) (count : Nat) (entries : List WireClassEntry) :
    Answers s (s.loadClassEntries profile mode firstByte count entries) := by
  unfold State.loadClassEntries
  split
  · split
    · exact .refl rfl
    · exact (s.setProfile_quiet _ _ (wf_writeEntries _ _ _)).answers
  · exact .refl rfl

theorem State.loadFieldMap_answers (profile : Byte) (targets : List Byte) (rounding overflow : Byte) :
    Answers s (s.loadFieldMap profile targets rounding overflow) := by
  unfold State.loadFieldMap
  split
  · split
    · split
      · simp only
        exact Quiet.ok (s.setProfile_quiet _ _ fun h => h)
      · exact .refl rfl
    · exact .refl rfl
  · exact .refl rfl

theorem State.setClock_answers (value : Nat) : Answers s (s.setClock p value) := by
  unfold State.setClock
  split
  · exact (s.setClockTo_quiet p _).answers
  · exact .refl rfl

theorem State.setRoles_answers (target roles : Byte) : Answers s (s.setRoles p target roles) := by
  unfold State.setRoles
  split
  · next q r _ _ =>
    split
    · exact .refl rfl
    split
    · have hq : Quiet s ((s.record .rolesChanged (some p) (.roles q r) 0).writeRoles q r) := .same (by rfl)
      obtain ⟨h, ht⟩ :=
        State.withdrawRoles_handled ((s.record .rolesChanged (some p) (.roles q r) 0).writeRoles q r) q r
      exact { hq.toHandled.trans h with tags := fun p tag hf => ht p tag (hq.tagFree hf) }
    · exact .refl rfl
  · exact .refl rfl

theorem State.setPortSettingsOf_answers (target byteOrder streamTimeout cursorTimeout : Byte) :
    Answers s (s.setPortSettingsOf target byteOrder streamTimeout cursorTimeout) := by
  unfold State.setPortSettingsOf
  split
  · exact Quiet.answers (.same (by rfl))
  · exact .refl rfl

theorem State.fileInfo_answers (w q : Nat) : Answers s (s.fileInfo w q) := by
  unfold State.fileInfo
  split
  · exact .refl rfl
  split
  · exact .refl rfl
  · exact .refl rfl

theorem State.listFiles_answers (selector firstDay lastDay : Nat) (states : Byte) (start count : Nat) :
    Answers s (s.listFiles selector firstDay lastDay states start count) := by
  unfold State.listFiles
  split
  · split
    · exact .refl rfl
    · exact .refl rfl
  · exact .refl rfl

theorem State.segmentInfo_answers (n : Nat) : Answers s (s.segmentInfo n) := by
  unfold State.segmentInfo
  split
  · exact .refl rfl
  · exact .refl rfl

/-! ## Requests that name a cursor -/

theorem State.cursorBusy_eq_false {s : State} {p : PortId} {c : CursorId} (h : s.cursorBusy p c = false) :
    ∀ o ∈ s.ports[p].outstanding, ¬o.fetches c := by
  intro o ho hc
  have := List.any_eq_false.mp h o ho
  rcases hc with hc | hc <;> simp [hc, Standing.cursor] at this

theorem State.nameCursor_handled (tag cursor : Byte) {held : CursorId → Standing} {take : CursorId → State → State}
    (ht : s.tagFree p tag) (hheld : ∀ c c', held c ≠ .fetching c' ∧ held c ≠ .delivering c')
    (htake : ∀ c, (s.agree → s.ownsCursor p c = true ∧ s.unfetched c) → Handled s (take c s)) :
    Handled s (s.nameCursor p tag cursor held take) := by
  unfold State.nameCursor
  split
  · exact State.permit_handled _ ht (s.reply_handled p tag _ _ ht)
  · next c hc =>
    split
    · refine s.takeEntry_handled p tag (held c) ht fun _ => State.entryAgrees_of_not_fetches fun c' hf => ?_
      rcases hf with hf | hf
      · exact (hheld c c').1 hf
      · exact (hheld c c').2 hf
    · next hb =>
      refine State.permit_handled _ ht ?_
      split
      · next hown =>
        exact htake c fun ha =>
          ⟨hown, State.unfetched_of_owner ha hown (State.cursorBusy_eq_false (by simpa using hb))⟩
      · exact s.reply_handled p tag _ _ ht

theorem State.cursorExpiry_handled (c : CursorId) : Handled s (s.cursorExpiry c) := by
  unfold State.cursorExpiry
  simp only
  split
  · next h =>
    refine s.freeCursorOf_handled c fun ha => ha.unfetched_of_none ?_
    by_contra hq
    have := ha.2.2 c (Option.isSome_iff_ne_none.mpr hq)
    rw [h.2] at this
    cases this
  · exact .refl s

/-! ## Sweep -/

theorem State.answerStep_handled (tag : Byte) (n : Nat) (r : VisitResult) : Handled s (s.answerStep p tag n r) := by
  unfold State.answerStep
  split
  · exact s.answer_handled p tag _ _
  · exact .refl s

theorem State.endVisit_handled (v : Visit) (r : VisitResult) : Handled s (s.endVisit v r) := by
  unfold State.endVisit
  simp only
  split
  · exact (Quiet.toHandled (.same (by rfl))).trans (State.answerStep_handled _ _ _ _ _)
  · exact (Quiet.trans (.same (by rfl)) (State.paceSweep_quiet _ _)).toHandled

theorem State.sweepRead_handled (report : ReadReport) : Handled s (s.sweepRead report) := by
  unfold State.sweepRead
  split
  · exact .refl s
  · exact (s.completeVisit_quiet _ report).toHandled.trans (State.endVisit_handled _ _ _)

theorem State.stepSweep_handled (tag : Byte) (ht : s.tagFree p tag) : Handled s (s.stepSweep p tag) := by
  have hq := s.stepWalk_quiet p tag
  unfold State.stepSweep
  split
  · exact s.reply_handled p tag _ _ ht
  split
  · next t h =>
    rw [h] at hq
    refine hq.toHandled.trans (t.takeEntry_handled p tag .stepping (hq.tagFree ht) fun _ => ?_)
    exact State.entryAgrees_of_not_fetches fun c hf => by rcases hf with hf | hf <;> cases hf
  · next t h =>
    rw [h] at hq
    exact hq.toHandled.trans (t.reply_handled p tag _ _ (hq.tagFree ht))

/-! ## Resets -/

/-- With every cursor FREE, every pin count 0 and no request outstanding, all agrees. -/
theorem State.agree_of_cleared {t : State} (cursors : t.cursors = Vector.replicate 16 {})
    (pins : ∀ i f, t.file i = some f → f.pinCount = 0) (requests : ∀ p : PortId, t.ports[p].outstanding = []) :
    t.agree := by
  have hc : ∀ c : CursorId, t.cursors[c] = {} := fun c => by rw [cursors]; simp
  refine ⟨State.pinsAgree_of (fun i => ?_) (fun c ho => ?_) (fun c _ => hc c), fun p => ?_, fun c hq => ?_⟩
  · rw [show t.cursorSet i = ∅ from Finset.eq_empty_of_forall_notMem fun c hm => by
      have := (State.mem_cursorSet.mp hm).1
      rw [hc c] at this
      cases this]
    split
    · next f hf => exact (pins i f hf).symm
    · rfl
  · rw [hc c] at ho
    cases ho
  · rw [requests p]
    exact ⟨List.nodup_nil, fun o ho => nomatch ho⟩
  · rw [hc c]

theorem State.clearPins_formed : Formed s s.clearPins where
  canonical h := by
    obtain ⟨h1, h2, h3⟩ := s.canonical_iff.mp h
    refine (State.canonical_iff _).mpr ⟨h1, Sparse.wf_map h2 (fun _ => rfl) (fun e he => ?_), h3⟩
    simpa using he
  pairs _ h := by
    have hl : s.clearPins.heldFiles = s.heldFiles.map (fun e => (e.1, { e.2 with pinCount := 0 })) := by
      simp only [State.clearPins, State.heldFiles, List.filterMap_map, List.map_filterMap]
      refine List.filterMap_congr fun e _ => ?_
      obtain ⟨i, o⟩ := e
      cases o <;> rfl
    unfold State.pairsDistinct at h ⊢
    rw [hl, List.map_map]
    exact h

theorem State.get_clearPins (m : Sparse (Option File)) (i : Nat) :
    Sparse.get none i (m.map (fun e => (e.1, e.2.map (fun f => { f with pinCount := 0 }))))
      = (Sparse.get none i m).map (fun f => { f with pinCount := 0 }) := by
  induction m with
  | nil => rfl
  | cons e m ih =>
    simp only [List.map_cons, Sparse.get]
    split
    · rfl
    · exact ih

theorem State.firstEver_formed : Formed s s.firstEver where
  canonical h := by
    obtain ⟨h1, -⟩ := s.canonical_iff.mp h
    refine (State.canonical_iff _).mpr ⟨h1, rfl, rfl, rfl, fun i => ?_⟩
    simp only [State.firstEver]
    simp [Sparse.wf]
  pairs _ _ := List.nodup_nil

theorem State.takeReset_formed : Formed s s.takeReset := by
  have h1 : Formed s s.clearWork.clearPins.discardAllRequests :=
    (Formed.same (s := s) (t := s.clearWork) rfl).trans ((State.clearPins_formed _).trans (.same (by rfl)))
  refine (Formed.trans h1 (?_ : Formed _ (State.initialise _))).trans (.same (by rfl))
  unfold State.initialise
  split
  · exact .refl _
  · exact State.firstEver_formed _

theorem State.takeReset_cleared :
    s.takeReset.cursors = Vector.replicate 16 {} ∧ (∀ i f, s.takeReset.file i = some f → f.pinCount = 0)
      ∧ ∀ p : PortId, s.takeReset.ports[p].outstanding = [] := by
  have hports : ∀ p : PortId, s.clearWork.clearPins.discardAllRequests.ports[p].outstanding = [] := fun p => by
    simp [State.discardAllRequests]
  unfold State.takeReset State.initialise
  split
  · refine ⟨rfl, fun i f hf => ?_, hports⟩
    have hf : Sparse.get none i s.clearPins.files = some f := hf
    rw [State.clearPins, State.get_clearPins, Option.map_eq_some_iff] at hf
    obtain ⟨g, -, rfl⟩ := hf
    rfl
  · exact ⟨rfl, fun i f hf => (by cases hf), hports⟩

theorem State.takeReset_handled : Handled s s.takeReset :=
  .of_agree s.takeReset_formed fun _ _ =>
    State.agree_of_cleared s.takeReset_cleared.1 s.takeReset_cleared.2.1 s.takeReset_cleared.2.2

theorem State.powerUp_handled : Handled s s.powerUp :=
  .of_agree (s.takeReset_formed.trans (.same (by rfl))) fun _ _ =>
    State.agree_of_cleared s.takeReset_cleared.1 s.takeReset_cleared.2.1 fun p => by simp [State.powerUp]

theorem State.cleanUp_quiet : Quiet s s.cleanUp := by
  have h1 : Quiet s ({ s with initialised := true } : State).removeIngesting :=
    Quiet.trans (.same (by rfl)) (Quiet.foldl (fun _ _ => Quiet.getD fun _ h => State.removeFile_quiet h) _ _)
  exact (((h1.trans (State.freeSegments_quiet _ _)).trans (State.markAllUnreported_quiet _)).trans
    (State.startCause_quiet _)).trans (.same (by rfl))

end

end Sys2Proof.Machine
end

section
/-! PROOFS. Every step, and with it O4, O5, O9 and O10. -/

open Sys2Proof Sys2Proof.Machine

namespace Sys2Proof.Machine

/-! ## Every step -/

theorem Handled.next {s t u : State} (h : Handled s u)
    (he : (Host.Outcome.next u : Host.Outcome State Fault Refusal) = .next t) : Handled s t := by
  cases he
  exact h

theorem State.event_handled {s : State} {f : State → State} (h : Handled s (f s)) : Handled s (s.event f) := by
  unfold State.event
  split
  · exact h
  · exact .refl s

/-- The report of a store write whose effect is quiet. -/
theorem State.writeReport_handled {s t : State} {effect : StreamId → Nat → State → State}
    (h : ∀ x n, Quiet s (effect x n s)) (he : s.writeReport effect = .next t) : Handled s t := by
  unfold State.writeReport at he
  split at he
  · next x n _ =>
    split at he
    · exact (Handled.refl s).next he
    split at he
    · exact ((h x n).trans (State.endStore_quiet _)).toHandled.next he
    · cases he
  · exact (Handled.refl s).next he

theorem execSweepReadComplete_handled {s t : State} {report : ReadReport}
    (he : execSweepReadComplete report s = .next t) : Handled s t := by
  unfold execSweepReadComplete at he
  split at he
  · split at he
    · exact (Handled.refl s).next he
    split at he
    · exact ((s.sweepRead_handled report).trans (State.endStore_quiet _).toHandled).next he
    · cases he
  · exact (Handled.refl s).next he

theorem execRetrievalReadComplete_handled {s t : State} {report : ReadReport}
    (he : execRetrievalReadComplete report s = .next t) : Handled s t := by
  unfold execRetrievalReadComplete at he
  split at he
  · next c n live _ =>
    split at he
    · exact (Handled.refl s).next he
    split at he
    · exact (s.endRetrievalRead_handled c live report).next he
    · cases he
  · exact (Handled.refl s).next he

theorem State.moduleReset_handled (s : State) (p : PortId) (tag : Byte) : Handled s (s.moduleReset p tag) :=
  Handled.trans (Quiet.toHandled (.same (by rfl))) (State.takeReset_handled _)

/-- Every command keeps the canonical form, the distinct pairs and the agreement of pins and fetches. -/
theorem exec_handled {i : Instr} {s t : State} (h : exec i s = .next t) : Handled s t := by
  cases i with
  | openFile p tag => exact (s.opening_handled p tag _ fun hc b => s.openFileAnswer_answers p hc b).next h
  | ingestChunk p tag => exact (s.request_handled p tag _ _ (s.ingestChunk_answers p _ _ _ _)).next h
  | resumeStream p tag => exact (s.request_handled p tag _ _ (s.resumeStream_answers p _ _ _ _ _ _)).next h
  | abortStream p tag => exact (s.request_handled p tag _ _ (s.abortStream_answers p _)).next h
  | openCursor p tag => exact (s.opening_handled p tag _ fun _ b => s.openCursorAnswer_answers p b).next h
  | fetchRecords p tag cursor count =>
    exact (s.receive_handled p tag true false fun ht =>
      s.nameCursor_handled p tag cursor ht (fun _ _ => by exact ⟨nofun, nofun⟩) fun c hc =>
        s.takeFetch_handled c p tag _ ht hc).next h
  | closeCursor p tag cursor =>
    exact (s.receive_handled p tag true false fun ht =>
      s.nameCursor_handled p tag cursor ht (fun _ _ => by exact ⟨nofun, nofun⟩) fun c hc =>
        (s.freeCursorOf_handled c fun ha => (hc ha).2).trans (State.reply_handled _ p tag _ _ fun o ho => by
          rw [State.outstanding_freeCursorOf] at ho
          exact ht o ho)).next h
  | fetchFindings p tag =>
    exact (s.request_handled p tag _ _ s.fetchFindings_answers).next h
  | fetchTrail p tag => exact (s.request_handled p tag _ _ (.refl rfl)).next h
  | ackTrail p tag => exact (s.request_handled p tag _ _ (s.ackTrail_answers _)).next h
  | setSweepSettings p tag => exact (s.request_handled p tag _ _ (s.setSweepSettings_answers _ _ _)).next h
  | startSweep p tag => exact (s.request_handled p tag _ _ s.startSweep_answers).next h
  | stopSweep p tag => exact (s.request_handled p tag _ _ s.stopSweep_answers).next h
  | stepSweep p tag =>
    exact (s.receive_handled p tag true false fun ht =>
      State.permit_handled _ ht (s.stepSweep_handled p tag ht)).next h
  | restartSweep p tag => exact (s.request_handled p tag _ _ s.restartSweep_answers).next h
  | loadClassEntries p tag => exact (s.request_handled p tag _ _ (s.loadClassEntries_answers _ _ _ _ _)).next h
  | loadFieldMap p tag => exact (s.request_handled p tag _ _ (s.loadFieldMap_answers _ _ _ _)).next h
  | setRetention p tag => exact (s.request_handled p tag _ _ (s.setRetention_answers p _ _)).next h
  | placeHold p tag => exact (s.request_handled p tag _ _ (s.placeHold_answers p _ _ _ _ _ _)).next h
  | releaseHold p tag => exact (s.request_handled p tag _ _ (s.releaseHold_answers p _)).next h
  | expireNow p tag => exact (s.request_handled p tag _ _ s.expireNow_answers).next h
  | pauseExpiry p tag => exact (s.request_handled p tag _ _ s.pauseExpiry_answers).next h
  | resumeExpiry p tag => exact (s.request_handled p tag _ _ s.resumeExpiry_answers).next h
  | clearDispute p tag => exact (s.request_handled p tag _ _ (s.clearDisputeOf_answers p _ _)).next h
  | acceptLoss p tag => exact (s.request_handled p tag _ _ (s.acceptLossOf_answers p _ _)).next h
  | setClock p tag => exact (s.request_handled p tag _ _ (s.setClock_answers p _)).next h
  | setRoles p tag => exact (s.request_handled p tag _ _ (s.setRoles_answers p _ _)).next h
  | setPortSettings p tag => exact (s.request_handled p tag _ _ (s.setPortSettingsOf_answers _ _ _ _)).next h
  | moduleReset p tag =>
    exact (s.receive_handled p tag true false fun ht =>
      State.permit_handled _ ht (s.moduleReset_handled p tag)).next h
  | fileInfo p tag => exact (s.request_handled p tag _ _ (s.fileInfo_answers _ _)).next h
  | listFiles p tag => exact (s.request_handled p tag _ _ (s.listFiles_answers _ _ _ _ _ _)).next h
  | segmentInfo p tag => exact (s.request_handled p tag _ _ (s.segmentInfo_answers _)).next h
  | fetchCompletions p tag =>
    exact (s.request_handled p tag _ _ (s.fetchCompletions_answers p)).next h
  | partStatus p tag => exact (s.receive_handled p tag true true fun ht =>
      (Quiet.ok (.refl s)).send ht).next h
  | unknownRequestFrame p tag kind length body =>
    refine Handled.next (u := s.unknownFrame p tag kind length body) ?_ h
    unfold State.unknownFrame
    split
    · exact .refl s
    · exact s.receive_handled p tag false false fun _ => .refl s
  | damagedFrameDiscarded => exact (Handled.refl s).next h
  | linkLoss p => exact (State.event_handled (s.linkLost_handled p)).next h
  | linkReset p => exact (State.event_handled (s.linkReset_handled p)).next h
  | linkEstablished p => exact (State.event_handled (s.establish_handled p)).next h
  | resetInputAsserted n =>
    refine Handled.next (State.event_handled (f := fun s => s.holdReset n) ?_) h
    unfold State.holdReset
    split
    · exact Quiet.toHandled (.same (by rfl))
    · exact .refl s
  | resetInputReleased =>
    refine Handled.next (State.event_handled (f := State.releaseReset) ?_) h
    unfold State.releaseReset
    split
    · exact s.takeReset_handled
    · exact .refl s
  | powerOn => exact s.powerUp_handled.next h
  | startupCleanup =>
    refine Handled.next (State.event_handled (f := State.startupCleanup) ?_) h
    unfold State.startupCleanup
    split
    · exact s.cleanUp_quiet.toHandled
    · exact .refl s
  | referencePulse half => exact (State.event_handled (s.pulse_quiet half).toHandled).next h
  | internalSecond => exact (State.event_handled s.elapse_quiet.toHandled).next h
  | streamCountdownExpiry x => exact (State.event_handled (s.streamExpiry_quiet x).toHandled).next h
  | cursorIdleExpiry c => exact (State.event_handled (s.cursorExpiry_handled c)).next h
  | sweepRestExpiry =>
    refine Handled.next (State.event_handled (f := State.restExpiry) ?_) h
    unfold State.restExpiry
    simp only
    split
    · exact Quiet.toHandled (.same (by rfl))
    · exact .refl s
  | streamByte x => exact (State.event_handled (s.streamByte_quiet x).toHandled).next h
  | blockedStreamResumed => exact (State.event_handled s.resumeBlocked_quiet.toHandled).next h
  | completionWaitServed => exact (State.event_handled s.serveWaitList_quiet.toHandled).next h
  | encoderTakeHead => exact (State.event_handled s.takeHead_quiet.toHandled).next h
  | storeFullWaitRetry => exact (State.event_handled s.retryStoreFull_quiet.toHandled).next h
  | imageWaitEnd => exact (State.event_handled s.endImageWait_quiet.toHandled).next h
  | storeWriteComplete => exact State.writeReport_handled (effect := fun x n s => s.writeDone x n) s.writeDone_quiet h
  | storeWriteError left =>
    exact State.writeReport_handled (effect := fun x n s => s.writeFailed x n left)
      (fun x n => s.writeFailed_quiet x n left) h
  | closeAcknowledgement x => exact (State.event_handled (s.acknowledgeClose_quiet x).toHandled).next h
  | closingStreamTrailRetry x => exact (State.event_handled (s.retryAcceptance_quiet x).toHandled).next h
  | abortReached x => exact (State.event_handled (s.tellAbort_quiet x).toHandled).next h
  | sweepLook => exact (State.event_handled s.sweepLooks_quiet.toHandled).next h
  | sweepLogRoom => exact (State.event_handled s.logRoom_quiet.toHandled).next h
  | sweepReadComplete => exact execSweepReadComplete_handled h
  | retrievalReadComplete => exact execRetrievalReadComplete_handled h
  | passVisit => exact (State.event_handled s.passVisit_quiet.toHandled).next h
  | passTrailRetry => exact (State.event_handled s.passRetry_quiet.toHandled).next h
  | powerLoss => exact (Quiet.toHandled (.same (by rfl))).next h

/-- Every step keeps the canonical form, the distinct pairs and the agreement of pins and fetches. -/
theorem step_handled {s t : State} (h : step s = .next t) : Handled s t := by
  unfold step at h
  split at h
  · exact s.idle_handled.next h
  · exact (Quiet.toHandled (.same (by rfl))).trans (exec_handled h)

end Sys2Proof.Machine

/-- Settles O5: a step is handled, and what is handled keeps the canonical form. -/
theorem canonicalFormKept : Obligations.CanonicalFormKept := fun _ _ hc h => (step_handled h).canonical hc

/-- Settles O9: new entries take pairs that no entry holds, and no rewriting changes a pair. -/
theorem filePairsStayDistinct : Obligations.FilePairsStayDistinct := fun _ _ hc hp h => (step_handled h).pairs hc hp

/-- Settles O10: cursors and their pins come and go together, and so do fetches and the requests that wait on them. -/
theorem pinsStayInAgreement : Obligations.PinsStayInAgreement := fun _ _ hc hp hf h =>
  (step_handled h).agree hc ⟨hp, hf⟩

/-- Settles O4: the state right after reset is written down whole. -/
theorem resetMeetsInvariants : Obligations.ResetMeetsInvariants := by
  have ha : State.reset.agree := State.agree_of_cleared rfl (fun i f hf => by cases hf) (fun p => by simp [State.reset])
  refine ⟨?_, ?_, ⟨0, rfl⟩, rfl, List.nodup_nil, ha.1, ha.2, ?_⟩
  · exact (State.canonical_iff _).mpr ⟨rfl, rfl, rfl, rfl, by decide⟩
  · refine ⟨by decide, by decide, fun p => by simp [State.completionsOf, State.reset], by decide, nofun, by decide,
      fun p => by simp [State.reset]⟩
  · exact ⟨by decide, by decide, by decide, fun _ => rfl⟩
end

section
/-! PROOFS. What the report of a store write comes to: O42, O43. -/

open Sys2Proof Sys2Proof.Machine
namespace Sys2Proof.Machine

/-! ## Reports of a store write -/

/-- The report of a write in progress, on a powered part and an extent that exists, has its effect; then the next store
operation starts. -/
theorem State.writeReport_next {s : State} {x : StreamId} {n : Nat} (effect : StreamId → Nat → State → State)
    (hp : s.powered = true) (hc : s.storePort.current = some (.write x n)) (hn : n ≤ 262143) :
    s.writeReport effect = .next (effect x n s).endStore := by
  have hx : extentExists n = true := by
    simpa [extentExists, Config.segmentNumbers] using Nat.lt_succ_of_le hn
  simp [State.writeReport, hc, hp, hx]

theorem exec_storeWriteComplete {s : State} {x : StreamId} {n : Nat} (hp : s.powered = true)
    (hc : s.storePort.current = some (.write x n)) (hn : n ≤ 262143) :
    exec .storeWriteComplete s = .next (s.writeDone x n).endStore :=
  State.writeReport_next (fun x n s => s.writeDone x n) hp hc hn

theorem exec_storeWriteError {s : State} {x : StreamId} {n : Nat} (left : List Byte) (hp : s.powered = true)
    (hc : s.storePort.current = some (.write x n)) (hn : n ≤ 262143) :
    exec (.storeWriteError left) s = .next (s.writeFailed x n left).endStore :=
  State.writeReport_next (fun x n s => s.writeFailed x n left) hp hc hn

theorem storeAddress_zero (n : Nat) : storeAddress n 0 = n * 1048576 := by
  unfold storeAddress
  rw [Nat.add_zero, Config.extentBytes]

theorem get_written {n k : Nat} {b : Byte} {bytes : List Byte} (m : List Host.Cell) (h : bytes[k]? = some b) :
    Sparse.get unwrittenByte (n * 1048576 + k) (writeBytes (storeAddress n 0) bytes m) = b := by
  obtain ⟨hk, rfl⟩ := List.getElem?_eq_some_iff.mp h
  rw [storeAddress_zero, get_writeBytes_inside]

theorem get_unwritten {n a : Nat} {bytes : List Byte} (m : List Host.Cell)
    (h : a < n * 1048576 ∨ n * 1048576 + bytes.length ≤ a) :
    Sparse.get unwrittenByte a (writeBytes (storeAddress n 0) bytes m) = Sparse.get unwrittenByte a m := by
  rw [storeAddress_zero, get_writeBytes_outside _ _ _ _ h]

/-! ## The reports on a damaged segment -/

/-- A damaged segment of a file reported: each of the two reports is made if it is owed and has room (R86, R139). -/
def State.reported (s : State) (d : Finding) (f : File) : State :=
  { s with
    findings := if 0 < s.findingPlaces then s.findings ++ [d] else s.findings
    trail :=
      if f.suspectCount = 0 ∧ s.trail.entries.length < 128 then
        s.trail.append s.stamp .quarantineSet none (.file f.switchId f.sequence d.fileIndex {}) f.recordCount
      else s.trail }

/-- Whether one of the two reports is owed and not made (R86, R139). -/
def State.reportOwed (s : State) (f : File) : Bool :=
  decide (s.findingPlaces = 0 ∨ (f.suspectCount = 0 ∧ 128 ≤ s.trail.entries.length))

theorem State.quarantineOwed_file {s : State} {i : Nat} {f : File} (hf : s.file i = some f) :
    s.quarantineOwed i = decide (f.suspectCount = 0) := by
  simp only [State.quarantineOwed, State.suspectCount, hf]

theorem State.recordQuarantine_file {s : State} {i : Nat} {f : File} (kind : TrailKind) (hf : s.file i = some f) :
    s.recordQuarantine kind i = s.record kind none (.file f.switchId f.sequence i {}) f.recordCount := by
  simp only [State.recordQuarantine, hf, File.subject]

theorem State.trailRoom_eq (s : State) : s.trailRoom = decide (s.trail.entries.length < 128) := rfl

theorem State.reportDamage_file {s : State} {f : File} {d : Finding} (hf : s.file d.fileIndex = some f) :
    s.reportDamage d = (s.reported d f, s.reportOwed f) := by
  have hf' : ({ s with findings := s.findings ++ [d] } : State).file d.fileIndex = some f := hf
  have stamp : ({ s with findings := s.findings ++ [d] } : State).stamp = s.stamp := rfl
  unfold State.reportDamage State.reported State.reportOwed
  rcases Nat.eq_zero_or_pos s.findingPlaces with hp | hp
  · by_cases h0 : f.suspectCount = 0 <;> by_cases ht : s.trail.entries.length < 128 <;>
      simp [hp, h0, ht, State.quarantineOwed_file hf, State.trailRoom_eq, State.recordQuarantine_file _ hf,
        State.record]
  · by_cases h0 : f.suspectCount = 0 <;> by_cases ht : s.trail.entries.length < 128 <;>
      simp [hp, hp.ne', h0, ht, State.quarantineOwed_file hf', State.trailRoom_eq,
        State.recordQuarantine_file _ hf', State.record, stamp, Nat.le_of_not_lt]

theorem State.findingFor_file {s : State} {n i : Nat} {f : File} (kind : FindingKind) (source : FindingSource)
    (values : Option (Nat × Nat)) (hf : s.file i = some f) :
    s.findingFor kind source n i values
      = { kind, source, segment := n, fileIndex := i, switchId := f.switchId, sequence := f.sequence,
          clock := s.stamp, values } := by
  simp only [State.findingFor, hf]

/-! ## What a finished or failed write comes to -/

section
variable {s : State} {x : StreamId} {n : Nat} {image : WriteImage}

/-- What a report leaves before the segment's finish or the removal held for it: the bytes written, the image free. -/
def State.imageWritten (s : State) (x : StreamId) (n : Nat) (bytes : List Byte) : State :=
  { s with
    store := writeBytes (storeAddress n 0) bytes s.store
    encodings := s.encodings.set x { s.encodings[x] with image := none } }

theorem State.writeDone_held (hi : s.encodings[x].image = some image) (hr : s.encodings[x].removal = .held) :
    s.writeDone x n = (s.imageWritten x n (image.header ++ image.payload)).carryRemoval x := by
  simp only [State.writeDone, hi, hr, if_true]
  rfl

theorem State.writeDone_filling (hi : s.encodings[x].image = some image) (hr : s.encodings[x].removal ≠ .held)
    (hs : (s.segment n).state = .filling) :
    s.writeDone x n = (s.imageWritten x n (image.header ++ image.payload)).setSegment n
      { s.segment n with state := .stored, figures := image.figures, unreported := false } := by
  have finish : (s.imageWritten x n (image.header ++ image.payload)).finishStored n image.figures
      = some ((s.imageWritten x n (image.header ++ image.payload)).setSegment n
          { s.segment n with state := .stored, figures := image.figures, unreported := false }) := if_pos hs
  simp only [State.writeDone, hi, hr, if_false]
  exact congrArg (Option.getD · _) finish

theorem State.writeFailed_held (left : List Byte) (hi : s.encodings[x].image = some image)
    (hr : s.encodings[x].removal = .held) :
    s.writeFailed x n left
      = (s.imageWritten x n (left.take (image.header.length + image.payload.length))).carryRemoval x := by
  simp only [State.writeFailed, hi, hr, if_true]
  rfl

theorem State.finishFailed_file {f : File} (g : Figures) (b : Bool) (hs : (s.segment n).state = .filling)
    (hf : s.file (s.segment n).fileIndex = some f) :
    s.finishFailed n g b
      = some ((s.setSegment n { s.segment n with state := .suspect, figures := g, unreported := b }).setFile
          (s.segment n).fileIndex { f with suspectCount := f.suspectCount + 1 }) := by
  have hf' : (s.setSegment n { s.segment n with state := .suspect, figures := g, unreported := b }).file
      (s.segment n).fileIndex = some f := hf
  simp only [State.finishFailed, hs, if_true, State.countSuspect, hf']

/-- The WRITE_ERROR finding of a failed write (R86). -/
def State.writeErrorOn (s : State) (n : Nat) (f : File) : Finding :=
  { kind := .writeError, source := .encoder, segment := n, fileIndex := (s.segment n).fileIndex,
    switchId := f.switchId, sequence := f.sequence, clock := s.stamp }

theorem State.writeFailed_filling {f : File} (left : List Byte) (hi : s.encodings[x].image = some image)
    (hr : s.encodings[x].removal ≠ .held) (hs : (s.segment n).state = .filling)
    (hf : s.file (s.segment n).fileIndex = some f) :
    let t := s.imageWritten x n (left.take (image.header.length + image.payload.length))
    s.writeFailed x n left
      = ((t.reported (t.writeErrorOn n f) f).setSegment n
          { s.segment n with state := .suspect, figures := image.figures, unreported := t.reportOwed f }).setFile
            (s.segment n).fileIndex { f with suspectCount := f.suspectCount + 1 } := by
  intro t
  have hf' : t.file (t.segment n).fileIndex = some f := hf
  have hd : t.reportDamage (t.findingFor .writeError .encoder n (t.segment n).fileIndex none)
      = (t.reported (t.writeErrorOn n f) f, t.reportOwed f) := by
    rw [State.findingFor_file _ _ _ hf', State.reportDamage_file (by exact hf')]
    rfl
  have finish := State.finishFailed_file (s := t.reported (t.writeErrorOn n f) f) image.figures (t.reportOwed f) hs hf'
  calc s.writeFailed x n left
      = (let d := t.reportDamage (t.findingFor .writeError .encoder n (t.segment n).fileIndex none)
         (d.1.finishFailed n image.figures d.2).getD d.1) := by
        simp only [State.writeFailed, hi, hr, if_false]
        rfl
    _ = _ := by rw [hd]; exact congrArg (Option.getD · _) finish

end

end Sys2Proof.Machine

/-- Settles O42: the report writes the image's bytes and finishes the segment, and each byte of the store reads as
`writeBytes` leaves it. -/
theorem storeWriteStoresSegment : Obligations.StoreWriteStoresSegment := by
  intro s x n image hp hc hn hi hr hs
  refine ⟨writeBytes (storeAddress n 0) (image.header ++ image.payload) s.store, ?_,
    fun k b => get_written s.store, fun a => get_unwritten s.store⟩
  rw [exec_storeWriteComplete hp hc hn, State.writeDone_filling hi hr hs]
  rfl

/-- Settles O43: the finding and the QUARANTINE_SET of the failed write, then its failed finish. -/
theorem failedWriteSuspectsSegment : Obligations.FailedWriteSuspectsSegment := by
  intro s x n i image f left hp hc hn hi hr hs hni hf
  refine ⟨writeBytes (storeAddress n 0) (left.take (image.header.length + image.payload.length)) s.store, ?_,
    fun k b => get_written s.store, fun a => get_unwritten s.store⟩
  subst hni
  rw [exec_storeWriteError left hp hc hn, State.writeFailed_filling left hi hr hs hf]
  rfl
end

section
/-! PROOFS. The release and the removal of a file: O41. -/

open Sys2Proof Sys2Proof.Machine
namespace Sys2Proof.Machine

/-! ## The release of a file -/

section
variable {s t : State} {i n : Nat} {f : File} {ns : List Nat}

theorem State.segment_setSegment (s : State) (n k : Nat) (e : Segment) :
    (s.setSegment n e).segment k = if k = n then e else s.segment k := Sparse.get_set ..

theorem State.segment_freeSegment (s : State) (n k : Nat) :
    (s.freeSegment n).segment k = if k = n then { allocation := (s.segment n).allocation } else s.segment k :=
  Sparse.get_set ..

theorem State.toList_freeSegments (s : State) (ns : List Nat) :
    Runs.toList (s.freeSegments ns).freeList = Runs.toList s.freeList ++ ns := by
  induction ns generalizing s with
  | nil => simp [State.freeSegments]
  | cons n ns ih =>
    calc Runs.toList ((s.freeSegment n).freeSegments ns).freeList
        = Runs.toList (Runs.push n s.freeList) ++ ns := ih _
      _ = Runs.toList s.freeList ++ n :: ns := by simp [Runs.toList_push]

/-- A chain may name a segment twice: it is freed once and then freed again, to the same entry. -/
theorem State.segment_freeSegments (s : State) (ns : List Nat) (k : Nat) :
    (s.freeSegments ns).segment k
      = if k ∈ ns then { allocation := (s.segment k).allocation } else s.segment k := by
  induction ns generalizing s with
  | nil => simp [State.freeSegments]
  | cons n ns ih =>
    rw [show s.freeSegments (n :: ns) = (s.freeSegment n).freeSegments ns from rfl, ih, State.segment_freeSegment]
    by_cases hk : k = n
    · subst hk
      simp
    · simp [hk]

/-- Freeing segments reads and changes the catalogue and the Free Segment List only. -/
theorem State.freeSegments_eq (hs : t.segments = s.segments) (hl : t.freeList = s.freeList) :
    t.freeSegments ns
      = { t with segments := (s.freeSegments ns).segments, freeList := (s.freeSegments ns).freeList } := by
  induction ns generalizing s t with
  | nil =>
    obtain ⟨⟩ := t
    cases hs
    cases hl
    rfl
  | cons n ns ih =>
    have step : t.freeSegment n
        = { t with segments := (s.freeSegment n).segments, freeList := (s.freeSegment n).freeList } := by
      simp only [State.freeSegment, State.setSegment, State.segment, hs, hl]
    calc t.freeSegments (n :: ns)
        = (t.freeSegment n).freeSegments ns := rfl
      _ = { t.freeSegment n with
            segments := ((s.freeSegment n).freeSegments ns).segments
            freeList := ((s.freeSegment n).freeSegments ns).freeList } := ih (by rw [step]) (by rw [step])
      _ = _ := by rw [step]; rfl

/-- The release of a file reads and changes the four catalogue tables only. -/
theorem State.releaseFile_eq (hf : t.files = s.files) (hs : t.segments = s.segments) (hl : t.freeList = s.freeList)
    (hw : t.switches = s.switches) :
    t.releaseFile i f
      = { t with
          files := (s.releaseFile i f).files, segments := (s.releaseFile i f).segments
          freeList := (s.releaseFile i f).freeList, switches := (s.releaseFile i f).switches } := by
  have chain : t.chain f = s.chain f := by rw [State.chain, State.chain, hs]
  have files (u : State) (ns : List Nat) : (u.freeSegments ns).files = u.files := by rw [State.freeSegments_eq rfl rfl]
  have switches (u : State) (ns : List Nat) : (u.freeSegments ns).switches = u.switches := by
    rw [State.freeSegments_eq rfl rfl]
  simp only [State.releaseFile, State.countFile, State.switch, State.setSwitch, State.dropFile, chain, files, switches,
    hf, hw]
  rw [State.freeSegments_eq hs hl]

theorem State.file_releaseFile (s : State) (i j : Nat) (f : File) :
    (s.releaseFile i f).file j = if j = i then none else s.file j := by
  have files : (s.freeSegments (s.chain f)).files = s.files := by rw [State.freeSegments_eq rfl rfl]
  rw [show (s.releaseFile i f).file j = ((s.freeSegments (s.chain f)).dropFile i).file j from rfl, State.file_dropFile,
    State.file, State.file, files]

theorem State.switch_releaseFile (s : State) (i w : Nat) (f : File) :
    (s.releaseFile i f).switch w
      = if w = f.switchId then { s.switch w with fileCount := (s.switch w).fileCount - 1 } else s.switch w := by
  have switches : (s.freeSegments (s.chain f)).switches = s.switches := by rw [State.freeSegments_eq rfl rfl]
  have old (v : Nat) : ((s.freeSegments (s.chain f)).dropFile i).switch v = s.switch v := by
    rw [State.switch, State.switch, ← switches]
    rfl
  rw [State.releaseFile, State.countFile, old, show ∀ u : State, ∀ v e, (u.setSwitch v e).switch w
    = if w = v then e else u.switch w from fun u v e => Sparse.get_set .., old]
  split
  · next h => rw [h]
  · rfl

theorem State.releaseFile_spec (s : State) (i : Nat) (f : File) :
    let t := s.releaseFile i f
    Runs.toList t.freeList = Runs.toList s.freeList ++ s.chain f
      ∧ t.file i = none ∧ (∀ j, j ≠ i → t.file j = s.file j)
      ∧ (∀ n ∈ s.chain f, t.segment n = { allocation := (s.segment n).allocation })
      ∧ (∀ n, n ∉ s.chain f → t.segment n = s.segment n)
      ∧ t.switch f.switchId = { s.switch f.switchId with fileCount := (s.switch f.switchId).fileCount - 1 }
      ∧ (∀ w, w ≠ f.switchId → t.switch w = s.switch w)
      ∧ t = { s with
          files := t.files, segments := t.segments, freeList := t.freeList, switches := t.switches } := by
  refine ⟨State.toList_freeSegments .., ?_, fun j hj => ?_, fun n hn => ?_, fun n hn => ?_, ?_, fun w hw => ?_,
    State.releaseFile_eq rfl rfl rfl rfl⟩
  · rw [State.file_releaseFile, if_pos rfl]
  · rw [State.file_releaseFile, if_neg hj]
  · exact (State.segment_freeSegments ..).trans (if_pos hn)
  · exact (State.segment_freeSegments ..).trans (if_neg hn)
  · rw [State.switch_releaseFile, if_pos rfl]
  · rw [State.switch_releaseFile, if_neg hw]

/-! ## The removal of an INGESTING file -/

variable {x : StreamId}

/-- A stream's file removed from the catalogue, and the stream to be told (R4, R77). -/
theorem State.carryRemoval_ingesting (hfs : t.files = s.files) (hs : t.segments = s.segments)
    (hl : t.freeList = s.freeList) (hw : t.switches = s.switches) (hx : t.streams[x].fileIndex = some i)
    (hf : s.file i = some f) (hi : f.state = .ingesting) :
    t.carryRemoval x
      = { t with
          files := (s.releaseFile i f).files, segments := (s.releaseFile i f).segments
          freeList := (s.releaseFile i f).freeList, switches := (s.releaseFile i f).switches
          encodings := t.encodings.set x { t.encodings[x] with removal := .done } } := by
  have hf' : t.file i = some f := by rw [State.file, hfs]; exact hf
  simp only [State.carryRemoval, hx, Option.getD_some, State.removeFile, hf', hi, if_true,
    State.releaseFile_eq hfs hs hl hw]
  rfl

/-- The assembly area of an encoding context dropped (R77). -/
def Encoding.dropped (c : Encoding) : Encoding :=
  { c with filling := none, previous := none, recordCount := 0, durationSum := 0, dualSum := {}, baseTime := 0,
           payload := [] }

theorem State.takeAbortMarker_free (h : s.encodings[x].image = none) :
    s.takeAbortMarker x = (s.leaveHead.setEncoding x s.encodings[x].dropped).carryRemoval x := by
  simp only [State.takeAbortMarker, Encoding.dropped, h]

theorem State.takeAbortMarker_waiting {image : WriteImage} (h : s.encodings[x].image = some image)
    (hw : image.writing = false) :
    s.takeAbortMarker x
      = ((s.leaveHead.setEncoding x { s.encodings[x].dropped with image := none }).withdrawWrite x).carryRemoval x := by
  simp only [State.takeAbortMarker, Encoding.dropped, h, hw, Bool.false_eq_true, if_false]

theorem State.takeAbortMarker_writing {image : WriteImage} (h : s.encodings[x].image = some image)
    (hw : image.writing = true) :
    s.takeAbortMarker x = s.leaveHead.setEncoding x { s.encodings[x].dropped with removal := .held } := by
  simp only [State.takeAbortMarker, Encoding.dropped, h, hw, if_true]

end

theorem exec_encoderTakeHead_abort {s : State} {x : StreamId} {rest : List StagingEntry} (hp : s.powered = true)
    (hw : s.headWait = none) (hs : s.staging = .abort x :: rest) :
    exec .encoderTakeHead s = .next (s.takeAbortMarker x) := by
  rw [show exec .encoderTakeHead s = .next (s.event State.takeHead) from rfl, State.event, if_pos hp, State.takeHead,
    hw]
  simp only [State.dealHead, hs]

end Sys2Proof.Machine

/-- Settles O41: `releaseFile` from the freeing of one segment, and the removal carried out by the marker or by the
report of the write it waited for. -/
theorem abortMarkerRemovesFile : Obligations.AbortMarkerRemovesFile := by
  refine ⟨State.releaseFile_spec, fun s x rest i f hp hw hs hx hf hi => ?_,
    fun s x n i image f left hp hc hn hi hr hx hf hs => ?_⟩
  · rw [exec_encoderTakeHead_abort hp hw hs]
    refine ⟨fun h => ?_, fun image h => ⟨fun hw' => ?_, fun hw' => ?_⟩⟩
    · rw [State.takeAbortMarker_free h,
        State.carryRemoval_ingesting (t := s.leaveHead.setEncoding x _) (s := s) rfl rfl rfl rfl hx hf hi]
      simp [State.leaveHead, hs, hw, Encoding.dropped]
    · rw [State.takeAbortMarker_waiting h hw',
        State.carryRemoval_ingesting (t := (s.leaveHead.setEncoding x _).withdrawWrite x) (s := s) rfl rfl rfl rfl
          hx hf hi]
      simp [State.leaveHead, hs, hw, Encoding.dropped, State.withdrawWrite]
    · rw [State.takeAbortMarker_writing h hw']
      simp [State.leaveHead, hs, hw, Encoding.dropped, State.setEncoding]
  · intro t whole report bytes hreport
    have held (bytes : List Byte) : (s.imageWritten x n bytes).carryRemoval x
        = { s with
            store := writeBytes (storeAddress n 0) bytes s.store
            files := t.files, segments := t.segments, freeList := t.freeList, switches := t.switches
            encodings := s.encodings.set x { s.encodings[x] with image := none, removal := .done } } := by
      rw [State.carryRemoval_ingesting (t := s.imageWritten x n bytes) (s := s) rfl rfl rfl rfl hx hf hs]
      simp [State.imageWritten, t]
    refine ⟨writeBytes (storeAddress n 0) bytes s.store, ?_, fun k b => get_written s.store,
      fun a => get_unwritten s.store⟩
    rw [← held bytes]
    rcases hreport with ⟨rfl, rfl⟩ | ⟨rfl, rfl⟩
    · rw [exec_storeWriteComplete hp hc hn, State.writeDone_held hi hr]
    · rw [exec_storeWriteError left hp hc hn, State.writeFailed_held left hi hr, List.length_append]
end

section
/-! PROOFS. The first record of a segment: O38. -/

open Sys2Proof Sys2Proof.Machine
namespace Sys2Proof.Machine

section
variable {s : State} {x : StreamId} {r : CallRecord} {rest : List StagingEntry} {i n : Nat} {f : File}
  {free : List (Nat × Nat)}

/-! ## Segment allocation, with the Free Segment List not empty -/

theorem State.allocate_done (hf : s.file i = some f) (hi : f.state = .ingesting)
    (hn : Runs.pop s.freeList = some (n, free)) (hl : f.segmentCount ≠ 512) :
    s.allocate i = .done ⟨n, ((s.segment n).allocation + 1) % 65536, f.segmentCount⟩ (s.allocated i f n free) := by
  unfold State.allocate
  simp only [hf]
  rw [if_neg (not_not.mpr hi)]
  simp only [hn]
  exact if_neg hl

theorem State.allocate_chainFull (hf : s.file i = some f) (hi : f.state = .ingesting)
    (hn : Runs.pop s.freeList = some (n, free)) (hl : f.segmentCount = 512) : s.allocate i = .chainFull := by
  simp only [State.allocate, hf, hi, hn, ne_eq, not_true, if_false, Config.chainLimit, hl, if_true]

theorem State.allocated_eq (s : State) (i : Nat) (f : File) (n : Nat) (free : List (Nat × Nat)) :
    s.allocated i f n free
      = { s with
          freeList := free
          segments := Sparse.set {} n
            { state := .filling, allocation := ((s.segment n).allocation + 1) % 65536, fileIndex := i,
              ordinal := f.segmentCount }
            (match f.lastSegment with
              | some k => Sparse.set {} k { s.segment k with next := some n } s.segments
              | none => s.segments)
          files := Sparse.set none i (some
            { f with
              firstSegment := (match f.firstSegment with | some k => some k | none => some n)
              lastSegment := some n, segmentCount := f.segmentCount + 1 }) s.files } := by
  unfold State.allocated
  cases f.lastSegment <;> rfl

/-! ## The first record of a segment -/

/-- The encoding context once a record is the first one of a segment (R72). -/
def Encoding.startedWith (c : Encoding) (g : Filling) (r : CallRecord) : Encoding :=
  { c with
    filling := some g, previous := some { start := r.start, calling := r.calling, called := r.called }
    recordCount := 1, durationSum := r.duration, baseTime := r.start, payload := encodeRecord { start := r.start } r
    dualSum := DualSum.feedAll {} (encodeRecord { start := r.start } r) }

theorem State.endEpisode_eq (s : State) :
    s.endEpisode
      = { s with
          storeFullEpisode := false
          encodings :=
            if s.storeFullEpisode then mapVector (fun c : Encoding => { c with storeFullNotified := false }) s.encodings
            else s.encodings } := by
  unfold State.endEpisode
  cases h : s.storeFullEpisode
  · obtain ⟨⟩ := s
    cases h
    rfl
  · rfl

theorem State.placeFirst_done (hx : s.streams[x].fileIndex = some i) (hf : s.file i = some f)
    (hi : f.state = .ingesting) (hn : Runs.pop s.freeList = some (n, free)) (hl : f.segmentCount ≠ 512) :
    s.placeFirst x r
      = ((s.allocated i f n free).endEpisode.updateEncoding x
          (·.startedWith ⟨n, ((s.segment n).allocation + 1) % 65536, f.segmentCount⟩ r)).leaveHead := by
  simp only [State.placeFirst, hx, Option.getD_some, State.allocate_done hf hi hn hl]
  congr
  funext c
  simp [Encoding.append, Encoding.startedWith, firstPrevious, CallRecord.asPrevious]

theorem State.placeFirst_chainFull (hx : s.streams[x].fileIndex = some i) (hf : s.file i = some f)
    (hi : f.state = .ingesting) (hn : Runs.pop s.freeList = some (n, free)) (hl : f.segmentCount = 512) :
    s.placeFirst x r = s.discardCounted x r := by
  simp only [State.placeFirst, hx, Option.getD_some, State.allocate_chainFull hf hi hn hl]

/-- A record to be placed with no segment filling asks for one (R71, R72). -/
theorem State.dealHead_first (hs : s.staging = .record x r :: rest) (ha : s.streams[x].state ≠ .aborting)
    (hw : s.headWait ≠ some .abandoned) (hc : s.encodings[x].chainFull = false)
    (hg : s.encodings[x].filling = none) : s.dealHead = s.placeFirst x r := by
  have hd : s.discardable x = false := by
    rw [State.discardable, decide_eq_false ha, decide_eq_false hw]
    rfl
  have hfin : s.finishSegment x = some s := by simp only [State.finishSegment, hg]
  simp only [State.dealHead, hs, hd, hc, State.placeRecord, hg, hfin, Option.isSome_none, Bool.false_eq_true,
    false_and, if_false]

end

end Sys2Proof.Machine

/-- Settles O38: the head entry asks for a segment, the allocation answers DONE or CHAIN FULL by the segment count, and
the record starts the segment or is counted. -/
theorem firstRecordTakesHeadSegment : Obligations.FirstRecordTakesHeadSegment := by
  intro s x r rest i n f free hp hs ha hc hg hx hf hi hn allocation encodings linked placed
  have done (hl : f.segmentCount ≠ 512) (hw : s.headWait ≠ some .abandoned) : s.dealHead = placed := by
    obtain rfl : s.staging.tail = rest := by rw [hs, List.tail_cons]
    rw [State.dealHead_first hs ha hw hc hg, State.placeFirst_done hx hf hi hn hl, State.endEpisode_eq,
      State.allocated_eq]
    rfl
  refine ⟨fun hl hw => ?_, fun hl hw => ?_, fun hl hw => ?_⟩
  · rw [← done hl (by simp [hw]), show exec .encoderTakeHead s = .next (s.event State.takeHead) from rfl, State.event,
      if_pos hp, State.takeHead, hw]
  · rw [← done hl (by simp [hw]), show exec .storeFullWaitRetry s = .next (s.event State.retryStoreFull) from rfl,
      State.event, if_pos hp, State.retryStoreFull, if_pos hw]
  · rw [show exec .encoderTakeHead s = .next (s.event State.takeHead) from rfl, State.event, if_pos hp,
      State.takeHead, hw]
    simp only
    rw [State.dealHead_first hs ha (by simp [hw]) hc hg, State.placeFirst_chainFull hx hf hi hn hl]
    simp [State.discardCounted, State.updateEncoding, State.setEncoding, State.leaveHead, hs, hw]
end

section
/-! PROOFS. Requests that ask the catalogue, and OPEN FILE: O19, O20. -/

open Sys2Proof Sys2Proof.Machine
namespace Sys2Proof.Machine

/-! ## Requests that ask the catalogue: answered at once, or later in their turn -/

section
variable {s : State} {p : PortId} {tag : Byte}

theorem State.opening_free {α : Type} {need : RoleSet → Bool} {ask : State → Except Status α}
    (request : α → OpeningRequest) (answer : α → State → Answer) {b : α} (h : s.admits p tag)
    (hr : need (s.roles p) = true) (hk : ask s = .ok b) (hb : s.catalogueBusy = false) (ho : s.openings = []) :
    s.opening p tag need ask request answer = (answer b s).send p tag := by
  have free : s.catalogueFree = true := s.catalogueFree_iff.mpr ⟨hb, ho⟩
  rw [State.opening, State.receive_admitted _ h]
  simp only [State.permit, hr, hk, free, if_true]

theorem State.opening_waits {α : Type} {need : RoleSet → Bool} {ask : State → Except Status α}
    (request : α → OpeningRequest) (answer : α → State → Answer) {b : α} (h : s.admits p tag)
    (hr : need (s.roles p) = true) (hk : ask s = .ok b) (hb : s.catalogueBusy = true ∨ s.openings ≠ []) :
    s.opening p tag need ask request answer = s.askCatalogue p tag (request b) := by
  have free : s.catalogueFree = false := by
    rw [← Bool.not_eq_true, s.catalogueFree_iff]
    rintro ⟨hb', ho⟩
    exact hb.elim (by simp [hb']) (· ho)
  rw [State.opening, State.receive_admitted _ h]
  simp only [State.permit, hr, hk, free, if_true, Bool.false_eq_true, if_false]

theorem State.answer_of_mem {standing : Standing} (status : Status) (body : ReplyBody)
    (h : ⟨tag, standing⟩ ∈ s.ports[p].outstanding) :
    s.answer p tag status body = (s.freeTag p tag).reply p tag status body := by
  rcases s.answer_cases p tag status body with ⟨-, e⟩ | ⟨hn, -⟩
  · exact e
  · exact absurd rfl (hn _ h)

/-- With no command and no reply waiting, the oldest request outstanding in the catalogue is answered. -/
theorem step_answersOpening {request : OpeningRequest} {rest : List Opening} (hq : s.pending = [])
    (hp : s.powered = true) (hu : ∀ q : PortId, s.ports[q].unsent = [])
    (ho : s.openings = ⟨p, some tag, request⟩ :: rest) :
    step s = .next ((({ s with openings := rest } : State).openingAnswer p request).sendLate p tag) := by
  have none_waits : (List.finRange 4).find? (fun p => s.ports[p].unsent ≠ []) = none := by
    rw [List.find?_eq_none]
    intro q _
    simpa using hu q
  simp only [step, hq, State.idle, hp, Bool.not_true, Bool.false_eq_true, if_false, none_waits, ho]
  rfl

end

/-! ## OPEN FILE -/

section
variable {s : State} {p : PortId} {b : OpeningFile}

theorem State.openFileBar_none {d c : Nat} {k : Fin 4}
    (hm : mapsRequired s.settings.profiles[k].map.toList = true) (hc : s.clock.state ≠ .unset)
    (hd : d ≤ s.clock.value / 86400) (hr : s.retentionOf c = 0 ∨ s.clock.value / 86400 < d + s.retentionOf c) :
    s.openFileBar d c k = none := by
  have today : s.today = s.clock.value / 86400 := rfl
  have set : s.clockIsSet = true := decide_eq_true hc
  have eligible : ¬(s.retentionOf c ≠ 0 ∧ d + s.retentionOf c ≤ s.clock.value / 86400) := by omega
  rw [State.openFileBar, hm, set, today, if_neg (by simp), if_neg (by simp), if_neg (by omega), if_neg eligible]

theorem State.openFile_ok {w q d : Nat} {c f : Byte} {k : Fin 4} {x : StreamId} (hw : w ≤ 1023) (hd : d ≤ 49709)
    (hc : c.toNat ≤ 7) (hf : f.toNat = k.val) (hb : s.openFileBar d c.toNat k = none) (hx : s.freeStream = some x) :
    s.openFile w q d c f = .ok ⟨w, q, d, c.toNat, k, x⟩ := by
  have hk : readIndex 4 f = some k := by
    rw [readIndex, dif_pos (by omega)]
    exact congrArg some (Fin.ext hf)
  have hw' : upTo Config.lastSwitch w = some w := if_pos hw
  have hd' : upTo Config.lastDay d = some d := if_pos hd
  have hc' : readUpTo 7 c = some c.toNat := if_pos hc
  simp only [State.openFile, hk, hw', hd', hc', hb, hx]

theorem State.newEntryAnswer_eq {w q : Nat} (hn : s.findFile w q = none) (hl : s.heldFiles.length < 131072) :
    s.newEntryAnswer w q = .done s.lowestFreeFile := by
  have hl' : ¬Config.fileEntries ≤ s.heldFiles.length := Nat.not_le.mpr hl
  rw [State.newEntryAnswer, hn, if_neg (by simp), if_neg hl']

theorem State.openFileAnswer_done (hn : s.findFile b.switchId b.sequence = none) (hl : s.heldFiles.length < 131072) :
    s.openFileAnswer p b
      = .ok (.opened b.stream s.lowestFreeFile)
          ((s.createOpened p s.lowestFreeFile b).startStream b.stream b.switchId b.sequence) := by
  rw [State.openFileAnswer, State.newEntryAnswer_eq hn hl]

/-- The state an OPEN FILE leaves: its entry, its switch's file count, and its stream in the context `st`. -/
def State.opened (s : State) (p : PortId) (b : OpeningFile) (st : Stream) : State :=
  (s.createFile s.lowestFreeFile (newFile s b.switchId b.sequence b.fileDay b.retentionClass b.profile p)).setStream
    b.stream st

/-- The context a file opens on, waiting for its first chunk with its countdown loaded (R25, R29). -/
def starvedStream (s : State) (p : PortId) (b : OpeningFile) : Stream :=
  { openedStream p s.lowestFreeFile b.switchId b.sequence b.profile with
    state := .starved, countdown := .running (10 * (s.settings.ports[p].streamTimeout + 1)) }

/-- The context a file opens on with its SEQUENCE_GAP waiting for room (R25, R41). -/
def gapStream (s : State) (p : PortId) (b : OpeningFile) (e : Nat) : Stream :=
  { openedStream p s.lowestFreeFile b.switchId b.sequence b.profile with
    state := .posting, pending := some ⟨.sequenceGap e b.sequence, .starved⟩ }

theorem State.expected_createOpened (s : State) (p : PortId) (i : Nat) (b : OpeningFile) :
    ((s.createOpened p i b).switch b.switchId).expected = (s.switch b.switchId).expected := by
  have h : (s.createOpened p i b).switch b.switchId
      = { s.switch b.switchId with fileCount := (s.switch b.switchId).fileCount + 1 } :=
    (Sparse.get_set ..).trans (if_pos rfl)
  rw [h]

theorem State.enterWaiting_setStream (s : State) (x : StreamId) (st : Stream) (state : StreamState) :
    (s.setStream x st).enterWaiting x state
      = s.setStream x
          { st with state, countdown := .running (10 * (s.settings.ports[st.port].streamTimeout + 1)) } := by
  simp [State.enterWaiting, State.streamSeconds, State.updateStream, State.setStream, Countdown.load, timeoutSeconds]

theorem State.startStream_noGap
    (he : ∀ e ∈ (s.switch b.switchId).expected, e = b.sequence) :
    (s.createOpened p s.lowestFreeFile b).startStream b.stream b.switchId b.sequence
      = s.opened p b (starvedStream s p b) := by
  have start : (s.createOpened p s.lowestFreeFile b).startStream b.stream b.switchId b.sequence
      = (s.createOpened p s.lowestFreeFile b).enterWaiting b.stream .starved := by
    rw [State.startStream, State.expected_createOpened]
    cases h : (s.switch b.switchId).expected with
    | none => rfl
    | some e => exact if_pos (he e h)
  rw [start, State.createOpened, State.enterWaiting_setStream]
  rfl

/-- The state an OPEN FILE with a sequence gap leaves: SEQUENCE_GAP posted, or waiting behind the wait list (R25,
R41). -/
def State.openedWithGap (s : State) (p : PortId) (b : OpeningFile) (e : Nat) : State :=
  if s.completionRoom p then
    { s.opened p b (starvedStream s p b) with
      completions := s.completions ++ [⟨p, b.stream, b.switchId, b.sequence, .sequenceGap e b.sequence⟩] }
  else { s.opened p b (gapStream s p b e) with waiting := s.waiting ++ [.post b.stream] }

theorem State.startStream_gap {e : Nat} (he : (s.switch b.switchId).expected = some e) (hne : e ≠ b.sequence) :
    (s.createOpened p s.lowestFreeFile b).startStream b.stream b.switchId b.sequence = s.openedWithGap p b e := by
  have start : (s.createOpened p s.lowestFreeFile b).startStream b.stream b.switchId b.sequence
      = (s.createOpened p s.lowestFreeFile b).postThen b.stream (.sequenceGap e b.sequence) .starved := by
    simp only [State.startStream, State.expected_createOpened, he, hne, if_false]
  have stream : (s.createOpened p s.lowestFreeFile b).streams[b.stream]
      = openedStream p s.lowestFreeFile b.switchId b.sequence b.profile := by
    simp [State.createOpened]
  rw [start, State.openedWithGap]
  cases hr : s.completionRoom p with
  | true =>
    have posted : (s.createOpened p s.lowestFreeFile b).post b.stream (.sequenceGap e b.sequence)
        = ({ s with
            completions := s.completions ++ [⟨p, b.stream, b.switchId, b.sequence, .sequenceGap e b.sequence⟩] } : State
          ).createOpened p s.lowestFreeFile b := by
      rw [State.post, stream]
      rfl
    rw [State.postThen, State.tryPost_room _ (by rw [stream]; exact hr) (by rw [stream]; rfl), posted]
    simp only [State.afterPost, State.createOpened, State.enterWaiting_setStream]
    rfl
  | false =>
    rw [State.postThen, State.tryPost_full _ (by rw [stream]; exact hr)]
    simp only [State.waitPost, State.createOpened, State.updateStream, State.setStream, set_set_fin, getElem_set_fin]
    rfl

@[simp] theorem State.openedWithGap_ports (s : State) (p : PortId) (b : OpeningFile) (e : Nat) :
    (s.openedWithGap p b e).ports = s.ports := by
  unfold State.openedWithGap
  split <;> rfl

variable {tag : Byte}

theorem State.freeTag_openedWithGap (s : State) (p : PortId) (b : OpeningFile) (e : Nat) :
    (s.openedWithGap p b e).freeTag p tag = (s.freeTag p tag).openedWithGap p b e := by
  unfold State.openedWithGap
  rw [show (s.freeTag p tag).completionRoom p = s.completionRoom p from rfl]
  split <;> rfl

/-- OPEN FILE with nothing against it and a free catalogue is answered in the step that takes it. -/
theorem exec_openFile_free {w q d : Wire16} {c f : Byte} (ha : s.admits p tag) (hr : (s.roles p).ingest = true)
    (ask : s.openFile (wire16 (s.byteOrder p) w) (wire16 (s.byteOrder p) q) (wire16 (s.byteOrder p) d) c f = .ok b)
    (hb : s.catalogueBusy = false) (ho : s.openings = []) :
    exec (.openFile p tag w q d c f) s = .next ((s.openFileAnswer p b).send p tag) :=
  congrArg Host.Outcome.next
    (State.opening_free (need := fun r => r.ingest) .file (fun b s => s.openFileAnswer p b) ha hr ask hb ho)

/-- The answer to an OPEN FILE whose new-entry request was outstanding. -/
theorem step_answersOpenFile {u : State} {rest : List Opening} (hq : s.pending = []) (hp : s.powered = true)
    (hw : ∀ q : PortId, s.ports[q].unsent = []) (ho : s.openings = ⟨p, some tag, .file b⟩ :: rest)
    (hu : u = { s with openings := rest }) (hn : u.findFile b.switchId b.sequence = none)
    (hl : u.heldFiles.length < 131072) :
    step s = .next (((u.createOpened p u.lowestFreeFile b).startStream b.stream b.switchId b.sequence).answer p tag .ok
      (.opened b.stream u.lowestFreeFile)) := by
  rw [step_answersOpening hq hp hw ho, ← hu, State.openingAnswer, State.openFileAnswer_done hn hl]
  rfl

end

end Sys2Proof.Machine

/-- Settles O19: with no gap the stream set up is STARVED, and the answer is sent at once or, when the request waited
its turn, for the outstanding entry. -/
theorem openFileCompletes : Obligations.OpenFileCompletes := by
  unfold Obligations.OpenFileCompletes
  intro opened fresh
  refine ⟨?_, ?_⟩
  · intro s p tag w q d c f k x b ha hr hw hd hc hf hm hset htoday hret hx hlow
    have ask : s.openFile b.switchId b.sequence b.fileDay c f = .ok b :=
      State.openFile_ok hw hd hc hf (State.openFileBar_none hm hset htoday hret) (State.freeStream_eq_some hx hlow)
    refine ⟨fun hb ho ⟨hn, hl, he⟩ => ?_, fun hb => ?_⟩
    · rw [exec_openFile_free ha hr ask hb ho, State.openFileAnswer_done hn hl, State.startStream_noGap he]
      rfl
    · exact congrArg Host.Outcome.next
        (State.opening_waits (need := fun r => r.ingest) .file (fun b s => s.openFileAnswer p b) ha hr ask hb)
  · rintro s p tag b rest hq hp hu ho hm ⟨hn, hl, he⟩
    rw [step_answersOpenFile hq hp hu ho rfl hn hl, State.startStream_noGap (s := { s with openings := rest }) he]
    exact congrArg Host.Outcome.next (State.answer_of_mem _ _ hm)

/-- Settles O20: with a gap SEQUENCE_GAP is posted or waits, by the room in the Completion Queue. -/
theorem sequenceGapPosted : Obligations.SequenceGapPosted := by
  unfold Obligations.SequenceGapPosted
  intro opened posted gap
  have posted_eq (u : State) (p : PortId) (b : OpeningFile) (e : Nat) : u.openedWithGap p b e = posted u p b e := by
    simp only [State.openedWithGap, State.completionRoom_iff]
    rfl
  refine ⟨?_, ?_⟩
  · intro s p tag w q d c f k x e b ha hr hw hd hc hf hm hset htoday hret hx hlow hb ho hgap
    obtain ⟨hn, hl, he, hne⟩ := hgap
    have ask : s.openFile b.switchId b.sequence b.fileDay c f = .ok b :=
      State.openFile_ok hw hd hc hf (State.openFileBar_none hm hset htoday hret) (State.freeStream_eq_some hx hlow)
    rw [exec_openFile_free ha hr ask hb ho, State.openFileAnswer_done hn hl, State.startStream_gap he hne, posted_eq]
    rfl
  · rintro s p tag b e rest hq hp hu ho hm ⟨hn, hl, he, hne⟩
    rw [step_answersOpenFile hq hp hu ho rfl hn hl, State.startStream_gap (s := { s with openings := rest }) he hne]
    refine (congrArg Host.Outcome.next (State.answer_of_mem (standing := .opening) _ _ ?_)).trans ?_
    · rw [State.openedWithGap_ports]
      exact hm
    · rw [State.freeTag_openedWithGap, posted_eq]
      rfl
end

section
/-! PROOFS. The informational requests and PART STATUS: O58. -/

open Sys2Proof Sys2Proof.Machine
namespace Sys2Proof.Machine

/-! ## Operands in range -/

theorem upTo_eq_some {limit n m : Nat} : upTo limit n = some m ↔ n ≤ limit ∧ n = m := by
  simp [upTo]

theorem upTo_eq_none {limit n : Nat} : upTo limit n = none ↔ limit < n := by
  simp [upTo]

theorem range_of_readSelector {n : Nat} {w : Option Nat} (h : readSelector n = some w) : n = 65535 ∨ n ≤ 1023 := by
  unfold readSelector at h
  split at h
  · next h' => exact .inl h'
  · split at h
    · next h' => exact .inr h'
    · cases h

theorem range_of_readStates {b : Byte} {states : List FileState} (h : readStates b = some states) :
    b ≠ 0 ∧ b.toNat ≤ 15 := by
  unfold readStates at h
  split at h
  · cases h
  · next hn =>
    rw [not_or] at hn
    exact ⟨hn.1, Nat.le_of_not_lt hn.2⟩

/-! ## The informational requests -/

section
variable {s : State} {p : PortId} {tag : Byte}

theorem RoleSet.anyRole_of_ne {r : RoleSet} (h : r ≠ ⟨false, false, false, false⟩) : r.anyRole = true := by
  rw [← Bool.not_eq_false]
  intro hn
  obtain ⟨i, t, a, d⟩ := r
  simp only [RoleSet.anyRole, Bool.or_eq_false_iff] at hn
  obtain ⟨⟨⟨rfl, rfl⟩, rfl⟩, rfl⟩ := hn
  exact h rfl

theorem exec_fileInfo (ha : s.admits p tag) (hr : (s.roles p).anyRole = true) (w q : Wire16) :
    exec (.fileInfo p tag w q) s
      = .next ((s.fileInfo (wire16 (s.byteOrder p) w) (wire16 (s.byteOrder p) q)).send p tag) :=
  congrArg Host.Outcome.next (State.request_admitted _ ha hr)

theorem exec_listFiles (ha : s.admits p tag) (hr : (s.roles p).anyRole = true) (w a b : Wire16) (states count : Byte)
    (start : Wire32) :
    exec (.listFiles p tag w a b states start count) s
      = .next ((s.listFiles (wire16 (s.byteOrder p) w) (wire16 (s.byteOrder p) a) (wire16 (s.byteOrder p) b) states
          (wire32 (s.byteOrder p) start) count.toNat).send p tag) :=
  congrArg Host.Outcome.next (State.request_admitted _ ha hr)

theorem exec_segmentInfo (ha : s.admits p tag) (hr : (s.roles p).audit = true ∨ (s.roles p).admin = true)
    (n : Wire32) :
    exec (.segmentInfo p tag n) s = .next ((s.segmentInfo (wire32 (s.byteOrder p) n)).send p tag) :=
  congrArg Host.Outcome.next (State.request_admitted _ ha (Bool.or_eq_true_iff.mpr hr))

theorem State.fileInfo_held {w q i : Nat} {f : File} (hw : w ≤ 1023) (hf : s.findFile w q = some (i, f)) :
    s.fileInfo w q = .ok (.fileInfo i f (s.switch w).fileCount (s.switch w).expected (s.expireDay f)) s := by
  simp only [State.fileInfo, upTo_eq_some.mpr ⟨hw, rfl⟩, hf]

theorem State.fileInfo_range {w q : Nat} (hw : 1023 < w) : s.fileInfo w q = .refusal .badRequest s := by
  simp only [State.fileInfo, upTo_eq_none.mpr hw]

theorem State.fileInfo_none {w q : Nat} (hw : w ≤ 1023) (hf : s.findFile w q = none) :
    s.fileInfo w q = .refusal .noFile s := by
  simp only [State.fileInfo, upTo_eq_some.mpr ⟨hw, rfl⟩, hf]

theorem State.listFiles_ok {n a b start count : Nat} {states : Byte} {selector : Option Nat} {kinds : List FileState}
    (hn : readSelector n = some selector) (hs : readStates states = some kinds) (hab : a ≤ b) (hb : b ≤ 49709)
    (hk : start ≤ 131071) :
    s.listFiles n a b states start count = s.walkFiles ⟨selector, a, b, kinds, start⟩ count := by
  have ha : a ≤ Config.lastDay := hab.trans hb
  have hb' : b ≤ Config.lastDay := hb
  have hk' : start ≤ Config.fileEntries - 1 := hk
  simp only [State.listFiles, hn, hs, upTo_eq_some.mpr ⟨ha, rfl⟩, upTo_eq_some.mpr ⟨hb', rfl⟩,
    upTo_eq_some.mpr ⟨hk', rfl⟩, hab, if_true]

theorem State.listFiles_refused {n a b start count : Nat} {states : Byte}
    (h : (1023 < n ∧ n ≠ 65535) ∨ 49709 < a ∨ 49709 < b ∨ b < a ∨ states = 0 ∨ 15 < states.toNat ∨ 131071 < start) :
    s.listFiles n a b states start count = .refusal .badRequest s := by
  unfold State.listFiles
  split
  · next w a' b' t k hn ha hb hs hk =>
    obtain ⟨-, rfl⟩ := upTo_eq_some.mp ha
    obtain ⟨hbl, rfl⟩ := upTo_eq_some.mp hb
    obtain ⟨hkl, -⟩ := upTo_eq_some.mp hk
    obtain ⟨h0, h15⟩ := range_of_readStates hs
    have hn := range_of_readSelector hn
    split
    · next hab =>
      have hb' : b ≤ 49709 := hbl
      have hk' : start ≤ 131071 := hkl
      simp only [h0, false_or] at h
      omega
    · rfl
  · rfl

/-- The entries of LIST FILES, each matched on the five conditions of R19. -/
theorem FileQuery.selects_eq (q : FileQuery) (i : Nat) (f : File) :
    q.selects i f
      = decide (q.start ≤ i ∧ (q.selector = none ∨ q.selector = some f.switchId) ∧ q.firstDay ≤ f.fileDay
          ∧ f.fileDay ≤ q.lastDay ∧ f.state ∈ q.states) := by
  rw [Bool.eq_iff_iff]
  cases h : q.selector <;> simp [FileQuery.selects, h, and_assoc]

theorem continuation_eq (start limit : Nat) (found : List FileReference) :
    continuation start limit found
      = if limit = 0 then some start
        else if found.length < limit then none
        else found.getLast?.bind (fun r => if r.fileIndex < 131071 then some (r.fileIndex + 1) else none) := by
  have after : indexAfter = fun r => if r.fileIndex < 131071 then some (r.fileIndex + 1) else none := by
    funext r
    exact if_congr Nat.succ_lt_succ_iff rfl rfl
  rw [continuation, after]

theorem State.segmentInfo_free {n : Nat} (hn : n ≤ 262143) (h : (s.segment n).state = .free) :
    s.segmentInfo n = .ok (.segmentInfo (s.segment n) 0 0) s := by
  have hn' : n < Config.segmentNumbers := Nat.lt_succ_of_le hn
  simp only [State.segmentInfo, hn', h, if_true]
  cases s.file (s.segment n).fileIndex <;> rfl

theorem State.segmentInfo_used {n : Nat} {f : File} (hn : n ≤ 262143) (h : (s.segment n).state ≠ .free)
    (hf : s.file (s.segment n).fileIndex = some f) :
    s.segmentInfo n = .ok (.segmentInfo (s.segment n) f.switchId f.sequence) s := by
  have hn' : n < Config.segmentNumbers := Nat.lt_succ_of_le hn
  simp only [State.segmentInfo, hn', h, hf, if_true, if_false]

theorem State.segmentInfo_range {n : Nat} (hn : 262143 < n) : s.segmentInfo n = .refusal .badRequest s := by
  have hn' : ¬n < Config.segmentNumbers := Nat.not_lt.mpr hn
  simp only [State.segmentInfo, hn', if_false]

/-! ## PART STATUS -/

theorem exec_partStatus (hh : s.hears p = true) (hl : s.ports[p].outstanding.length < 8)
    (ht : ∀ o ∈ s.ports[p].outstanding, o.tag ≠ tag) :
    exec (.partStatus p tag) s = .next (s.reply p tag .ok (.status (s.snapshot p))) := by
  have he := (s.entryBar_eq_none p tag).mpr ⟨hl, ht⟩
  have hf := (s.frameBar_eq_none true).mpr (.inl rfl)
  rw [show exec (.partStatus p tag) s
      = .next (s.receive p tag true true (fun s => (Answer.ok (.status (s.snapshot p)) s).send p tag)) from rfl,
    State.receive, if_pos hh, he, hf]
  rfl

/-- Counting over a vector is counting over its places. -/
theorem length_filter_toList {β : Type} {n : Nat} (v : Vector β n) (t : β → Bool) :
    (v.toList.filter t).length = ((List.finRange n).filter (fun c => t v[c])).length := by
  rw [toList_eq_map_finRange, List.filter_map, List.length_map]
  rfl

theorem State.freeListEmpty_iff (s : State) : s.freeListEmpty = true ↔ Runs.toList s.freeList = [] := by
  rw [Runs.toList_pop, State.freeListEmpty]
  cases Runs.pop s.freeList <;> simp

theorem State.stagingRecords_eq (s : State) :
    s.stagingRecords
      = s.staging.countP (fun e => match e with | .record _ _ => true | .close _ => false | .abort _ => false) := by
  rw [State.stagingRecords, List.countP_eq_length_filter]
  congr 2
  funext e
  cases e <;> rfl

end

end Sys2Proof.Machine

/-- Settles O58: each request's answer by its cases, and the snapshot field by field. -/
theorem informationChangesNothing : Obligations.InformationChangesNothing := by
  intro s p tag
  refine ⟨fun ha hr => ?_, fun hh hl ht => ⟨s.snapshot p, exec_partStatus hh hl ht, ?_⟩⟩
  · have any := RoleSet.anyRole_of_ne hr
    refine ⟨fun w q i f hw hf => ?_, fun w a b states count start selector kinds hs hk hab hb hst => ?_,
      fun audit n f hn => ⟨fun h => ?_, fun h hf => ?_⟩, fun w q => ⟨fun hw => ?_, fun hw hf => ?_⟩,
      fun w a b states count start h => ?_, fun audit n hn => ?_⟩
    · rw [exec_fileInfo ha any, State.fileInfo_held hw hf]
      rfl
    · rw [exec_listFiles ha any, State.listFiles_ok hs hk hab hb hst, State.walkFiles]
      simp only [FileQuery.selects_eq, continuation_eq]
      rfl
    · rw [exec_segmentInfo ha audit, State.segmentInfo_free hn h]
      rfl
    · rw [exec_segmentInfo ha audit, State.segmentInfo_used hn h hf]
      rfl
    · rw [exec_fileInfo ha any, State.fileInfo_range hw]
      rfl
    · rw [exec_fileInfo ha any, State.fileInfo_none hw hf]
      rfl
    · rw [exec_listFiles ha any, State.listFiles_refused h]
      rfl
    · rw [exec_segmentInfo ha audit, State.segmentInfo_range hn]
      rfl
  · refine ⟨rfl, rfl, ?_, ?_, ?_, rfl, s.freeListEmpty_iff, ?_, ?_, rfl, rfl, rfl, Runs.count_eq_length _,
      length_filter_toList _ _, s.stagingRecords_eq, rfl, ?_, rfl, length_filter_toList _ _, rfl, rfl, rfl, rfl, rfl,
      rfl, rfl, rfl, rfl, rfl, rfl, rfl, length_filter_toList _ _⟩
    · cases hc : s.controller <;> simp [State.snapshot, State.isStarting, hc]
    · rfl
    · intro k
      simp [State.snapshot]
    · exact decide_eq_true_iff
    · exact decide_eq_true_iff
    · exact List.countP_eq_length_filter.symm
end

section
/-! PROOFS. The acceptance of a stream: O35. -/

open Sys2Proof Sys2Proof.Machine
namespace Sys2Proof.Machine

/-! ## Acceptance -/

section
variable {s : State} {x : StreamId} {st : Stream} {p : PortId} {i : Nat} {f : File} {reasons : DisputeReasons}

theorem State.updateStream_eq (h : s.streams[x] = st) (g : Stream → Stream) :
    s.updateStream x g = s.setStream x (g st) := by rw [State.updateStream, h]

/-- With room a post of a stream is made and the stream goes on (R41). -/
theorem State.postThen_room (d : CompletionDetail) (after : AfterPost) (hr : s.completionRoom st.port = true)
    (hn : st.storeFullNotice = false) :
    (s.setStream x st).postThen x d after
      = State.afterPost
          (({ s with
              completions := s.completions ++ [⟨st.port, x, st.switchId.getD 0, st.sequence.getD 0, d⟩] } : State
            ).setStream x st) x after := by
  have stream : (s.setStream x st).streams[x] = st := getElem_set_fin ..
  rw [State.postThen, State.tryPost_room _ (by rw [stream]; exact hr) (by rw [stream]; exact hn)]
  simp only [State.post, stream]
  rfl

/-- Without room the stream waits with its post (R41, R42). -/
theorem State.postThen_full (d : CompletionDetail) (after : AfterPost) (hr : s.completionRoom st.port = false) :
    (s.setStream x st).postThen x d after
      = { s with
          waiting := s.waiting ++ [WaitItem.post x]
          streams := s.streams.set x
            { st with state := .posting, pending := some ⟨d, after⟩, countdown := .stopped } } := by
  have stream : (s.setStream x st).streams[x] = st := getElem_set_fin ..
  rw [State.postThen, State.tryPost_full _ (by rw [stream]; exact hr)]
  simp only [State.waitPost, State.updateStream, stream]
  simp only [State.setStream, set_set_fin]

theorem State.setStream_self (h : s.streams[x] = st) : s.setStream x st = s := by
  rw [State.setStream, ← h]
  simp

/-- The catalogue and the trail once a stream's file is accepted (R3, R17, R40). -/
def State.acceptedBy (s : State) (i : Nat) (f : File) (p : PortId) (st : Stream) (reasons : DisputeReasons) : State :=
  { s with
    trail := s.trail.append s.stamp .fileAccepted (some p) (.file f.switchId f.sequence i reasons) st.accepted
    files := Sparse.set none i (some
      { f with
        state := if reasons = {} then .accepted else .disputed, recordCount := st.accepted,
        rejectedCount := st.rejected, durationTotal := min st.duration 999999999999999, reasons,
        trailer := st.trailer, acceptedAt := some s.stamp }) s.files
    switches := Sparse.set {} f.switchId
      { s.switch f.switchId with expected := some ((f.sequence + 1) % 65536) } s.switches }

/-- A stream context whose verdict is given to its file. -/
def Stream.unjudged (st : Stream) : Stream := { st with verdict := none }

/-- A stream in context `st`, owned by port `p`, with its INGESTING file `f` at index `i` (R25). -/
structure State.Ingests (s : State) (x : StreamId) (st : Stream) (p : PortId) (i : Nat) (f : File) : Prop where
  stream : s.streams[x] = st
  owner : st.owner = some p
  fileIndex : st.fileIndex = some i
  switchId : st.switchId = some f.switchId
  sequence : st.sequence = some f.sequence
  notice : st.storeFullNotice = false
  file : s.file i = some f
  ingesting : f.state = .ingesting

theorem State.Ingests.markAccepted (h : s.Ingests x st p i f) :
    s.markAccepted x reasons = (s.acceptedBy i f p st reasons).setStream x st.unjudged := by
  have accept (t : State) (ht : t.files = s.files) (clock : Nat) :
      t.acceptFile i st.accepted st.rejected st.duration reasons st.trailer clock
        = some ((t.setFile i
            { f with
              state := if reasons = {} then .accepted else .disputed, recordCount := st.accepted,
              rejectedCount := st.rejected, durationTotal := min st.duration 999999999999999, reasons,
              trailer := st.trailer, acceptedAt := some clock }).setSwitch f.switchId
            { t.switch f.switchId with expected := some ((f.sequence + 1) % 65536) }) := by
    have hf : t.file i = some f := by rw [State.file, ht]; exact h.file
    simp only [State.acceptFile, hf, h.ingesting, if_true]
    rfl
  unfold State.markAccepted
  simp only [h.stream, h.owner, h.fileIndex, h.switchId, h.sequence, Option.getD_some]
  rw [accept _ (by rfl)]
  exact State.updateStream_eq (by exact h.stream) _

/-- Acceptance with room in both: the closing entry is posted and the stream is IDLE (R40). -/
theorem State.Ingests.acceptStream_posts (h : s.Ingests x st p i f) (ht : s.trailRoom = true)
    (hr : s.completionRoom p = true) :
    s.acceptStream x reasons
      = { s.acceptedBy i f p st reasons with
          completions := s.completions ++ [⟨p, x, f.switchId, f.sequence, st.closingEntry reasons⟩]
          waiting := s.waiting.filter (fun i => i ≠ WaitItem.post x ∧ i ≠ WaitItem.notice x)
          blocked := s.blocked.filter (· ≠ x)
          streams := s.streams.set x {} } := by
  have port : st.unjudged.port = p := by simp [Stream.unjudged, Stream.port, h.owner]
  have switchId : st.unjudged.switchId = some f.switchId := h.switchId
  have sequence : st.unjudged.sequence = some f.sequence := h.sequence
  rw [State.acceptStream_room s x ht, h.markAccepted, h.stream,
    State.postThen_room _ _ (by rw [port]; exact hr) (by exact h.notice), port, switchId, sequence]
  simp only [State.afterPost, State.streamIdle, State.leaveLists, State.setStream, set_set_fin]
  rfl

/-- Acceptance with room in the trail only: the settled stream waits with its closing entry (R40). -/
theorem State.Ingests.acceptStream_waits (h : s.Ingests x st p i f) (ht : s.trailRoom = true)
    (hr : s.completionRoom p = false) :
    s.acceptStream x reasons
      = { s.acceptedBy i f p st reasons with
          waiting := s.waiting ++ [WaitItem.post x]
          streams := s.streams.set x
            { st with
              state := .posting, pending := some ⟨st.closingEntry reasons, .idle⟩, countdown := .stopped,
              verdict := none } } := by
  have port : st.unjudged.port = p := by simp [Stream.unjudged, Stream.port, h.owner]
  rw [State.acceptStream_room s x ht, h.markAccepted, h.stream, State.postThen_full _ _ (by rw [port]; exact hr)]
  rfl

/-- Acceptance with the trail full: the verdict is kept (R129). -/
theorem State.acceptStream_keeps (h : s.streams[x] = st) (ht : s.trailRoom = false) :
    s.acceptStream x reasons = s.setStream x { st with state := .closing, verdict := some reasons } := by
  rw [State.acceptStream_full ht, State.updateStream_eq h]

/-! ## The close acknowledgement -/

theorem exec_closeAcknowledgement (hp : s.powered = true) (hc : s.encodings[x].closePending = true)
    (hi : s.encodings[x].image = none) :
    exec (.closeAcknowledgement x) s
      = .next ((s.setEncoding x {}).takeCloseAck x s.encodings[x].discardedCount s.encodings[x].discardedDuration) := by
  rw [show exec (.closeAcknowledgement x) s = .next (s.event (fun s => s.acknowledgeClose x)) from rfl, State.event,
    if_pos hp, State.acknowledgeClose]
  simp only [hc, hi, Option.isNone_none, and_self, if_true]

theorem exec_closingStreamTrailRetry (hp : s.powered = true) (hs : s.streams[x] = st) (hc : st.state = .closing)
    (hv : st.verdict = some reasons) : exec (.closingStreamTrailRetry x) s = .next (s.acceptStream x reasons) := by
  rw [show exec (.closingStreamTrailRetry x) s = .next (s.event (fun s => s.retryAcceptance x)) from rfl, State.event,
    if_pos hp, State.retryAcceptance, hs]
  simp only [hv, hc, if_true]

theorem State.takeCloseAck_abort (count duration : Nat) (hs : s.streams[x] = st) (ha : st.abortAfterClose = true) :
    s.takeCloseAck x count duration = (s.dropNotice x).placeAbort x := by
  rw [State.takeCloseAck, hs, if_pos ha]

/-- With nothing discarded the acknowledgement reconciles the stream, its encoding context reset (R76). -/
theorem exec_closeAcknowledgement_reconciles (hp : s.powered = true) (hc : s.encodings[x].closePending = true)
    (hi : s.encodings[x].image = none) (hd : s.encodings[x].discardedCount = 0)
    (ha : s.streams[x].abortAfterClose = false) :
    exec (.closeAcknowledgement x) s = .next ((s.setEncoding x {}).reconcile x) := by
  have ha' : (s.setEncoding x {}).streams[x].abortAfterClose = false := ha
  rw [exec_closeAcknowledgement hp hc hi, hd, State.takeCloseAck, ha']
  rfl

theorem State.takeCloseAck_some {count : Nat} (duration : Nat) (hs : s.streams[x] = st)
    (ha : st.abortAfterClose = false) (hn : 0 < count) :
    s.takeCloseAck x count duration
      = if st.firstRejectPosted then (s.setStream x (st.adjust count duration)).reconcile x
        else (s.setStream x (st.adjust count duration)).postThen x
          (.recordRejected (st.adjust count duration).accepted .fileLimit) .reconcile := by
  have stream : (s.setStream x (st.adjust count duration)).streams[x] = st.adjust count duration :=
    getElem_set_fin ..
  rw [State.takeCloseAck, hs, ha, if_neg (by simp), if_neg hn.ne', State.updateStream_eq hs]
  simp only [stream]

end

end Sys2Proof.Machine

/-- Settles O35: both commands come to `acceptStream`, the acknowledgement on the stream as adjusted and with its
encoding context reset, and acceptance is posted, waits for the queue, or keeps its verdict, by the two rooms. -/
theorem acceptanceInOneStep : Obligations.AcceptanceInOneStep := by
  intro s x st p i w q f reasons detail hp hs hc ha hn ho hi hw hq hf hing hfw hfq
  subst hfw hfq
  have ing : s.Ingests x st p i f := ⟨hs, ho, hi, hw, hq, hn, hf, hing⟩
  have ing' : (s.setEncoding x {}).Ingests x st p i f := ⟨hs, ho, hi, hw, hq, hn, hf, hing⟩
  have port (v : Stream) (hv : v.owner = st.owner) : v.port = p := by rw [Stream.port, hv, ho, Option.getD_some]
  have room_iff := State.completionRoom_iff s p
  have full (h : 64 ≤ s.completions.length ∨ 32 ≤ (s.completionsOf p).length) : s.completionRoom p = false := by
    rw [← Bool.not_eq_true, room_iff]
    omega
  have reconcile (v : State) (hv : v.streams[x] = st) : v.reconcile x = v.acceptStream x st.reasons := by
    rw [State.reconcile, hv]
  have ack (hcp : s.encodings[x].closePending = true) (him : s.encodings[x].image = none)
      (hd : s.encodings[x].discardedCount = 0) :
      exec (.closeAcknowledgement x) s = .next ((s.setEncoding x {}).acceptStream x st.reasons) := by
    rw [exec_closeAcknowledgement_reconciles hp hcp him hd (by rw [hs]; exact ha), reconcile _ (by exact hs)]
  refine ⟨fun ht hdet => ?_, fun ht hv => ?_, fun ht hr hcp him hd => ?_, fun n hcp him hd hpos => ?_,
    fun u notice hu hcp him => ?_⟩
  · have htr : s.trailRoom = true := decide_eq_true ht
    subst hdet
    refine ⟨fun h1 h2 => ⟨fun hv => ?_, fun hr hcp him hd => ?_⟩, fun hfull => ⟨fun hv => ?_, fun hr hcp him hd => ?_⟩⟩
    · rw [exec_closingStreamTrailRetry hp hs hc hv, ing.acceptStream_posts htr (room_iff.mpr ⟨h1, h2⟩)]
      rfl
    · rw [ack hcp him hd, hr, ing'.acceptStream_posts htr (room_iff.mpr ⟨h1, h2⟩)]
      rfl
    · rw [exec_closingStreamTrailRetry hp hs hc hv, ing.acceptStream_waits htr (full hfull)]
      rfl
    · rw [ack hcp him hd, hr, ing'.acceptStream_waits htr (full hfull)]
      rfl
  · have htr : s.trailRoom = false := decide_eq_false (Nat.not_lt.mpr ht)
    rw [exec_closingStreamTrailRetry hp hs hc hv, State.acceptStream_keeps hs htr]
    have same : { st with state := .closing, verdict := some reasons } = st := by rw [← hc, ← hv]
    rw [same, State.setStream_self hs]
  · have htr : s.trailRoom = false := decide_eq_false (Nat.not_lt.mpr ht)
    rw [ack hcp him hd, hr, State.acceptStream_keeps (by exact hs) (by exact htr), ← hc]
    rfl
  · intro ordinal adjusted counted
    have adjust : st.adjust n s.encodings[x].discardedDuration = adjusted := rfl
    have taken : exec (.closeAcknowledgement x) s
        = .next (if st.firstRejectPosted then ((s.setEncoding x {}).setStream x adjusted).reconcile x
          else ((s.setEncoding x {}).setStream x adjusted).postThen x (.recordRejected ordinal .fileLimit)
            .reconcile) := by
      rw [exec_closeAcknowledgement hp hcp him, hd, State.takeCloseAck_some _ (by exact hs) ha hpos, adjust]
    have acked (completions : List Completion) : exec (.closeAcknowledgement x) { counted with completions }
        = .next ((({ s with completions } : State).setEncoding x {}).setStream x adjusted |>.reconcile x) := by
      rw [exec_closeAcknowledgement_reconciles (s := { counted with completions }) hp (by simpa [counted] using hcp)
        (by simpa [counted] using him) (by simp [counted]) (by simpa [counted, adjusted] using ha)]
      simp [counted, State.setEncoding, State.setStream]
    refine ⟨fun hfr => ?_, fun hfr h1 h2 => ?_, fun hfr hfull => ?_⟩
    · rw [taken, if_pos hfr]
      exact (acked s.completions).symm
    · rw [taken, if_neg (by simp [hfr]),
        State.postThen_room _ _ (by rw [port adjusted rfl]; exact room_iff.mpr ⟨h1, h2⟩) (by exact hn), acked,
        port adjusted rfl, show adjusted.switchId = some f.switchId from hw,
        show adjusted.sequence = some f.sequence from hq]
      rfl
    · rw [taken, if_neg (by simp [hfr]), State.postThen_full _ _ (by rw [port adjusted rfl]; exact full hfull)]
      rfl
  · subst hu
    change exec _ (s.setStream x _) = _
    rw [exec_closeAcknowledgement (s := s.setStream x
        { st with abortAfterClose := true, storeFullNotice := notice }) hp hcp him,
      State.takeCloseAck_abort _ _ (getElem_set_fin ..) rfl]
    simp [State.dropNotice, State.placeAbort, State.updateStream, State.setStream, hn]
end

section
/-! PROOFS. The read of the sweep, the end of a visit: O51. -/

open Sys2Proof Sys2Proof.Machine
namespace Sys2Proof.Machine

/-! ## What a completed read yields -/

section
variable {expected header : Header} {payload : List Byte}

/-- The fields of a header that name its segment agree (R112). -/
def Header.Named (header expected : Header) : Prop :=
  header.segment = expected.segment ∧ header.allocation = expected.allocation ∧ header.fileIndex = expected.fileIndex
    ∧ header.ordinal = expected.ordinal ∧ header.switchId = expected.switchId ∧ header.sequence = expected.sequence
    ∧ header.figures.baseTime = expected.figures.baseTime
    ∧ header.figures.encodedLength = expected.figures.encodedLength ∧ header.figures.check = expected.figures.check

theorem Header.names_iff : header.names expected = true ↔ header.Named expected := by
  obtain ⟨_, _, _, _, _, _, ⟨_, _, _, _, _⟩⟩ := header
  obtain ⟨_, _, _, _, _, _, ⟨_, _, _, _, _⟩⟩ := expected
  simp only [Header.names, Header.Named, decide_eq_true_iff, Header.mk.injEq, Figures.mk.injEq]
  tauto

theorem Header.eq_iff :
    header = expected ↔ header.Named expected ∧ header.figures.recordCount = expected.figures.recordCount
      ∧ header.figures.durationSum = expected.figures.durationSum := by
  obtain ⟨_, _, _, _, _, _, ⟨_, _, _, _, _⟩⟩ := header
  obtain ⟨_, _, _, _, _, _, ⟨_, _, _, _, _⟩⟩ := expected
  simp only [Header.Named, Header.mk.injEq, Figures.mk.injEq]
  tauto

/-- The finding of a payload whose dual-sum is not the segment's (R112). -/
def checkFinding (expected : Header) (payload : List Byte) : List (FindingKind × Option (Nat × Nat)) :=
  if dualSumOf payload = expected.figures.check then []
  else [(.checkMismatch, some (expected.figures.check, dualSumOf payload))]

/-- The findings of a payload that decodes under a header that names its segment (R112). -/
def sumFindings (expected header : Header) (sum : Nat) : List (FindingKind × Option (Nat × Nat)) :=
  (if header.figures.recordCount = expected.figures.recordCount then []
    else [(.countMismatch, some (expected.figures.recordCount, header.figures.recordCount))])
  ++ (if sum ≠ expected.figures.durationSum then
      [(.durationMismatch, some (expected.figures.durationSum, sum))]
    else if header.figures.durationSum ≠ expected.figures.durationSum then
      [(.durationMismatch, some (expected.figures.durationSum, header.figures.durationSum))]
    else [])

theorem judgeExtent_malformed (h : decodePayload expected.figures payload = none ∨ ¬header.Named expected) :
    judgeExtent expected header payload = checkFinding expected payload ++ [(.malformed, none)] := by
  unfold judgeExtent checkFinding
  simp only [ne_eq, ite_not]
  rw [List.append_right_inj]
  split
  · rfl
  · next rs hrs =>
    have hn : header.names expected = false := by
      rw [← Bool.not_eq_true, Header.names_iff]
      exact h.resolve_left (by rw [hrs]; exact Option.some_ne_none rs)
    rw [hn]
    rfl

theorem judgeExtent_named {rs : List CallRecord} (hrs : decodePayload expected.figures payload = some rs)
    (hn : header.Named expected) :
    judgeExtent expected header payload
      = checkFinding expected payload ++ sumFindings expected header (rs.map CallRecord.duration).sum := by
  unfold judgeExtent checkFinding sumFindings
  simp only [hrs, Header.names_iff.mpr hn, durationSumOf, ne_eq, ite_not]
  rfl

theorem checkFinding_eq_nil : checkFinding expected payload = [] ↔ dualSumOf payload = expected.figures.check := by
  simp [checkFinding]

theorem sumFindings_eq_nil {sum : Nat} :
    sumFindings expected header sum = [] ↔ header.figures.recordCount = expected.figures.recordCount
      ∧ sum = expected.figures.durationSum ∧ header.figures.durationSum = expected.figures.durationSum := by
  by_cases hs : sum = expected.figures.durationSum <;> simp [sumFindings, hs]

/-- An extent is clean exactly when its payload has the check and decodes, its header is the expected one, and the
decoded durations add up (R112). -/
theorem judgeExtent_eq_nil :
    judgeExtent expected header payload = []
      ↔ dualSumOf payload = expected.figures.check ∧ header = expected
        ∧ ∃ rs, decodePayload expected.figures payload = some rs
          ∧ (rs.map CallRecord.duration).sum = expected.figures.durationSum := by
  by_cases hn : header.Named expected
  · cases hrs : decodePayload expected.figures payload with
    | none => simp [judgeExtent_malformed (.inl hrs)]
    | some rs =>
      rw [judgeExtent_named hrs hn, List.append_eq_nil_iff, checkFinding_eq_nil, sumFindings_eq_nil, Header.eq_iff]
      simp only [Option.some.injEq, exists_eq_left']
      tauto
  · have hne : header ≠ expected := fun h => hn (Header.eq_iff.mp h).1
    simp [judgeExtent_malformed (.inr hn), hne]

end

/-! ## The judgement of a read -/

section
variable {s : State}

/-- The byte a read delivers at an offset of an extent. -/
def State.delivered (s : State) (n : Nat) (altered : List (Nat × Byte)) (offset : Nat) : Byte :=
  (altered.lookup offset).getD (s.storeByte (n * 1048576 + offset))

theorem State.deliveredByte_eq (n : Nat) (altered : List (Nat × Byte)) :
    s.deliveredByte n altered = s.delivered n altered := by
  funext offset
  unfold State.deliveredByte State.delivered
  cases altered.lookup offset <;> rfl

theorem State.deliveredBytes_eq (n : Nat) (altered : List (Nat × Byte)) (offset k : Nat) :
    s.deliveredBytes n altered offset k = (List.range k).map (fun j => s.delivered n altered (offset + j)) := by
  rw [State.deliveredBytes, List.range'_eq_map_range, List.map_map, State.deliveredByte_eq]
  rfl

theorem State.judge_complete {n : Nat} {f : File} (hf : s.file (s.segment n).fileIndex = some f)
    (altered : List (Nat × Byte)) :
    s.judge n (.complete altered)
      = judgeExtent
          { segment := n, allocation := (s.segment n).allocation, ordinal := (s.segment n).ordinal,
            fileIndex := (s.segment n).fileIndex, switchId := f.switchId, sequence := f.sequence,
            figures := (s.segment n).figures }
          (readHeader ((List.range 64).map (s.delivered n altered)))
          ((List.range (s.segment n).figures.encodedLength).map (fun k => s.delivered n altered (64 + k))) := by
  have whole : s.deliveredBytes n altered 0 Config.headerBytes = (List.range 64).map (s.delivered n altered) := by
    rw [State.deliveredBytes_eq]
    simp only [Nat.zero_add, Config.headerBytes]
  simp only [State.judge, State.expectedHeader, hf]
  rw [whole, State.deliveredBytes_eq, Config.headerBytes]

/-! ## The marks of a damaged or clean segment -/

theorem State.countSuspect_file {i : Nat} {f : File} (change : Nat → Nat) (hf : s.file i = some f) :
    s.countSuspect i change = s.setFile i { f with suspectCount := change f.suspectCount } := by
  simp only [State.countSuspect, hf]

theorem State.markSuspect_stored {n a i : Nat} {f : File} (unreported : Bool) (hs : (s.segment n).state = .stored)
    (ha : (s.segment n).allocation = a) (hi : (s.segment n).fileIndex = i) (hf : s.file i = some f) :
    s.markSuspect n a i unreported
      = some ((s.setSegment n { s.segment n with state := .suspect, unreported }).setFile i
          { f with suspectCount := f.suspectCount + 1 }) := by
  subst ha hi
  unfold State.markSuspect
  simp only [ne_eq, not_true, or_self, if_false, hs]
  rw [State.countSuspect_file _ (by exact hf)]

theorem State.returnStored_suspect {n a i : Nat} {f : File} (hs : (s.segment n).state = .suspect)
    (ha : (s.segment n).allocation = a) (hi : (s.segment n).fileIndex = i) (hf : s.file i = some f) :
    s.returnStored n a i
      = some ((s.setSegment n { s.segment n with state := .stored, unreported := false }).setFile i
          { f with suspectCount := f.suspectCount - 1 }) := by
  subst ha hi
  unfold State.returnStored
  simp only [hs, and_self, if_true]
  rw [State.countSuspect_file _ (by exact hf)]

theorem State.clearUnreported_suspect {n a : Nat} (hs : (s.segment n).state = .suspect)
    (ha : (s.segment n).allocation = a) :
    s.clearUnreported n a = some (s.setSegment n { s.segment n with unreported := false }) := by
  subst ha
  unfold State.clearUnreported
  simp only [hs, and_self, if_true]

/-! ## What a visit comes to -/

variable {v : Visit} {f : File} {found : List (FindingKind × Option (Nat × Nat))}

/-- A visit's segment is still the one it noted (R111). -/
def State.visitFresh (s : State) (v : Visit) : Prop :=
  (s.segment v.segment).allocation = v.allocation ∧ (s.segment v.segment).fileIndex = v.fileIndex

theorem State.visitStale_iff :
    s.visitStale v = true
      ↔ ((s.segment v.segment).state = .free ∨ (s.segment v.segment).state = .filling) ∨ ¬s.visitFresh v := by
  unfold State.visitStale State.visitFresh
  have visitable : (s.segment v.segment).visitable = false
      ↔ (s.segment v.segment).state = .free ∨ (s.segment v.segment).state = .filling := by
    unfold Segment.visitable
    cases (s.segment v.segment).state <;> decide
  simp only [Bool.or_eq_true, Bool.not_eq_true', decide_eq_true_iff, visitable]
  tauto

/-- The findings of a visit as the log takes them (R113). -/
def State.visitFindings (s : State) (v : Visit) (f : File) (found : List (FindingKind × Option (Nat × Nat))) :
    List Finding :=
  found.map (fun k =>
    { kind := k.1, source := .sweep, segment := v.segment, fileIndex := v.fileIndex, switchId := f.switchId,
      sequence := f.sequence, clock := s.stamp, values := k.2 })

theorem State.sweepFindings_file (hf : s.file v.fileIndex = some f) :
    s.sweepFindings v found = s.visitFindings v f found := by
  simp only [State.sweepFindings, State.visitFindings, State.findingFor_file _ _ _ hf]

/-- The trail behind a quarantine entry naming a file. -/
def State.quarantineTrail (s : State) (kind : TrailKind) (i : Nat) (f : File) : Trail :=
  s.trail.append s.stamp kind none (.file f.switchId f.sequence i {}) f.recordCount

/-- A damaged STORED segment: SUSPECT, with its findings, and QUARANTINE_SET if that is owed and the trail has room
(R113). -/
def State.damaged (s : State) (v : Visit) (f : File) (found : List (FindingKind × Option (Nat × Nat))) : State :=
  { s with
    findings := s.findings ++ s.visitFindings v f found
    trail :=
      if f.suspectCount = 0 ∧ s.trail.entries.length < 128 then s.quarantineTrail .quarantineSet v.fileIndex f
      else s.trail
    segments := Sparse.set {} v.segment
      { s.segment v.segment with
        state := .suspect, unreported := decide (f.suspectCount = 0 ∧ 128 ≤ s.trail.entries.length) } s.segments
    files := Sparse.set none v.fileIndex (some { f with suspectCount := f.suspectCount + 1 }) s.files }

/-- QUARANTINE_SET naming a file appended, if that is owed and the trail has room (R113). -/
def State.quarantined (s : State) (i : Nat) (f : File) : State :=
  { s with
    trail :=
      if f.suspectCount = 0 ∧ s.trail.entries.length < 128 then s.quarantineTrail .quarantineSet i f else s.trail }

theorem State.quarantineSet_eq {i : Nat} (hf : s.file i = some f) :
    (if s.quarantineOwed i && s.trailRoom then s.recordQuarantine .quarantineSet i else s) = s.quarantined i f := by
  rw [State.quarantineOwed_file hf, State.trailRoom_eq, State.recordQuarantine_file _ hf, ← Bool.decide_and,
    State.record, State.quarantined]
  by_cases h : f.suspectCount = 0 ∧ s.trail.entries.length < 128
  · rw [if_pos (decide_eq_true h), if_pos h]
    rfl
  · rw [if_neg (by simpa using h), if_neg h]

theorem State.quarantineOwes_eq {i : Nat} (hf : s.file i = some f) :
    (s.quarantineOwed i && !(s.quarantineOwed i && s.trailRoom))
      = decide (f.suspectCount = 0 ∧ 128 ≤ s.trail.entries.length) := by
  rw [State.quarantineOwed_file hf, State.trailRoom_eq]
  by_cases h : f.suspectCount = 0 <;> by_cases ht : s.trail.entries.length < 128 <;> simp [h, ht]
  omega

theorem State.damageStored_eq (hfr : s.visitFresh v) (hs : (s.segment v.segment).state = .stored)
    (hf : s.file v.fileIndex = some f) :
    s.damageStored v found = (s.damaged v f found, ⟨.damaged, found.length⟩) := by
  obtain ⟨ha, hi⟩ := hfr
  obtain ⟨t, ht⟩ : ∃ t : State, t = { s with findings := s.findings ++ s.visitFindings v f found } := ⟨_, rfl⟩
  have hft : t.file v.fileIndex = some f := by rw [ht]; exact hf
  have mark (unreported : Bool) := State.markSuspect_stored (s := t.quarantined v.fileIndex f) (n := v.segment)
    (a := v.allocation) unreported (by rw [ht]; exact hs) (by rw [ht]; exact ha) (by rw [ht]; exact hi) hft
  unfold State.damageStored
  simp only [State.sweepFindings_file hf, ← ht]
  rw [State.quarantineSet_eq hft, State.quarantineOwes_eq hft, mark, ht]
  rfl

/-- A damaged SUSPECT segment whose owed report is made whole (R114). -/
def State.reportedWhole (s : State) (v : Visit) (f : File) (found : List (FindingKind × Option (Nat × Nat))) : State :=
  { s with
    findings := s.findings ++ s.visitFindings v f found
    trail := s.quarantineTrail .quarantineSet v.fileIndex f
    segments := Sparse.set {} v.segment { s.segment v.segment with unreported := false } s.segments }

theorem State.damageSuspect_reports (hfr : s.visitFresh v) (hs : (s.segment v.segment).state = .suspect)
    (hf : s.file v.fileIndex = some f) (hu : (s.segment v.segment).unreported = true)
    (ht : s.trail.entries.length < 128) :
    s.damageSuspect v found = (s.reportedWhole v f found, ⟨.damaged, found.length⟩) := by
  have room : s.trailRoom = true := decide_eq_true ht
  obtain ⟨t, hst⟩ : ∃ t : State, t = { s with findings := s.findings ++ s.visitFindings v f found } := ⟨_, rfl⟩
  have hft : t.file v.fileIndex = some f := by rw [hst]; exact hf
  unfold State.damageSuspect
  rw [if_pos ⟨hu, room⟩]
  simp only [State.sweepFindings_file hf, ← hst, State.recordQuarantine_file _ hft]
  rw [State.clearUnreported_suspect (by rw [hst]; exact hs) (by rw [hst]; exact hfr.1), hst]
  rfl

theorem State.damageSuspect_silent
    (h : (s.segment v.segment).unreported = false ∨ ¬s.trail.entries.length < 128) :
    s.damageSuspect v found = (s, ⟨.damaged, 0⟩) := by
  refine if_neg ?_
  rw [State.trailRoom_eq, decide_eq_true_iff]
  rintro ⟨hu, ht⟩
  exact h.elim (by simp [hu]) (· ht)

/-- A clean SUSPECT segment returned to STORED, behind a trail (R115). -/
def State.cleared (s : State) (v : Visit) (f : File) (trail : Trail) : State :=
  { s with
    trail
    segments := Sparse.set {} v.segment { s.segment v.segment with state := .stored, unreported := false } s.segments
    files := Sparse.set none v.fileIndex (some { f with suspectCount := f.suspectCount - 1 }) s.files }

theorem State.returnStored_visit (trail : Trail) (hfr : s.visitFresh v)
    (hs : (s.segment v.segment).state = .suspect) (hf : s.file v.fileIndex = some f) :
    ({ s with trail } : State).returnStored v.segment v.allocation v.fileIndex = some (s.cleared v f trail) :=
  State.returnStored_suspect (s := { s with trail }) hs hfr.1 hfr.2 hf

theorem State.suspectCount_file {i : Nat} (hf : s.file i = some f) : s.suspectCount i = f.suspectCount := by
  rw [State.suspectCount, hf]

theorem State.cleanSuspect_more (hfr : s.visitFresh v) (hs : (s.segment v.segment).state = .suspect)
    (hf : s.file v.fileIndex = some f) (h1 : 1 < f.suspectCount) : s.cleanSuspect v = s.cleared v f s.trail := by
  rw [State.cleanSuspect, State.suspectCount_file hf, if_pos h1]
  exact congrArg (Option.getD · s) (State.returnStored_visit s.trail hfr hs hf)

theorem State.cleanSuspect_last (hfr : s.visitFresh v) (hs : (s.segment v.segment).state = .suspect)
    (hf : s.file v.fileIndex = some f) (h1 : f.suspectCount = 1) (ht : s.trail.entries.length < 128) :
    s.cleanSuspect v = s.cleared v f (s.quarantineTrail .quarantineCleared v.fileIndex f) := by
  have room : s.trailRoom = true := decide_eq_true ht
  rw [State.cleanSuspect, State.suspectCount_file hf, if_neg (by omega), if_pos room]
  simp only [State.recordQuarantine_file _ hf, State.record]
  exact congrArg (Option.getD · _) (State.returnStored_visit _ hfr hs hf)

theorem State.cleanSuspect_waits (hf : s.file v.fileIndex = some f) (h1 : f.suspectCount = 1)
    (ht : ¬s.trail.entries.length < 128) : s.cleanSuspect v = s := by
  have room : s.trailRoom = false := decide_eq_false ht
  rw [State.cleanSuspect, State.suspectCount_file hf, if_neg (by omega), room]
  rfl

/-! ## A visit judged, by the segment's state and what was found -/

variable {report : ReadReport}

theorem State.completeVisit_stale
    (h : ((s.segment v.segment).state = .free ∨ (s.segment v.segment).state = .filling) ∨ ¬s.visitFresh v) :
    s.completeVisit v report = (s, ⟨.discarded, 0⟩) :=
  if_pos (State.visitStale_iff.mpr h)

theorem State.visitStale_eq_false (hfr : s.visitFresh v)
    (hs : (s.segment v.segment).state = .stored ∨ (s.segment v.segment).state = .suspect) : s.visitStale v = false := by
  rw [← Bool.not_eq_true, State.visitStale_iff]
  rcases hs with hs | hs <;> simp [hs, hfr]

theorem State.completeVisit_stored (hfr : s.visitFresh v) (hs : (s.segment v.segment).state = .stored) :
    s.completeVisit v report
      = if s.judge v.segment report = [] then (s, ⟨.clean, 0⟩) else s.damageStored v (s.judge v.segment report) := by
  simp only [State.completeVisit, State.visitStale_eq_false hfr (.inl hs), hs, reduceCtorEq, Bool.false_eq_true,
    if_false]

theorem State.completeVisit_suspect (hfr : s.visitFresh v) (hs : (s.segment v.segment).state = .suspect) :
    s.completeVisit v report
      = if s.judge v.segment report = [] then (s.cleanSuspect v, ⟨.clean, 0⟩)
        else s.damageSuspect v (s.judge v.segment report) := by
  simp only [State.completeVisit, State.visitStale_eq_false hfr (.inr hs), hs, Bool.false_eq_true,
    if_false, if_true]

/-! ## The end of a visit -/

/-- The sweep once a visit has ended: the reservation released, the position moved on unless RESTART SWEEP came between
(R117). -/
def Sweep.moved (w : Sweep) (v : Visit) : Sweep :=
  { w with
    visit := none, reserved := 0
    position := if v.restarted then w.position else if v.segment < 262143 then v.segment + 1 else 0
    cycles := if v.restarted ∨ v.segment < 262143 then w.cycles else (w.cycles + 1) % 4294967296 }

/-- The sweep once a paced visit has ended: frozen, resting, or in its next window (R117). -/
def Sweep.paced (w : Sweep) (v : Visit) (settings : Settings) (appended : Nat) : Sweep :=
  if w.state ≠ .active then w.moved v
  else if settings.freeze = true ∧ 0 < appended then { w.moved v with state := .frozen }
  else if w.visitsLeft ≠ 0 then w.moved v
  else if settings.rest = 0 then { w.moved v with visitsLeft := settings.window }
  else { w.moved v with state := .resting, rest := .running settings.rest }

theorem Sweep.moved_eq (w : Sweep) (v : Visit) :
    (if v.restarted then { w with visit := none, reserved := 0 }
      else Sweep.advance { w with visit := none, reserved := 0 } v.segment) = w.moved v := by
  have last : v.segment + 1 < Config.segmentNumbers ↔ v.segment < 262143 := Nat.succ_lt_succ_iff
  unfold Sweep.moved Sweep.advance advancePosition
  simp only [last]
  by_cases hr : v.restarted = true <;> by_cases hn : v.segment < 262143 <;> simp [hr, hn]

theorem State.paceSweep_eq (t : State) (w : Sweep) (v : Visit) (appended : Nat) (h : t.sweep = w.moved v) :
    t.paceSweep appended = { t with sweep := w.paced v t.settings appended } := by
  have same : t = { t with sweep := w.moved v } := by rw [← h]
  have state : (w.moved v).state = w.state := rfl
  have left : (w.moved v).visitsLeft = w.visitsLeft := rfl
  unfold State.paceSweep Sweep.paced
  simp only [h, state, left, ite_not]
  by_cases h1 : w.state = .active <;> simp only [h1, if_true, if_false]
  · by_cases h2 : t.settings.freeze = true ∧ 0 < appended
    · rw [if_pos h2, if_pos h2]
    · rw [if_neg h2, if_neg h2]
      by_cases h3 : w.visitsLeft = 0 <;> simp only [h3, if_true, if_false]
      · by_cases h4 : t.settings.rest = 0 <;> simp only [h4, if_true, if_false]
        rfl
      · exact same
  · exact same

theorem State.endVisit_paced (t : State) (r : VisitResult) (hk : v.kind = .paced) :
    t.endVisit v r = { t with sweep := t.sweep.paced v t.settings r.appended } := by
  unfold State.endVisit
  simp only [Sweep.moved_eq, hk]
  exact State.paceSweep_eq { t with sweep := t.sweep.moved v } t.sweep v _ rfl

theorem State.endVisit_step (t : State) (r : VisitResult) {p : PortId} {tag : Byte} (hk : v.kind = .step p tag) :
    t.endVisit v r = ({ t with sweep := t.sweep.moved v } : State).answerStep p tag v.segment r := by
  unfold State.endVisit
  simp only [Sweep.moved_eq, hk]

theorem State.answerStep_outstanding (t : State) {p : PortId} {tag : Byte} (n : Nat) (r : VisitResult)
    (h : ∃ o ∈ t.ports[p].outstanding, o.tag = tag ∧ o.standing = .stepping) :
    t.answerStep p tag n r = (t.freeTag p tag).reply p tag .ok (.stepped r.outcome r.appended n) := by
  obtain ⟨⟨tag', standing⟩, hm, ht, hs⟩ := h
  have any : t.ports[p].outstanding.any (fun o => o.tag = tag ∧ o.standing = .stepping) = true :=
    List.any_eq_true.mpr ⟨_, hm, decide_eq_true ⟨ht, hs⟩⟩
  subst ht
  rw [State.answerStep, if_pos any, State.answer_of_mem _ _ hm]

theorem State.answerStep_discarded (t : State) {p : PortId} {tag : Byte} (n : Nat) (r : VisitResult)
    (h : ∀ o ∈ t.ports[p].outstanding, ¬(o.tag = tag ∧ o.standing = .stepping)) : t.answerStep p tag n r = t := by
  rw [State.answerStep, if_neg]
  simpa using h

theorem exec_sweepReadComplete {n : Nat} (hp : s.powered = true) (hc : s.storePort.current = some (.sweep n))
    (hn : n ≤ 262143) : exec (.sweepReadComplete report) s = .next (s.sweepRead report).endStore := by
  have hx : extentExists n = true := decide_eq_true (Nat.lt_succ_of_le hn)
  rw [show exec (.sweepReadComplete report) s = execSweepReadComplete report s from rfl, execSweepReadComplete, hc]
  simp only [hp, hx, Bool.not_true, Bool.false_eq_true, if_false, if_true]

/-- A visit that came to `t`, with outcome and findings appended, ends: paced, or with the reply of its STEP SWEEP. -/
theorem State.sweepRead_ends {t : State} {outcome : StepOutcome} {appended : Nat} (hv : s.sweep.visit = some v)
    (ht : s.completeVisit v report = (t, ⟨outcome, appended⟩)) (hw : t.sweep = s.sweep)
    (hset : t.settings = s.settings) (hports : t.ports = s.ports) :
    (v.kind = .paced →
        s.sweepRead report = { t with sweep := s.sweep.paced v s.settings appended })
      ∧ ∀ p tag, v.kind = .step p tag →
        ((∃ o ∈ s.ports[p].outstanding, o.tag = tag ∧ o.standing = .stepping) →
            s.sweepRead report
              = State.reply
                  { t with
                    sweep := s.sweep.moved v
                    ports := s.ports.set p
                      { s.ports[p] with outstanding := s.ports[p].outstanding.filter (fun o => o.tag ≠ tag) } }
                  p tag .ok (.stepped outcome appended v.segment))
          ∧ ((∀ o ∈ s.ports[p].outstanding, ¬(o.tag = tag ∧ o.standing = .stepping)) →
            s.sweepRead report = { t with sweep := s.sweep.moved v }) := by
  have read : s.sweepRead report = t.endVisit v ⟨outcome, appended⟩ := by
    simp only [State.sweepRead, hv, ht]
  refine ⟨fun hk => ?_, fun p tag hk => ⟨fun h => ?_, fun h => ?_⟩⟩
  · rw [read, State.endVisit_paced t _ hk, hw, hset]
  · rw [← hports] at h
    rw [read, State.endVisit_step t _ hk,
      State.answerStep_outstanding { t with sweep := t.sweep.moved v } _ _ h, hw, State.freeTag]
    simp only [hports]
    rfl
  · rw [← hports] at h
    rw [read, State.endVisit_step t _ hk,
      State.answerStep_discarded { t with sweep := t.sweep.moved v } _ _ h, hw]

end

end Sys2Proof.Machine

/-- Settles O51: the findings by the cases of `judgeExtent`; the outcome of a visit by the state of its segment; and the
visit's end, the same whatever it came to. -/
theorem sweepReadJudged : Obligations.SweepReadJudged := by
  refine ⟨fun expected header payload => ⟨judgeExtent_eq_nil, judgeExtent_malformed, fun rs hrs hn => ?_⟩,
    fun s n f hf => ⟨rfl, State.judge_complete hf⟩, ?_⟩
  · intro sum
    rw [judgeExtent_named hrs hn, List.append_assoc]
    rfl
  · intro s n i v f report found hp hc hn hv hvn hvi hf hj e moved paced ends findings quarantine fresh room owed
    subst hvn hvi
    have ended (t : State) (outcome : StepOutcome) (appended : Nat)
        (ht : s.completeVisit v report = (t, ⟨outcome, appended⟩)) (hw : t.sweep = s.sweep)
        (hset : t.settings = s.settings) (hports : t.ports = s.ports) : ends t outcome appended := by
      obtain ⟨hpaced, hstep⟩ := State.sweepRead_ends hv ht hw hset hports
      have exec_eq := exec_sweepReadComplete (report := report) hp hc hn
      refine ⟨fun hk => ?_, fun p tag hk => ⟨fun h => ?_, fun h => ?_⟩⟩
      · rw [exec_eq, hpaced hk]
        rfl
      · rw [exec_eq, (hstep p tag hk).1 h]
        rfl
      · rw [exec_eq, (hstep p tag hk).2 h]
        rfl
    refine ⟨fun h => ?_, fun hfr hs h => ?_, fun hfr hs h => ?_, fun hfr hs h hu ht => ?_, fun hfr hs h hr => ?_,
      fun hfr hs h => ⟨fun h1 => ?_, fun h1 ht => ?_, fun h1 ht => ?_⟩⟩
    · exact ended _ _ _ (State.completeVisit_stale h) rfl rfl rfl
    · refine ended _ _ _ ?_ rfl rfl rfl
      rw [State.completeVisit_stored hfr hs, hj, if_pos h]
    · refine ended (s.damaged v f found) _ _ ?_ rfl rfl rfl
      rw [State.completeVisit_stored hfr hs, hj, if_neg h, State.damageStored_eq hfr hs hf]
    · refine ended (s.reportedWhole v f found) _ _ ?_ rfl rfl rfl
      rw [State.completeVisit_suspect hfr hs, hj, if_neg h, State.damageSuspect_reports hfr hs hf hu ht]
    · refine ended _ _ _ ?_ rfl rfl rfl
      rw [State.completeVisit_suspect hfr hs, hj, if_neg h, State.damageSuspect_silent hr]
    · refine ended (s.cleared v f s.trail) _ _ ?_ rfl rfl rfl
      rw [State.completeVisit_suspect hfr hs, hj, if_pos h, State.cleanSuspect_more hfr hs hf h1]
    · refine ended (s.cleared v f (s.quarantineTrail .quarantineCleared v.fileIndex f)) _ _ ?_ rfl rfl rfl
      rw [State.completeVisit_suspect hfr hs, hj, if_pos h, State.cleanSuspect_last hfr hs hf h1 ht]
    · refine ended _ _ _ ?_ rfl rfl rfl
      rw [State.completeVisit_suspect hfr hs, hj, if_pos h, State.cleanSuspect_waits hf h1 ht]
end

section
/-! PROOFS. Cursors opened, freed, named: O53. -/

open Sys2Proof Sys2Proof.Machine
namespace Sys2Proof.Machine

/-! ## The cursor an OPEN CURSOR takes -/

/-- The lowest index that passes a test. -/
theorem find?_finRange_eq_some {n : Nat} {t : Fin n → Bool} {c : Fin n} (h : t c = true)
    (hl : ∀ d : Fin n, d < c → t d = false) : (List.finRange n).find? t = some c := by
  rw [List.find?_eq_some_iff_getElem]
  refine ⟨h, c.val, by simp, by simp, fun j hj => ?_⟩
  rw [List.getElem_finRange, Bool.not_eq_true']
  exact hl _ (by simpa [Fin.lt_def] using hj)

section
variable {s : State}

theorem State.freeCursor_eq_some {c : CursorId} (h : s.cursorOpenable c)
    (hl : ∀ d : CursorId, d < c → ¬s.cursorOpenable d) : s.freeCursor = some c :=
  find?_finRange_eq_some ((s.cursorOpenable_iff c).mp h) fun d hd =>
    Bool.eq_false_iff.mpr fun ht => hl d hd ((s.cursorOpenable_iff d).mpr ht)

theorem State.freeCursor_eq_none (h : ∀ c, ¬s.cursorOpenable c) : s.freeCursor = none :=
  List.find?_eq_none.mpr fun c _ ht => h c ((s.cursorOpenable_iff c).mpr ht)

/-! ## OPEN CURSOR -/

theorem readStart_eq {present : Byte} {start n : Nat}
    (h : (present = 0 ∧ n = 0) ∨ (present = 1 ∧ n = start ∧ n ≤ 16777215)) : readStart present start = some n := by
  rcases h with ⟨rfl, rfl⟩ | ⟨rfl, rfl, hn⟩
  · rfl
  · exact if_pos hn

theorem readStart_eq_none {present : Byte} {start : Nat} (h : ¬(present = 0 ∨ (present = 1 ∧ start ≤ 16777215))) :
    readStart present start = none := by
  rw [not_or, not_and] at h
  obtain ⟨h0, h1⟩ := h
  unfold readStart readYesNo
  rw [if_neg h0]
  by_cases hp : present = 1
  · rw [if_pos hp]
    exact upTo_eq_none.mpr (Nat.lt_of_not_le (h1 hp))
  · rw [if_neg hp]

theorem State.openCursor_ok {w q n start : Nat} {present : Byte} {c : CursorId} (hw : w ≤ 1023)
    (hn : readStart present start = some n) (hc : s.freeCursor = some c) :
    s.openCursor w q present start = .ok ⟨w, q, n, c⟩ := by
  have hw' : upTo Config.lastSwitch w = some w := if_pos hw
  simp only [State.openCursor, hw', hn, hc]

theorem State.openCursor_none {w q n start : Nat} {present : Byte} (hw : w ≤ 1023)
    (hn : readStart present start = some n) (hc : s.freeCursor = none) :
    s.openCursor w q present start = .error ((s.pinAnswer w q).bar.getD .noFreeCursor) := by
  have hw' : upTo Config.lastSwitch w = some w := if_pos hw
  simp only [State.openCursor, hw', hn, hc]

theorem State.openCursor_range {w q start : Nat} {present : Byte}
    (h : 1023 < w ∨ ¬(present = 0 ∨ (present = 1 ∧ start ≤ 16777215))) :
    s.openCursor w q present start = .error .badRequest := by
  unfold State.openCursor
  rcases h with h | h
  · have hw : upTo Config.lastSwitch w = none := upTo_eq_none.mpr h
    rw [hw]
  · rw [readStart_eq_none h]
    cases upTo Config.lastSwitch w <;> rfl

/-! ### The pin request -/

theorem State.pinAnswer_eq_done {w q i : Nat} {f : File} (hf : s.findFile w q = some (i, f))
    (hs : f.state = .accepted ∨ f.state = .disputed) : s.pinAnswer w q = .done i f := by
  rcases hs with hs | hs <;> simp only [State.pinAnswer, hf, hs]

theorem State.pinAnswer_bar {w q : Nat} {status : Status}
    (h : (s.findFile w q = none ∧ status = .noFile)
      ∨ ∃ i f, s.findFile w q = some (i, f)
        ∧ ((f.state = .ingesting ∧ status = .fileNotReady) ∨ (f.state = .expiring ∧ status = .fileExpiring))) :
    (s.pinAnswer w q).bar = some status := by
  rcases h with ⟨hn, rfl⟩ | ⟨i, f, hf, ⟨hs, rfl⟩ | ⟨hs, rfl⟩⟩
  · simp only [State.pinAnswer, hn, PinAnswer.bar]
  · simp only [State.pinAnswer, hf, hs, PinAnswer.bar]
  · simp only [State.pinAnswer, hf, hs, PinAnswer.bar]

variable {p : PortId} {b : OpeningCursor} {i : Nat} {f : File}

theorem State.openCursorAnswer_refused {status : Status}
    (h : (s.pinAnswer b.switchId b.sequence).bar = some status) :
    s.openCursorAnswer p b = .refusal status s := by
  unfold State.openCursorAnswer
  split
  · next heq =>
    rw [heq] at h
    cases h
  · rw [h]
    rfl

theorem State.openCursorAnswer_done (hf : s.findFile b.switchId b.sequence = some (i, f))
    (hs : f.state = .accepted ∨ f.state = .disputed) (hc : s.cursors[b.cursor].isOpen = false) :
    s.openCursorAnswer p b
      = .ok (.cursorOpened b.cursor f.state f.rounding i f.recordCount (s.openedCursor p i f b.start).nextOrdinal)
          (s.pinOpened p i f b) := by
  simp only [State.openCursorAnswer, State.pinAnswer_eq_done hf hs, hc, Bool.false_eq_true, if_false]

/-- The state an OPEN CURSOR leaves: its file pinned, its cursor at a place (R16, R136). -/
def State.cursorOpenedAt (s : State) (p : PortId) (c : CursorId) (i : Nat) (f : File) (segment : Option Nat)
    (within next : Nat) : State :=
  { s with
    files := Sparse.set none i (some { f with pinCount := f.pinCount + 1 }) s.files
    cursors := s.cursors.set c
      { isOpen := true, owner := some p, fileIndex := some i, segment, within, nextOrdinal := next
        idle := .running (10 * (s.settings.ports[p].cursorTimeout + 1)) } }

theorem State.openCursorAnswer_placed {k m : Nat} (hi : s.file i = some f)
    (hf : s.findFile b.switchId b.sequence = some (i, f)) (hs : f.state = .accepted ∨ f.state = .disputed)
    (hc : s.cursors[b.cursor].isOpen = false) (hl : locate s.segments (s.chain f) b.start = some (k, m)) :
    s.openCursorAnswer p b
      = .ok (.cursorOpened b.cursor f.state f.rounding i f.recordCount b.start)
          (s.cursorOpenedAt p b.cursor i f (some k) m b.start) := by
  rw [State.openCursorAnswer_done hf hs hc, State.pinOpened, State.pin_of_file hi]
  simp only [State.openedCursor, hl]
  rfl

theorem State.openCursorAnswer_atEnd (hi : s.file i = some f)
    (hf : s.findFile b.switchId b.sequence = some (i, f)) (hs : f.state = .accepted ∨ f.state = .disputed)
    (hc : s.cursors[b.cursor].isOpen = false) (hl : locate s.segments (s.chain f) b.start = none) :
    s.openCursorAnswer p b
      = .ok (.cursorOpened b.cursor f.state f.rounding i f.recordCount f.recordCount)
          (s.cursorOpenedAt p b.cursor i f none 0 f.recordCount) := by
  rw [State.openCursorAnswer_done hf hs hc, State.pinOpened, State.pin_of_file hi]
  simp only [State.openedCursor, hl]
  rfl

/-! ### The request as a whole -/

variable {tag : Byte} {w q : Wire16} {present : Byte} {start : Wire32}

theorem exec_openCursor_free (ha : s.admits p tag) (hr : (s.roles p).retrieve = true)
    (ask : s.openCursor (wire16 (s.byteOrder p) w) (wire16 (s.byteOrder p) q) present (wire32 (s.byteOrder p) start)
      = .ok b) (hb : s.catalogueBusy = false) (ho : s.openings = []) :
    exec (.openCursor p tag w q present start) s = .next ((s.openCursorAnswer p b).send p tag) :=
  congrArg Host.Outcome.next
    (State.opening_free (need := fun r => r.retrieve) .cursor (fun b s => s.openCursorAnswer p b) ha hr ask hb ho)

theorem State.opening_refused {α : Type} {need : RoleSet → Bool} {ask : State → Except Status α}
    (request : α → OpeningRequest) (answer : α → State → Answer) {status : Status} (h : s.admits p tag)
    (hr : need (s.roles p) = true) (hk : ask s = .error status) :
    s.opening p tag need ask request answer = s.refuse p tag status := by
  rw [State.opening, State.receive_admitted _ h]
  simp only [State.permit, hr, hk, if_true]

theorem exec_openCursor_error {status : Status} (ha : s.admits p tag) (hr : (s.roles p).retrieve = true)
    (ask : s.openCursor (wire16 (s.byteOrder p) w) (wire16 (s.byteOrder p) q) present (wire32 (s.byteOrder p) start)
      = .error status) : exec (.openCursor p tag w q present start) s = .next (s.refuse p tag status) :=
  congrArg Host.Outcome.next
    (State.opening_refused (need := fun r => r.retrieve) .cursor (fun b s => s.openCursorAnswer p b) ha hr ask)

/-- What the pin request refuses is refused with a cursor to take, by the catalogue's answer, and without one, by the
File Table as it stands (R135). -/
theorem exec_openCursor_barred {n : Nat} {status : Status} (ha : s.admits p tag) (hr : (s.roles p).retrieve = true)
    (hw : wire16 (s.byteOrder p) w ≤ 1023) (hn : readStart present (wire32 (s.byteOrder p) start) = some n)
    (hfree : (s.catalogueBusy = false ∧ s.openings = []) ∨ ∀ c, ¬s.cursorOpenable c)
    (hb : (s.pinAnswer (wire16 (s.byteOrder p) w) (wire16 (s.byteOrder p) q)).bar = some status) :
    exec (.openCursor p tag w q present start) s = .next (s.refuse p tag status) := by
  cases hc : s.freeCursor with
  | none =>
    refine exec_openCursor_error ha hr ?_
    rw [State.openCursor_none hw hn hc, hb]
    rfl
  | some c =>
    obtain ⟨hbusy, ho⟩ := hfree.resolve_right fun h => by
      rw [State.freeCursor_eq_none h] at hc
      cases hc
    rw [exec_openCursor_free ha hr (State.openCursor_ok hw hn hc) hbusy ho, State.openCursorAnswer_refused hb]
    rfl

/-- A late answer that leaves the ports as they were goes to the entry of its request. -/
theorem Answer.sendLate_eq {a : Answer} {standing : Standing} (hp : a.state.ports = s.ports)
    (hm : ⟨tag, standing⟩ ∈ s.ports[p].outstanding) :
    a.sendLate p tag = (a.state.freeTag p tag).reply p tag a.status a.body := by
  rw [Answer.sendLate, State.answer_of_mem (standing := standing) _ _ (by rw [hp]; exact hm)]

/-! ## The freeing of a cursor -/

variable {c : CursorId}

/-- A cursor freed and its file's pin count lowered (R143, R144). -/
def State.cursorFreed (s : State) (c : CursorId) (i : Nat) (f : File) : State :=
  { s with
    cursors := s.cursors.set c {}
    storePort :=
      { s.storePort with
        reads := s.storePort.reads.filter (fun r => r.1 ≠ c)
        current := match s.storePort.current with
          | some (.read d n live) => some (.read d n (if d = c then false else live))
          | other => other }
    files := Sparse.set none i (some { f with pinCount := f.pinCount - 1 }) s.files }

theorem State.releaseCursor_setFile (s : State) (c : CursorId) (i : Nat) (f : File) :
    (s.releaseCursor c).setFile i f.unpinned = s.cursorFreed c i f := by
  have current : (s.abandonRead c).storePort.current
      = match s.storePort.current with
        | some (.read d n live) => some (.read d n (if d = c then false else live))
        | other => other := by
    unfold State.abandonRead
    rcases h : s.storePort.current with _ | ⟨x, n⟩ | ⟨d, n, live⟩ | n <;> simp only
    by_cases hd : d = c <;> simp [hd]
  unfold State.cursorFreed
  rw [← current]
  rfl

/-- The freeing of a cursor of a pinned file (R143): where the pin count falls to 0 on an EXPIRING file, the pin-release
reclaim follows (R104). -/
theorem State.freeCursorOf_pinned (hc : s.cursors[c].fileIndex = some i) (hf : s.file i = some f)
    (hp : f.pinCount ≠ 0) :
    s.freeCursorOf c
      = if f.pinCount = 1 ∧ f.state = .expiring then (s.cursorFreed c i f).pinReleased i else s.cursorFreed c i f := by
  rcases s.freeCursorOf_cases c with ⟨j, g, hj, hg, -, e⟩ | ⟨h, -⟩
  · obtain rfl : i = j := Option.some.inj (hc.symm.trans hj)
    obtain rfl : f = g := Option.some.inj (hf.symm.trans hg)
    rw [e, State.releaseCursor_setFile]
  · exact absurd (h i f hc hf) hp

theorem State.file_cursorFreed (s : State) (c : CursorId) (i : Nat) (f : File) :
    (s.cursorFreed c i f).file i = some f.unpinned := by
  rw [State.file, State.cursorFreed, Sparse.get_set, if_pos rfl]
  rfl

theorem State.pinReleased_paused (h : s.pass.paused = true) : s.pinReleased i = s := if_pos h

theorem State.pinReleased_last (h : s.pass.paused = false) (hf : s.file i = some f) (hs : f.state = .expiring)
    (hp : f.pinCount = 0) : s.pinReleased i = (s.reclaimStep i f).2 := by
  simp only [State.pinReleased, h, hf, hs, hp, and_self, Bool.false_eq_true, if_false, if_true]

theorem State.freeCursorOf_kept (hc : s.cursors[c].fileIndex = some i) (hf : s.file i = some f)
    (hp : f.pinCount ≠ 0) (h : f.state ≠ .expiring ∨ f.pinCount ≠ 1 ∨ s.pass.paused = true) :
    s.freeCursorOf c = s.cursorFreed c i f := by
  rw [State.freeCursorOf_pinned hc hf hp]
  split
  · next hl =>
    have paused : (s.cursorFreed c i f).pass.paused = true :=
      (h.resolve_left (not_not.mpr hl.2)).resolve_left (not_not.mpr hl.1)
    exact State.pinReleased_paused paused
  · rfl

/-- The last unpin of an EXPIRING file, the expiry not paused, makes the reclaim step (R98, R104). -/
theorem State.freeCursorOf_last (hc : s.cursors[c].fileIndex = some i) (hf : s.file i = some f)
    (hs : f.state = .expiring) (hp : f.pinCount = 1) (hu : s.pass.paused = false) :
    s.freeCursorOf c = ((s.cursorFreed c i f).reclaimStep i f.unpinned).2 := by
  have unpinned : f.unpinned.pinCount = 0 := by simp [File.unpinned, hp]
  rw [State.freeCursorOf_pinned hc hf (by omega), if_pos ⟨hp, hs⟩,
    State.pinReleased_last (by exact hu) (s.file_cursorFreed c i f) (by exact hs) unpinned]

theorem File.unpinned_of_one (h : f.pinCount = 1) : f.unpinned = { f with pinCount := 0 } := by
  rw [File.unpinned, h]

theorem State.freeCursorOf_returns (hc : s.cursors[c].fileIndex = some i) (hf : s.file i = some f)
    (hs : f.state = .expiring) (hp : f.pinCount = 1) (hu : s.pass.paused = false) (hd : s.dueToExpire f = false) :
    s.freeCursorOf c = (s.cursorFreed c i f).setFile i { f with pinCount := 0, state := .accepted } := by
  have due : (s.cursorFreed c i f).dueToExpire f.unpinned = false := hd
  have accept : (s.cursorFreed c i f).returnAccepted i
      = some ((s.cursorFreed c i f).setFile i { f with pinCount := 0, state := .accepted }) := by
    simp only [State.returnAccepted, State.file_cursorFreed, File.unpinned_of_one hp, hs, if_true]
  rw [State.freeCursorOf_last hc hf hs hp hu, State.reclaimStep, due, accept]
  rfl

theorem State.freeCursorOf_waits (hc : s.cursors[c].fileIndex = some i) (hf : s.file i = some f)
    (hs : f.state = .expiring) (hp : f.pinCount = 1) (hu : s.pass.paused = false) (hd : s.dueToExpire f = true)
    (ht : 128 ≤ s.trail.entries.length) : s.freeCursorOf c = s.cursorFreed c i f := by
  have due : (s.cursorFreed c i f).dueToExpire f.unpinned = true := hd
  have room : (s.cursorFreed c i f).trailRoom = false := decide_eq_false (Nat.not_lt.mpr ht)
  rw [State.freeCursorOf_last hc hf hs hp hu, State.reclaimStep, due, room]
  rfl

theorem State.freeCursorOf_reclaims (hc : s.cursors[c].fileIndex = some i) (hf : s.file i = some f)
    (hs : f.state = .expiring) (hp : f.pinCount = 1) (hu : s.pass.paused = false) (hd : s.dueToExpire f = true)
    (ht : s.trail.entries.length < 128) :
    s.freeCursorOf c
      = ({ s.cursorFreed c i f with
            trail := s.trail.append s.stamp .fileExpired none (.file f.switchId f.sequence i {}) f.recordCount } : State
          ).releaseFile i { f with pinCount := 0 } := by
  have due : (s.cursorFreed c i f).dueToExpire f.unpinned = true := hd
  have room : (s.cursorFreed c i f).trailRoom = true := decide_eq_true ht
  have hs' : f.unpinned.state = .expiring := hs
  have unpinned : f.unpinned.pinCount = 0 := by simp [File.unpinned, hp]
  have reclaim : ((s.cursorFreed c i f).record .fileExpired none (f.unpinned.subject i) f.unpinned.recordCount
      ).reclaimFile i
      = some (((s.cursorFreed c i f).record .fileExpired none (f.unpinned.subject i) f.unpinned.recordCount).releaseFile
          i f.unpinned) := by
    have file : ((s.cursorFreed c i f).record .fileExpired none (f.unpinned.subject i) f.unpinned.recordCount).file i
        = some f.unpinned := s.file_cursorFreed c i f
    simp only [State.reclaimFile, file, hs', unpinned, and_self, if_true]
  rw [State.freeCursorOf_last hc hf hs hp hu, State.reclaimStep, due, room, reclaim, File.unpinned_of_one hp]
  rfl

/-! ## Requests that name a cursor -/

theorem readIndex_cursor (c : CursorId) : readIndex 16 (BitVec.ofNat 8 c.val) = some c := by
  have h : (BitVec.ofNat 8 c.val).toNat = c.val := by
    rw [BitVec.toNat_ofNat, Nat.mod_eq_of_lt (by omega)]
  rw [readIndex, dif_pos (by omega)]
  exact congrArg some (Fin.ext h)

theorem readIndex_eq_none {n : Nat} {b : Byte} (h : n ≤ b.toNat) : readIndex n b = none :=
  dif_neg (Nat.not_lt.mpr h)

variable {cursor : Byte} {held : CursorId → Standing} {take : CursorId → State → State}

theorem State.nameCursor_range (hr : (s.roles p).retrieve = true) (h : 15 < cursor.toNat) :
    s.nameCursor p tag cursor held take = s.refuse p tag .badRequest := by
  simp only [State.nameCursor, readIndex_eq_none h, State.permit, hr, if_true]

theorem State.nameCursor_taken (hr : (s.roles p).retrieve = true) (hb : s.cursorBusy p c = false)
    (ho : s.ownsCursor p c = true) : s.nameCursor p tag (BitVec.ofNat 8 c.val) held take = take c s := by
  simp only [State.nameCursor, readIndex_cursor, State.permit, hr, hb, ho, Bool.false_eq_true, if_false, if_true]

theorem State.nameCursor_refused (hr : (s.roles p).retrieve = true) (hb : s.cursorBusy p c = false)
    (ho : s.ownsCursor p c = false) :
    s.nameCursor p tag (BitVec.ofNat 8 c.val) held take = s.refuse p tag .noCursor := by
  simp only [State.nameCursor, readIndex_cursor, State.permit, hr, hb, ho, Bool.false_eq_true, if_false, if_true]

theorem State.nameCursor_held (hb : s.cursorBusy p c = true) :
    s.nameCursor p tag (BitVec.ofNat 8 c.val) held take = s.takeEntry p tag (held c) := by
  simp only [State.nameCursor, readIndex_cursor, hb, if_true]

theorem exec_fetchRecords (ha : s.admits p tag) (count : Wire16) :
    exec (.fetchRecords p tag cursor count) s
      = .next (s.nameCursor p tag cursor (fun c => .heldFetch c (wire16 (s.byteOrder p) count))
          (fun c s' => (s'.takeFetch p tag c (wire16 (s.byteOrder p) count)).1)) :=
  congrArg Host.Outcome.next (State.receive_admitted _ ha)

theorem exec_closeCursor (ha : s.admits p tag) :
    exec (.closeCursor p tag cursor) s
      = .next (s.nameCursor p tag cursor .heldClose (fun c s => (s.freeCursorOf c).reply p tag .ok .empty)) :=
  congrArg Host.Outcome.next (State.receive_admitted _ ha)

theorem exec_closeCursor_owned (ha : s.admits p tag) (hr : (s.roles p).retrieve = true)
    (hb : s.cursorBusy p c = false) (ho : s.ownsCursor p c = true) :
    exec (.closeCursor p tag (BitVec.ofNat 8 c.val)) s = .next ((s.freeCursorOf c).reply p tag .ok .empty) := by
  rw [exec_closeCursor ha, State.nameCursor_taken hr hb ho]

theorem exec_cursorIdleExpiry (hp : s.powered = true) (ho : s.cursors[c].isOpen = true)
    (hd : s.cursors[c].idle = .due) : exec (.cursorIdleExpiry c) s = .next (s.freeCursorOf c) := by
  rw [show exec (.cursorIdleExpiry c) s = .next (s.event (fun s => s.cursorExpiry c)) from rfl, State.event, if_pos hp,
    State.cursorExpiry, if_pos ⟨ho, hd⟩]

theorem State.ownsCursor_iff :
    s.ownsCursor p c = true ↔ s.cursors[c].isOpen = true ∧ s.cursors[c].owner = some p := by
  rw [State.ownsCursor, Bool.and_eq_true, decide_eq_true_iff]

theorem State.cursorBusy_iff :
    s.cursorBusy p c = true ↔ ∃ o ∈ s.ports[p].outstanding, o.standing.cursor = some c := by
  simp [State.cursorBusy]

end

end Sys2Proof.Machine

/-- Settles O53: OPEN CURSOR through the pin request's answer, at once or in its turn; the freeing of a cursor through
its file's pin count; and the requests that name a cursor by who owns it and what is outstanding. -/
theorem cursorsPinTheirFile : Obligations.CursorsPinTheirFile := by
  unfold Obligations.CursorsPinTheirFile
  intro opened answered
  refine ⟨?_, ?_, ?_⟩
  · intro s p c i f hp hi
    refine ⟨?_, ?_, ?_⟩
    · intro tag w q present start n ha hr hw hn hf hs hc hlow
      have ask := State.openCursor_ok (q := wire16 (s.byteOrder p) q) hw
        (readStart_eq (start := wire32 (s.byteOrder p) start) (by tauto)) (State.freeCursor_eq_some hc hlow)
      refine ⟨fun hb ho => ⟨fun k m hl => ?_, fun hl => ?_⟩, fun hb => ?_⟩
      · rw [exec_openCursor_free ha hr ask hb ho, State.openCursorAnswer_placed hi hf hs hc.1 hl]
        rfl
      · rw [exec_openCursor_free ha hr ask hb ho, State.openCursorAnswer_atEnd hi hf hs hc.1 hl]
        rfl
      · exact congrArg Host.Outcome.next
          (State.opening_waits (need := fun r => r.retrieve) .cursor (fun b s => s.openCursorAnswer p b) ha hr ask hb)
    · intro tag b rest hq hu ho hm hbc hcl hf
      subst hbc
      have late (a : Answer) (hans : ({ s with openings := rest } : State).openCursorAnswer p b = a)
          (hports : a.state.ports = s.ports) :
          step s = .next ((a.state.freeTag p tag).reply p tag a.status a.body) := by
        rw [step_answersOpening hq hp hu ho, State.openingAnswer, hans, Answer.sendLate_eq hports hm]
      refine ⟨fun hs => ⟨fun k m hl => ?_, fun hl => ?_⟩, fun hs => ?_, fun hs => ?_⟩
      · exact late _ (State.openCursorAnswer_placed (s := { s with openings := rest }) hi hf hs hcl hl) rfl
      · exact late _ (State.openCursorAnswer_atEnd (s := { s with openings := rest }) hi hf hs hcl hl) rfl
      · exact late _ (State.openCursorAnswer_refused (State.pinAnswer_bar (.inr ⟨i, f, hf, .inl ⟨hs, rfl⟩⟩))) rfl
      · exact late _ (State.openCursorAnswer_refused (State.pinAnswer_bar (.inr ⟨i, f, hf, .inr ⟨hs, rfl⟩⟩))) rfl
    · intro ho hown hci hpc unpinned reclaimed
      have freed (left : State) (h : s.freeCursorOf c = left) :
          (s.cursors[c].idle = .due → exec (.cursorIdleExpiry c) s = .next left)
            ∧ ∀ tag, s.admits p tag → (s.roles p).retrieve = true → s.cursorBusy p c = false →
              exec (.closeCursor p tag (BitVec.ofNat 8 c.val)) s = .next (left.reply p tag .ok .empty) := by
        refine ⟨fun hd => ?_, fun tag ha hr hb => ?_⟩
        · rw [exec_cursorIdleExpiry hp ho hd, h]
        · rw [exec_closeCursor_owned ha hr hb (State.ownsCursor_iff.mpr ⟨ho, hown⟩), h]
      refine ⟨fun h => freed _ (State.freeCursorOf_kept hci hi hpc h), ?_, fun hs h1 hu hd ht =>
        freed _ (State.freeCursorOf_reclaims hci hi hs h1 hu hd ht)⟩
      rintro left ⟨hs, h1, hu, ⟨hd, rfl⟩ | ⟨hd, ht, rfl⟩⟩
      · exact freed _ (State.freeCursorOf_returns hci hi hs h1 hu hd)
      · exact freed _ (State.freeCursorOf_waits hci hi hs h1 hu hd ht)
  · intro s p tag b rest hq hp hu ho hm hf
    rw [step_answersOpening hq hp hu ho, State.openingAnswer,
      State.openCursorAnswer_refused (s := { s with openings := rest }) (State.pinAnswer_bar (.inl ⟨hf, rfl⟩)),
      Answer.sendLate_eq (s := s) rfl hm]
    rfl
  · intro s p tag w q count present cursor start ha wn qn startOk refused
    refine ⟨fun hr => ⟨fun h => ?_, fun hw hst hfree => ?_, fun hc => ?_, fun c hc hb ho => ?_⟩, fun c hc ho => ?_⟩
    · exact exec_openCursor_error ha hr (State.openCursor_range h)
    · obtain ⟨n, hn⟩ : ∃ n, readStart present (wire32 (s.byteOrder p) start) = some n := by
        rcases hst with h0 | ⟨h1, hle⟩
        · exact ⟨0, readStart_eq (.inl ⟨h0, rfl⟩)⟩
        · exact ⟨_, readStart_eq (.inr ⟨h1, rfl, hle⟩)⟩
      have barred {status : Status} (hb : (s.pinAnswer wn qn).bar = some status) : refused status :=
        exec_openCursor_barred ha hr hw hn hfree hb
      refine ⟨fun hf => barred (State.pinAnswer_bar (.inl ⟨hf, rfl⟩)), fun i f hf => ⟨fun hs => ?_, fun hs => ?_,
        fun hs hnone => ?_⟩⟩
      · exact barred (State.pinAnswer_bar (.inr ⟨i, f, hf, .inl ⟨hs, rfl⟩⟩))
      · exact barred (State.pinAnswer_bar (.inr ⟨i, f, hf, .inr ⟨hs, rfl⟩⟩))
      · refine exec_openCursor_error ha hr ?_
        rw [State.openCursor_none hw hn (State.freeCursor_eq_none hnone), State.pinAnswer_eq_done hf hs]
        rfl
    · rw [exec_fetchRecords ha, exec_closeCursor ha, State.nameCursor_range hr hc, State.nameCursor_range hr hc]
      exact ⟨rfl, rfl⟩
    · have notOwned : s.ownsCursor p c = false := by
        rw [← Bool.not_eq_true, State.ownsCursor_iff]
        rintro ⟨h1, h2⟩
        rcases ho with h0 | h0
        · rw [h0] at h1
          cases h1
        · exact h0 h2
      subst hc
      rw [exec_fetchRecords ha, exec_closeCursor ha, State.nameCursor_refused hr hb notOwned,
        State.nameCursor_refused hr hb notOwned]
      exact ⟨rfl, rfl⟩
    · subst hc
      have busy := State.cursorBusy_iff.mpr ho
      rw [exec_fetchRecords ha, exec_closeCursor ha, State.nameCursor_held busy, State.nameCursor_held busy]
      exact ⟨rfl, rfl⟩
end

section
/-! PROOFS. Gathering records from a loaded segment. -/

open Sys2Proof Sys2Proof.Machine
namespace Sys2Proof.Machine

/-! ## Gathering from a loaded segment -/

/-- Records delivered in file order from an ordinal on (R140, R141). -/
def deliveries (mode : Rounding) (ordinal : Nat) (suspect : Bool) (rs : List CallRecord) : List Delivered :=
  rs.mapIdx (fun k r => deliver mode (ordinal + k) suspect r)

theorem deliveries_concat (mode : Rounding) (ordinal : Nat) (suspect : Bool) (rs : List CallRecord) (r : CallRecord) :
    deliveries mode ordinal suspect (rs ++ [r])
      = deliveries mode ordinal suspect rs ++ [deliver mode (ordinal + rs.length) suspect r] := by
  rw [deliveries, List.mapIdx_concat]
  rfl

section
variable {s : State} {u : Cursor} {n room : Nat} {rs : List CallRecord} {ds : List Delivered} {mode : Rounding}

/-- The records that remain of a cursor's segment. -/
def State.recordsLeft (s : State) (u : Cursor) (n : Nat) : Nat := (s.segment n).figures.recordCount - u.within

/-- A cursor behind the last record of its segment. -/
def State.behindSegment (s : State) (u : Cursor) (n : Nat) : Cursor :=
  { u with
    segment := (s.segment n).next, within := 0, loaded := none
    nextOrdinal := u.nextOrdinal + s.recordsLeft u n }

/-- A cursor after some of the remaining records of its loaded segment. -/
def State.advanced (s : State) (u : Cursor) (n : Nat) (rs : List CallRecord) (k : Nat) : Cursor :=
  if k < s.recordsLeft u n then
    { u with loaded := some rs, within := u.within + k, nextOrdinal := u.nextOrdinal + k }
  else s.behindSegment u n

/-- The status a fetch ends with whose cursor stands at `v` (R137). -/
def Cursor.ending (v : Cursor) : Status := if v.segment = none then .atEnd else .ok

/-- The records delivered from a cursor's loaded segment up to a limit (R137, R140, R141). -/
def State.deliveredFrom (s : State) (u : Cursor) (n : Nat) (rs : List CallRecord) (room : Nat) : List Delivered :=
  deliveries (s.cursorRounding u) u.nextOrdinal ((s.segment n).state = .suspect) ((rs.drop u.within).take room)

theorem State.gather_zero (s : State) (u : Cursor) (ds : List Delivered) :
    s.gather 0 u ds = .finished u.ending u ds := by
  rw [State.gather, Cursor.ending]
  cases u.segment <;> rfl

theorem State.gather_atEnd (h : u.segment = none) : s.gather room u ds = .finished .atEnd u ds := by
  cases room with
  | zero => rw [State.gather_zero, Cursor.ending, if_pos h]
  | succ room => simp only [State.gather, h]

theorem State.gather_enters (hs : u.segment = some n) (hl : u.loaded = none) (hr : 0 < room) :
    s.gather room u ds = .enter n u ds := by
  obtain ⟨k, rfl⟩ := Nat.exists_eq_succ_of_ne_zero hr.ne'
  simp only [State.gather, hs, hl]

/-- One record delivered and passed. -/
theorem State.gather_passes {r : CallRecord} (hs : u.segment = some n) (hl : u.loaded = some rs)
    (hr : rs[u.within]? = some r) :
    s.gather (room + 1) u ds
      = s.gather room (s.passRecord u n)
          (ds ++ [deliver (s.cursorRounding u) u.nextOrdinal ((s.segment n).state = .suspect) r]) := by
  simp only [State.gather, hs, hl, hr]

/-- Passing one more record of the segment. -/
theorem State.passRecord_advanced {k : Nat} (hs : u.segment = some n)
    (hk : u.within + k < (s.segment n).figures.recordCount) :
    s.passRecord { u with loaded := some rs, within := u.within + k, nextOrdinal := u.nextOrdinal + k } n
      = s.advanced u n rs (k + 1) := by
  rw [State.passRecord, State.advanced]
  by_cases hlast : u.within + k + 1 = (s.segment n).figures.recordCount
  · have left : s.recordsLeft u n = k + 1 := by unfold State.recordsLeft; omega
    rw [if_pos (by exact hlast.ge), if_neg (by omega), State.behindSegment, left, State.nextSegment]
    simp only [hs, Nat.add_assoc]
  · have left : k + 1 < s.recordsLeft u n := by unfold State.recordsLeft; omega
    rw [if_neg (by show ¬_ ≤ u.within + k + 1; omega), if_pos left]
    simp only [Nat.add_assoc]

/-- Records of the loaded segment delivered, the cursor after them. -/
theorem State.gather_advances {k : Nat} (hs : u.segment = some n) (hl : u.loaded = some rs)
    (hn : rs.length = (s.segment n).figures.recordCount) (hu : u.within < (s.segment n).figures.recordCount)
    (hk : k ≤ s.recordsLeft u n) :
    s.gather (k + room) u ds = s.gather room (s.advanced u n rs k) (ds ++ s.deliveredFrom u n rs k) := by
  induction k generalizing room with
  | zero =>
    have start : s.advanced u n rs 0 = u := by
      rw [State.advanced, if_pos (by unfold State.recordsLeft; omega), ← hl]
      rfl
    simp [start, State.deliveredFrom, deliveries]
  | succ k ih =>
    have hlt : u.within + k < (s.segment n).figures.recordCount := by unfold State.recordsLeft at hk; omega
    have inside : s.advanced u n rs k
        = { u with loaded := some rs, within := u.within + k, nextOrdinal := u.nextOrdinal + k } := if_pos hk
    have next : (rs.drop u.within).take (k + 1) = (rs.drop u.within).take k ++ [rs[u.within + k]] := by
      rw [List.take_add_one, List.getElem?_drop, List.getElem?_eq_getElem (by omega)]
      rfl
    have more : s.deliveredFrom u n rs (k + 1) = s.deliveredFrom u n rs k
        ++ [deliver (s.cursorRounding u) (u.nextOrdinal + k) ((s.segment n).state = .suspect) rs[u.within + k]] := by
      have taken : ((rs.drop u.within).take k).length = k := by
        rw [List.length_take, List.length_drop]
        omega
      rw [State.deliveredFrom, next, deliveries_concat, taken]
      rfl
    rw [show k + 1 + room = k + (room + 1) by omega, ih (by omega), inside,
      State.gather_passes (n := n) (rs := rs) (r := rs[u.within + k]) (by exact hs) rfl
        (List.getElem?_eq_getElem (show u.within + k < rs.length by omega)),
      State.passRecord_advanced hs hlt, more, List.append_assoc]
    rfl

section
variable (hs : u.segment = some n) (hl : u.loaded = some rs)
  (hn : rs.length = (s.segment n).figures.recordCount) (hu : u.within < (s.segment n).figures.recordCount)
include hs hl hn hu

/-- A limit beyond the segment: all its records are delivered, the cursor stands behind it. -/
theorem State.gather_beyond (hr : s.recordsLeft u n < room) :
    s.gather room u ds
      = s.gather (room - s.recordsLeft u n) (s.advanced u n rs room) (ds ++ s.deliveredFrom u n rs room) := by
  have all : s.deliveredFrom u n rs (s.recordsLeft u n) = s.deliveredFrom u n rs room := by
    have hlen : (rs.drop u.within).length = s.recordsLeft u n := by rw [List.length_drop, hn, State.recordsLeft]
    rw [State.deliveredFrom, State.deliveredFrom, List.take_of_length_le hlen.le, List.take_of_length_le (by omega)]
  have behind : s.advanced u n rs (s.recordsLeft u n) = s.advanced u n rs room := by
    rw [State.advanced, State.advanced, if_neg (Nat.lt_irrefl _), if_neg (by omega)]
  conv_lhs => rw [show room = s.recordsLeft u n + (room - s.recordsLeft u n) by omega]
  rw [State.gather_advances hs hl hn hu le_rfl, all, behind]

/-- Gathering ends within the segment, or with the chain. -/
theorem State.gather_finishes (hr : room ≤ s.recordsLeft u n ∨ (s.segment n).next = none) :
    s.gather room u ds
      = .finished (s.advanced u n rs room).ending (s.advanced u n rs room) (ds ++ s.deliveredFrom u n rs room) := by
  rcases Nat.lt_or_ge (s.recordsLeft u n) room with hlt | hle
  · have atEnd : (s.advanced u n rs room).segment = none := by
      rw [State.advanced, if_neg (by omega)]
      exact hr.resolve_left (by omega)
    rw [State.gather_beyond hs hl hn hu hlt, State.gather_atEnd atEnd, Cursor.ending, if_pos atEnd]
  · rw [← State.gather_zero, ← State.gather_advances hs hl hn hu hle, Nat.add_zero]

/-- Gathering asks for the next segment. -/
theorem State.gather_next {m : Nat} (hr : s.recordsLeft u n < room) (hm : (s.segment n).next = some m) :
    s.gather room u ds = .enter m (s.advanced u n rs room) (ds ++ s.deliveredFrom u n rs room) := by
  have behind : s.advanced u n rs room = s.behindSegment u n := if_neg (by omega)
  rw [State.gather_beyond hs hl hn hu hr, behind]
  exact State.gather_enters hm rfl (by omega)

end
end

end Sys2Proof.Machine
end

section
/-! PROOFS. A fetch, its reply, and the read it asks for. -/

open Sys2Proof Sys2Proof.Machine
namespace Sys2Proof.Machine

/-! ## A cursor's fetch and its port's outstanding requests -/

theorem set_getElem_fin {α : Type} {n : Nat} (v : Vector α n) (i : Fin n) : v.set i v[i] = v := by simp

/-- A state with a cursor and the outstanding requests of a port replaced. -/
def State.withFetch (s : State) (p : PortId) (c : CursorId) (w : Cursor) (os : List Outstanding) : State :=
  { s with
    ports := s.ports.set p { s.ports[p] with outstanding := os }
    cursors := s.cursors.set c w }

section
variable {s : State} {p : PortId} {c : CursorId} {w v : Cursor} {os : List Outstanding} {tag : Byte} {limit n m : Nat}
  {ds : List Delivered}

theorem State.cursors_withFetch : (s.withFetch p c w os).cursors[c] = w := getElem_set_fin ..

theorem State.ports_withFetch : (s.withFetch p c w os).ports[p] = { s.ports[p] with outstanding := os } :=
  getElem_set_fin ..

theorem State.setCursor_withFetch : (s.withFetch p c w os).setCursor c v = s.withFetch p c v os := by
  rw [State.setCursor, State.withFetch, set_set_fin]
  rfl

theorem State.freeTag_withFetch :
    (s.withFetch p c w os).freeTag p tag = s.withFetch p c w (os.filter (fun o => o.tag ≠ tag)) := by
  rw [State.freeTag, State.setPort, State.ports_withFetch, State.withFetch, set_set_fin]
  rfl

theorem State.withFetch_self (hc : s.cursors[c] = w) (ho : s.ports[p].outstanding = os) : s.withFetch p c w os = s := by
  subst hc ho
  rw [State.withFetch, set_getElem_fin, set_getElem_fin]

/-- A fetch ended at a cursor: the idle countdown is loaded anew (R142). -/
def State.fetchEnded (s : State) (p : PortId) (w : Cursor) : Cursor :=
  { w with fetch := none, idle := .running (10 * (s.settings.ports[p].cursorTimeout + 1)) }

theorem State.endFetch_withFetch : (s.withFetch p c w os).endFetch p c = s.withFetch p c (s.fetchEnded p w) os := by
  rw [State.endFetch, State.updateCursor, State.cursors_withFetch, State.setCursor_withFetch]
  rfl

/-! ## The reply of a fetch -/

variable {status : Status} {skipped : Nat}

/-- On a free line the reply is sent in the step that forms it, which ends the fetch. -/
theorem State.answerFetch_free {standing : Standing} (ho : w.owner = some p) (hf : w.fetch = some ⟨tag, limit, ds⟩)
    (hm : ⟨tag, standing⟩ ∈ os) (hl : s.ports[p].lineBusy = false) :
    (s.withFetch p c w os).answerFetch c status skipped
      = (s.withFetch p c (s.fetchEnded p w) (os.filter (fun o => o.tag ≠ tag))).reply p tag status
          (.records ds skipped w.nextOrdinal) := by
  have line : (s.withFetch p c w os).ports[p].lineBusy = false := by rw [State.ports_withFetch]; exact hl
  have mem : ⟨tag, standing⟩ ∈ (s.withFetch p c (s.fetchEnded p w) os).ports[p].outstanding := by
    rw [State.ports_withFetch]
    exact hm
  rw [State.answerFetch]
  simp only [State.cursors_withFetch, ho, hf, line, Bool.false_eq_true, if_false]
  rw [State.endFetch_withFetch, State.answer_of_mem _ _ mem, State.freeTag_withFetch]

/-- The outstanding requests with the reply to one of them formed. -/
def delivering (tag : Byte) (c : CursorId) (os : List Outstanding) : List Outstanding :=
  os.map (fun o => if o.tag = tag then ⟨tag, .delivering c⟩ else o)

/-- A state in which the reply of a fetch waits behind the others of its port. -/
def State.fetchFormed (s : State) (p : PortId) (c : CursorId) (w : Cursor) (os : List Outstanding) (tag : Byte)
    (status : Status) (body : ReplyBody) : State :=
  { s with
    ports := s.ports.set p
      { s.ports[p] with
        outstanding := os, unsent := s.ports[p].unsent ++ [⟨p, tag, status, s.byteOrder p, body⟩] }
    cursors := s.cursors.set c w }

/-- On a busy line the reply waits, and the fetch stays in progress. -/
theorem State.answerFetch_busy (ho : w.owner = some p) (hf : w.fetch = some ⟨tag, limit, ds⟩)
    (hl : s.ports[p].lineBusy = true) :
    (s.withFetch p c w os).answerFetch c status skipped
      = s.fetchFormed p c w (delivering tag c os) tag status (.records ds skipped w.nextOrdinal) := by
  have line : (s.withFetch p c w os).ports[p].lineBusy = true := by rw [State.ports_withFetch]; exact hl
  have standing : (s.withFetch p c w os).setStanding p tag (.delivering c)
      = s.withFetch p c w (delivering tag c os) := by
    rw [State.setStanding, State.setPort, State.ports_withFetch, State.withFetch, set_set_fin]
    rfl
  have line' : (s.withFetch p c w (delivering tag c os)).ports[p].lineBusy = true := by
    rw [State.ports_withFetch]
    exact hl
  rw [State.answerFetch]
  simp only [State.cursors_withFetch, ho, hf, line, if_true]
  rw [standing, State.form_busy _ _ _ _ line', State.ports_withFetch, List.append_nil, State.setPort, State.withFetch,
    set_set_fin]
  rfl

/-! ## Serving a fetch -/

/-- Gathering that ends forms the reply. -/
theorem State.serveFetch_finished {gs : List Delivered} (hf : w.fetch = some ⟨tag, limit, gs⟩)
    (hg : (s.withFetch p c w os).gather (limit - gs.length) w gs = .finished status v ds) :
    (s.withFetch p c w os).serveFetch c
      = ((s.withFetch p c { v with fetch := some ⟨tag, limit, ds⟩ } os).answerFetch c status 0, true) := by
  rw [State.serveFetch]
  simp only [State.cursors_withFetch, hf, hg, State.setCursor_withFetch]

/-- The read of a segment, asked for (R138). -/
def State.readAsked (s : State) (m : Nat) (reading : Bool) : CursorRead :=
  { segment := m, allocation := (s.segment m).allocation, reading }

/-- A state in which a cursor's read waits at the Store Port. -/
def State.readQueued (s : State) (p : PortId) (c : CursorId) (w : Cursor) (os : List Outstanding) (m : Nat) : State :=
  { s.withFetch p c { w with read := some (s.readAsked m false) } os with
    storePort := { s.storePort with reads := s.storePort.reads ++ [(c, m)] } }

/-- Gathering that must enter a segment asks for its read. -/
theorem State.serveFetch_enters {gs : List Delivered} (hf : w.fetch = some ⟨tag, limit, gs⟩)
    (hg : (s.withFetch p c w os).gather (limit - gs.length) w gs = .enter m v ds) :
    (s.withFetch p c w os).serveFetch c
      = ((s.readQueued p c { v with fetch := some ⟨tag, limit, ds⟩ } os m).startStore, false) := by
  rw [State.serveFetch]
  simp only [State.cursors_withFetch, hf, hg, State.setCursor_withFetch]
  rfl

theorem State.startStore_busy (h : s.storePort.current.isSome = true) : s.startStore = s := by
  obtain ⟨op, hop⟩ := Option.isSome_iff_exists.mp h
  rw [State.startStore]
  simp only [hop]

/-- With the store idle the read asked for starts at once (R87). -/
theorem State.startStore_readQueued
    (h : s.storePort.current = none ∧ s.storePort.writes = [] ∧ s.storePort.reads = []) :
    (s.readQueued p c w os m).startStore
      = { s.withFetch p c { w with read := some (s.readAsked m true) } os with
          storePort := { s.storePort with current := some (.read c m true) } } := by
  obtain ⟨hc, hw, hr⟩ := h
  have current : (s.readQueued p c w os m).storePort.current = none := hc
  have writes : (s.readQueued p c w os m).storePort.writes = [] := hw
  have reads : (s.readQueued p c w os m).storePort.reads = [(c, m)] := by
    show s.storePort.reads ++ _ = _
    rw [hr]
    rfl
  rw [State.startStore]
  simp only [current, writes, reads, State.readReading, State.setCursor]
  simp only [State.readQueued, State.withFetch, getElem_set_fin, set_set_fin, hr, hw]
  rfl

/-! ## Taking a fetch -/

/-- A fetch that a cursor takes: its countdown stops and its request is outstanding (R137). -/
def Cursor.fetching (u : Cursor) (tag : Byte) (limit : Nat) : Cursor :=
  { u with idle := .stopped, fetch := some ⟨tag, limit, []⟩ }

theorem State.takeFetch_eq {u : Cursor} (count : Nat) (hu : s.cursors[c] = u) :
    s.takeFetch p tag c count
      = (s.withFetch p c (u.fetching tag (min count 64))
          (s.ports[p].outstanding ++ [⟨tag, .fetching c⟩])).serveFetch c := by
  subst hu
  rfl

theorem State.filter_admitted (standing : Standing) (ha : s.admits p tag) :
    (s.ports[p].outstanding ++ [(⟨tag, standing⟩ : Outstanding)]).filter (fun o => o.tag ≠ tag)
        = s.ports[p].outstanding := by
  obtain ⟨-, -, -, free, -⟩ := ha
  rw [List.filter_append, List.filter_eq_self.mpr (by simpa using free)]
  simp

theorem State.delivering_admitted (standing : Standing) (ha : s.admits p tag) :
    delivering tag c (s.ports[p].outstanding ++ [⟨tag, standing⟩])
      = s.ports[p].outstanding ++ [⟨tag, .delivering c⟩] := by
  obtain ⟨-, -, -, free, -⟩ := ha
  have kept : delivering tag c s.ports[p].outstanding = s.ports[p].outstanding :=
    (List.map_congr_left fun o ho => if_neg (free o ho)).trans (List.map_id' _)
  rw [delivering, List.map_append]
  exact congrArg₂ _ kept (by simp)

end

end Sys2Proof.Machine
end

section
/-! PROOFS. The request held behind a fetch. -/

open Sys2Proof Sys2Proof.Machine
namespace Sys2Proof.Machine

/-! ## The request held behind a fetch (R156) -/

section
variable {s : State} {p r : PortId} {c : CursorId} {tag : Byte}

/-- No request of a port is held behind a cursor. -/
def State.noneHeld (s : State) (p : PortId) (c : CursorId) : Prop :=
  ∀ o ∈ s.ports[p].outstanding, o.standing.cursor = some c → o.standing.held = false

theorem State.takeHeld_taken (k : Nat) (h : s.cursorTaken p c = true) : State.takeHeld p c k s = s := by
  cases k with
  | zero => rfl
  | succ k => rw [State.takeHeld, if_pos h]

theorem State.takeHeld_noneHeld (k : Nat) (h : s.noneHeld p c) : State.takeHeld p c k s = s := by
  cases k with
  | zero => rfl
  | succ k =>
    have first : s.firstHeld p c = none := by
      rw [State.firstHeld, List.find?_eq_none]
      intro o ho hc
      rw [Bool.and_eq_true, decide_eq_true_iff] at hc
      rw [h o ho hc.1] at hc
      cases hc.2
    rw [State.takeHeld, first, ite_self]

/-- The one request of a port that names a cursor is held: it is taken first. -/
theorem State.takeHeld_first {o : Outstanding} (k : Nat) (hm : o ∈ s.ports[p].outstanding)
    (hc : o.standing.cursor = some c) (hh : o.standing.held = true)
    (ho : ∀ o' ∈ s.ports[p].outstanding, o'.standing.cursor = some c → o' = o) :
    State.takeHeld p c (k + 1) s = State.takeHeld p c k (s.takeHeldRequest p o) := by
  have taken : s.cursorTaken p c = false := by
    rw [State.cursorTaken, List.any_eq_false]
    intro o' ho' h
    rw [Bool.and_eq_true, decide_eq_true_iff] at h
    rw [ho o' ho' h.1, hh] at h
    cases h.2
  obtain ⟨o', first⟩ : ∃ o', s.firstHeld p c = some o' := by
    rw [← Option.isSome_iff_exists, State.firstHeld, List.find?_isSome]
    exact ⟨o, hm, by simp [hc, hh]⟩
  have named := List.find?_some first
  rw [Bool.and_eq_true, decide_eq_true_iff] at named
  obtain rfl := ho o' (List.mem_of_find?_eq_some first) named.1
  rw [State.takeHeld, taken, first]
  rfl

/-! ## Nothing is held behind the cursor once the held request is taken -/

theorem State.noneHeld_form (status : Status) (body : ReplyBody) {entries : List Outstanding} (h : s.noneHeld p c)
    (he : ∀ o ∈ entries, o.standing.held = false) : (s.form r tag status body entries).noneHeld p c := by
  intro o ho hc
  rcases State.mem_form ho with ho | ⟨-, ho⟩
  · exact h o ho hc
  · exact he o ho

theorem State.noneHeld_reply (status : Status) (body : ReplyBody) (h : s.noneHeld p c) :
    (s.reply r tag status body).noneHeld p c :=
  State.noneHeld_form status body h (by simp [Standing.held])

theorem State.noneHeld_freeTag (h : s.noneHeld p c) : (s.freeTag r tag).noneHeld p c :=
  fun o ho => h o (State.mem_freeTag ho).1

theorem State.noneHeld_setStanding {standing : Standing} (h : s.noneHeld p c) (hs : standing.held = false) :
    (s.setStanding r tag standing).noneHeld p c := by
  intro o ho hc
  rcases State.mem_setStanding ho with ho | ⟨-, rfl, -⟩
  · exact h o ho hc
  · exact hs

theorem State.noneHeld_answer (status : Status) (body : ReplyBody) (h : s.noneHeld p c) :
    (s.answer r tag status body).noneHeld p c := by
  rcases s.answer_cases r tag status body with ⟨-, e⟩ | ⟨-, e⟩ <;> rw [e]
  · exact State.noneHeld_reply status body (State.noneHeld_freeTag h)
  · exact State.noneHeld_form status body h (by simp)

variable {w : Cursor} {os : List Outstanding} {limit : Nat} {ds : List Delivered}

theorem State.noneHeld_withFetch (h : ∀ o ∈ os, o.standing.cursor = some c → o.standing.held = false) :
    (s.withFetch p c w os).noneHeld p c := by
  intro o ho
  rw [State.ports_withFetch] at ho
  exact h o ho

theorem State.noneHeld_answerFetch (status : Status) (skipped : Nat) (h : s.noneHeld p c) :
    (s.answerFetch c status skipped).noneHeld p c := by
  rw [State.answerFetch]
  split
  · split
    · exact State.noneHeld_form status _ (State.noneHeld_setStanding h rfl) (by simp)
    · exact State.noneHeld_answer status _ h
  · exact h

theorem State.noneHeld_serveFetch (h : s.noneHeld p c) : (s.serveFetch c).1.noneHeld p c := by
  rw [State.serveFetch]
  split
  · exact h
  · split
    · exact State.noneHeld_answerFetch _ 0 h
    · next n _ _ _ =>
      intro o ho
      rw [(State.askRead_quiet _ c n).requests p] at ho
      exact h o ho

theorem State.noneHeld_takeFetch (count : Nat) (h : s.noneHeld p c) : (s.takeFetch p tag c count).1.noneHeld p c := by
  rw [State.takeFetch_eq count rfl]
  refine State.noneHeld_serveFetch (State.noneHeld_withFetch fun o ho hc => ?_)
  rcases List.mem_append.mp ho with ho | ho
  · exact h o ho hc
  · rw [List.mem_singleton.mp ho]
    rfl

theorem State.noneHeld_freeCursorOf (h : s.noneHeld p c) : (s.freeCursorOf c).noneHeld p c := by
  intro o ho
  rw [State.outstanding_freeCursorOf] at ho
  exact h o ho

theorem State.noneHeld_takeHeldRequest {o : Outstanding} (h : (s.freeTag p o.tag).noneHeld p c)
    (ho : o.standing.cursor = some c) : (s.takeHeldRequest p o).noneHeld p c := by
  rw [State.takeHeldRequest]
  split
  · exact State.noneHeld_reply _ _ h
  · split
    · next d n hs =>
      rw [hs] at ho
      obtain rfl : d = c := Option.some.inj ho
      split
      · exact State.noneHeld_takeFetch _ h
      · exact State.noneHeld_reply _ _ h
    · next d hs =>
      rw [hs] at ho
      obtain rfl : d = c := Option.some.inj ho
      split
      · exact State.noneHeld_reply _ _ (State.noneHeld_freeCursorOf h)
      · exact State.noneHeld_reply _ _ h
    · exact h

/-- The one request of a port that names a cursor is held: it is taken, and no more. -/
theorem State.takeHeld_one {o : Outstanding} (hm : o ∈ s.ports[p].outstanding) (hc : o.standing.cursor = some c)
    (hh : o.standing.held = true) (ho : ∀ o' ∈ s.ports[p].outstanding, o'.standing.cursor = some c → o' = o) :
    State.takeHeld p c 8 s = s.takeHeldRequest p o := by
  have rest : (s.freeTag p o.tag).noneHeld p c := by
    intro o' ho' hc'
    obtain ⟨hmem, htag⟩ := State.mem_freeTag ho'
    exact absurd (congrArg Outstanding.tag (ho o' hmem hc')) (htag rfl)
  rw [State.takeHeld_first 7 hm hc hh ho, State.takeHeld_noneHeld 7 (State.noneHeld_takeHeldRequest rest hc)]

/-! ## A held request is taken as it would be at its arrival -/

/-- A request of a port that may be held behind a cursor, and where its outstanding entry then stands. -/
def heldRequest (o : ByteOrder) (p : PortId) (tag : Byte) (c : CursorId) (standing : Standing) (request : Instr) :
    Prop :=
  (∃ count, standing = .heldFetch c (wire16 o count) ∧ request = .fetchRecords p tag (BitVec.ofNat 8 c.val) count)
    ∨ (standing = .heldClose c ∧ request = .closeCursor p tag (BitVec.ofNat 8 c.val))

section
variable {standing : Standing} {request : Instr} (h : heldRequest (s.byteOrder p) p tag c standing request)
include h

theorem heldRequest_cursor : standing.cursor = some c := by
  rcases h with ⟨count, rfl, -⟩ | ⟨rfl, -⟩ <;> rfl

theorem heldRequest_held : standing.held = true := by
  rcases h with ⟨count, rfl, -⟩ | ⟨rfl, -⟩ <;> rfl

theorem exec_heldRequest (ha : (s.freeTag p tag).admits p tag) (hr : (s.roles p).retrieve = true)
    (hb : (s.freeTag p tag).cursorBusy p c = false) (ho : s.ownsCursor p c = true) :
    exec request (s.freeTag p tag) = .next (s.takeHeldRequest p ⟨tag, standing⟩) := by
  have roles : ((s.freeTag p tag).roles p).retrieve = true := hr
  have owns : (s.freeTag p tag).ownsCursor p c = true := ho
  rw [State.takeHeldRequest]
  rcases h with ⟨count, rfl, rfl⟩ | ⟨rfl, rfl⟩
  · rw [exec_fetchRecords ha, State.nameCursor_taken roles hb owns]
    simp only [roles, owns, Bool.not_true, Bool.false_eq_true, if_false, if_true]
    rfl
  · rw [exec_closeCursor_owned ha roles hb owns]
    simp only [roles, owns, Bool.not_true, Bool.false_eq_true, if_false, if_true]

/-- The request held behind a cursor whose fetch has ended is taken (R156). -/
theorem takeHeld_heldRequest (hm : ⟨tag, standing⟩ ∈ s.ports[p].outstanding)
    (honly : ∀ o ∈ s.ports[p].outstanding, o.standing.cursor = some c → o = ⟨tag, standing⟩)
    (hlen : s.ports[p].outstanding.length ≤ 8) (hp : s.powered = true) (hu : s.ports[p].up = true)
    (hk : s.controller = .ready) (hl : s.resetLow = false) (hr : (s.roles p).retrieve = true)
    (ho : s.ownsCursor p c = true) :
    exec request (s.freeTag p tag) = .next (State.takeHeld p c 8 s) := by
  have port : (s.freeTag p tag).ports[p]
      = { s.ports[p] with outstanding := s.ports[p].outstanding.filter (fun o => o.tag ≠ tag) } := getElem_set_fin ..
  have admits : (s.freeTag p tag).admits p tag := by
    have fewer : (s.ports[p].outstanding.filter (fun o => o.tag ≠ tag)).length < s.ports[p].outstanding.length :=
      List.length_filter_lt_length_iff_exists.mpr ⟨_, hm, by simp⟩
    refine ⟨hp, ?_, ?_, s.tagFree_freeTag p tag, hk, hl⟩
    · rw [port]
      exact hu
    · rw [port]
      exact fewer.trans_le hlen
  have idle : (s.freeTag p tag).cursorBusy p c = false := by
    rw [← Bool.not_eq_true, State.cursorBusy_iff]
    rintro ⟨o, hmem, hc⟩
    obtain ⟨hmem, htag⟩ := State.mem_freeTag hmem
    exact htag rfl (congrArg Outstanding.tag (honly o hmem hc))
  rw [State.takeHeld_one hm (heldRequest_cursor h) (heldRequest_held h) honly, exec_heldRequest h admits hr idle ho]

end

end

end Sys2Proof.Machine
end

section
/-! PROOFS. FETCH RECORDS, the sending of its reply, and the retrieval read. -/

open Sys2Proof Sys2Proof.Machine
namespace Sys2Proof.Machine

/-! ## FETCH RECORDS of an idle cursor -/

section
variable {s : State} {p : PortId} {c : CursorId} {tag : Byte} {u v w : Cursor} {n m limit room : Nat}
  {os : List Outstanding} {rs : List CallRecord} {ds gs : List Delivered} {status : Status}

theorem State.cursorRounding_file {i : Nat} {f : File} (hi : u.fileIndex = some i) (hf : s.file i = some f) :
    s.cursorRounding u = f.rounding := by
  simp only [State.cursorRounding, hi, Option.bind_some, hf]

/-- Gathering looks at no port and at no cursor in the table. -/
theorem State.gather_withFetch : (s.withFetch p c w os).gather room u ds = s.gather room u ds := by
  induction room generalizing u ds with
  | zero => rfl
  | succ room ih =>
    rw [State.gather, State.gather]
    split
    · rfl
    · rfl
    · split
      · exact ih
      · exact ih

theorem State.advanced_fetching (k : Nat) :
    s.advanced (u.fetching tag limit) n rs k = (s.advanced u n rs k).fetching tag limit := by
  by_cases h : k < s.recordsLeft u n
  · rw [show s.advanced u n rs k = _ from if_pos h]
    exact if_pos h
  · rw [show s.advanced u n rs k = _ from if_neg h]
    exact if_neg h

theorem State.advanced_loaded (k : Nat) :
    s.advanced { u with read := none, loaded := some rs } n rs k = { s.advanced u n rs k with read := none } := by
  by_cases h : k < s.recordsLeft u n
  · rw [show s.advanced u n rs k = _ from if_pos h]
    exact if_pos h
  · rw [show s.advanced u n rs k = _ from if_neg h]
    exact if_neg h

theorem State.owner_advanced (k : Nat) : (s.advanced u n rs k).owner = u.owner := by
  rw [State.advanced]
  split <;> rfl

theorem State.isOpen_advanced (k : Nat) : (s.advanced u n rs k).isOpen = u.isOpen := by
  rw [State.advanced]
  split <;> rfl

theorem exec_fetchRecords_serves {count : Wire16} (ha : s.admits p tag) (hr : (s.roles p).retrieve = true)
    (hb : s.cursorBusy p c = false) (ho : s.ownsCursor p c = true) (hu : s.cursors[c] = u) :
    exec (.fetchRecords p tag (BitVec.ofNat 8 c.val) count) s
      = .next ((s.withFetch p c (u.fetching tag (min (wire16 (s.byteOrder p) count) 64))
          (s.ports[p].outstanding ++ [⟨tag, .fetching c⟩])).serveFetch c).1 := by
  rw [exec_fetchRecords ha, State.nameCursor_taken hr hb ho, State.takeFetch_eq _ hu]

/-- What taking a fetch comes to once nothing more can be gathered, by the port's line. -/
theorem State.served_finished (ha : s.admits p tag) (hv : v.owner = some p)
    (hg : s.gather limit (u.fetching tag limit) [] = .finished status (v.fetching tag limit) ds) :
    (s.ports[p].lineBusy = false →
      ((s.withFetch p c (u.fetching tag limit) (s.ports[p].outstanding ++ [⟨tag, .fetching c⟩])).serveFetch c).1
        = ({ s with cursors := s.cursors.set c (s.fetchEnded p v) } : State).reply p tag status
            (.records ds 0 v.nextOrdinal))
      ∧ (s.ports[p].lineBusy = true →
        ((s.withFetch p c (u.fetching tag limit) (s.ports[p].outstanding ++ [⟨tag, .fetching c⟩])).serveFetch c).1
          = s.fetchFormed p c { v with idle := .stopped, fetch := some ⟨tag, limit, ds⟩ }
              (s.ports[p].outstanding ++ [⟨tag, .delivering c⟩]) tag status (.records ds 0 v.nextOrdinal)) := by
  rw [State.serveFetch_finished rfl (State.gather_withFetch.trans hg)]
  refine ⟨fun hl => ?_, fun hl => ?_⟩
  · have table : s.withFetch p c (s.fetchEnded p v) s.ports[p].outstanding
        = { s with cursors := s.cursors.set c (s.fetchEnded p v) } := by
      rw [State.withFetch, set_getElem_fin]
    rw [State.answerFetch_free (standing := .fetching c) (by exact hv) rfl (by simp) hl, State.filter_admitted _ ha,
      ← table]
    rfl
  · rw [State.answerFetch_busy (by exact hv) rfl hl, State.delivering_admitted _ ha]
    rfl

/-- What taking a fetch comes to that must enter a segment: its read is asked for. -/
theorem State.served_enters
    (hg : s.gather limit (u.fetching tag limit) [] = .enter m (v.fetching tag limit) ds) :
    ((s.withFetch p c (u.fetching tag limit) os).serveFetch c).1
      = (s.readQueued p c { v with idle := .stopped, fetch := some ⟨tag, limit, ds⟩ } os m).startStore := by
  rw [State.serveFetch_enters rfl (State.gather_withFetch.trans hg)]
  rfl

/-! ## The reply of a waiting fetch is sent -/

/-- A state in which the replies that waited on a port's line have left, and a cursor's fetch ended with them. -/
def State.fetchSent (s : State) (p : PortId) (c : CursorId) (left : List Outstanding) : State :=
  { s with
    replies := s.replies ++ s.ports[p].unsent
    ports := s.ports.set p { s.ports[p] with outstanding := left, unsent := [] }
    cursors := s.cursors.set c (s.fetchEnded p s.cursors[c]) }

theorem State.freeTag_fetchSent {left : List Outstanding} :
    (s.fetchSent p c left).freeTag p tag = s.fetchSent p c (left.filter (fun o => o.tag ≠ tag)) := by
  simp only [State.freeTag, State.setPort, State.fetchSent, getElem_set_fin, set_set_fin]

theorem State.ports_fetchSent {left : List Outstanding} :
    (s.fetchSent p c left).ports[p] = { s.ports[p] with outstanding := left, unsent := [] } := getElem_set_fin ..

theorem step_sendsFetch {before behind : List Outstanding} (hq : s.pending = []) (hp : s.powered = true)
    (hu : s.ports[p].unsent ≠ []) (hl : ∀ o : PortId, o < p → s.ports[o].unsent = [])
    (ho : s.ports[p].outstanding = before ++ ⟨tag, .delivering c⟩ :: behind)
    (hd : ∀ o ∈ before ++ behind, ∀ d, o.standing ≠ .delivering d) :
    step s = .next (State.takeHeld p c 8
      (s.fetchSent p c ((before ++ behind).filter (fun o => o.standing ≠ .answered)))) := by
  have lowest : (List.finRange 4).find? (fun p => s.ports[p].unsent ≠ []) = some p :=
    find?_finRange_eq_some (by simpa using hu) fun q hq => by simpa using hl q hq
  have others (os : List Outstanding) (h : ∀ o ∈ os, ∀ d, o.standing ≠ .delivering d) :
      os.filterMap (fun o => o.standing.delivers) = []
        ∧ os.filter (fun o => !o.standing.formed) = os.filter (fun o => o.standing ≠ .answered) := by
    refine ⟨List.filterMap_eq_nil_iff.mpr fun o hm => ?_, List.filter_congr fun o hm => ?_⟩
    all_goals
      cases hs : o.standing with
      | delivering d => exact absurd hs (h o hm d)
      | _ => rfl
  rw [List.forall_mem_append] at hd
  have ends : s.ports[p].outstanding.filterMap (fun o => o.standing.delivers) = [c] := by
    rw [ho, List.filterMap_append, List.filterMap_cons, (others _ hd.1).1, (others _ hd.2).1]
    rfl
  have stay : s.ports[p].outstanding.filter (fun o => !o.standing.formed)
      = (before ++ behind).filter (fun o => o.standing ≠ .answered) := by
    rw [ho, List.filter_append, List.filter_append, (others _ hd.1).2, ← (others _ hd.2).2]
    rfl
  have idle : step s = .next (s.sendWaiting p) := by
    simp only [step, hq, State.idle, hp, Bool.not_true, Bool.false_eq_true, if_false, lowest]
  rw [idle, State.sendWaiting, ends, List.foldl_cons, List.foldl_nil, State.emptyLine, stay]
  rfl

/-! ## A retrieval read ends -/

variable {report : ReadReport} {skipped : Nat}

theorem exec_retrievalReadComplete {live : Bool} (hp : s.powered = true)
    (hc : s.storePort.current = some (.read c n live)) (hn : n ≤ 262143) :
    exec (.retrievalReadComplete report) s = .next (s.endRetrievalRead c live report) := by
  have hx : extentExists n = true := decide_eq_true (Nat.lt_succ_of_le hn)
  rw [show exec (.retrievalReadComplete report) s = execRetrievalReadComplete report s from rfl,
    execRetrievalReadComplete, hc]
  simp only [hp, hx, Bool.not_true, Bool.false_eq_true, if_false, if_true]

theorem State.verify_clean {altered : List (Nat × Byte)}
    (hc : dualSumOf (s.deliveredBytes n altered 64 (s.segment n).figures.encodedLength) = (s.segment n).figures.check)
    (hd : decodePayload (s.segment n).figures (s.deliveredBytes n altered 64 (s.segment n).figures.encodedLength)
      = some rs) : s.verify n (.complete altered) = .clean rs := by
  have offset : Config.headerBytes = 64 := rfl
  simp only [State.verify, offset, hc, hd, ne_eq, not_true, if_false]

/-- The damage a retrieval read finds (R138): a read error, a wrong check, or a payload that does not decode. -/
theorem State.verify_damage {kind : FindingKind} {values : Option (Nat × Nat)}
    (h : (report = .error ∧ kind = .readError ∧ values = none)
      ∨ ∃ altered, report = .complete altered
        ∧ ((dualSumOf (s.deliveredBytes n altered 64 (s.segment n).figures.encodedLength) ≠ (s.segment n).figures.check
            ∧ kind = .checkMismatch
            ∧ values = some ((s.segment n).figures.check,
                dualSumOf (s.deliveredBytes n altered 64 (s.segment n).figures.encodedLength)))
          ∨ (dualSumOf (s.deliveredBytes n altered 64 (s.segment n).figures.encodedLength) = (s.segment n).figures.check
            ∧ decodePayload (s.segment n).figures
                (s.deliveredBytes n altered 64 (s.segment n).figures.encodedLength) = none
            ∧ kind = .malformed ∧ values = none))) : s.verify n report = .damage kind values := by
  have offset : Config.headerBytes = 64 := rfl
  rcases h with ⟨rfl, rfl, rfl⟩ | ⟨altered, rfl, ⟨hc, rfl, rfl⟩ | ⟨hc, hd, rfl, rfl⟩⟩
  · rfl
  · exact if_pos hc
  · simp only [State.verify, offset, hc, hd, ne_eq, not_true, if_false]

variable {read : CursorRead} {i : Nat}

theorem State.retrievalRead_clean (hu : s.withFetch p c u os = s) (hr : u.read = some read) (hi : u.fileIndex = some i)
    (hv : s.verify read.segment report = .clean rs) :
    s.retrievalRead c report
      = (s.withFetch p c { u with read := none, loaded := some rs } os).serveFetch c := by
  have cursor : s.cursors[c] = u := by
    rw [← hu]
    exact State.cursors_withFetch
  rw [← State.setCursor_withFetch (w := u), hu, State.retrievalRead]
  simp only [cursor, hr, hi, hv]

/-- The state damage leaves has the cursor and the outstanding requests of the state before, and the segment's link. -/
theorem State.retrievalRead_damage {base : State} {kind : FindingKind} {values : Option (Nat × Nat)}
    (hu : s.cursors[c] = u) (hr : u.read = some read) (hn : read.segment = n) (hs : u.segment = some n)
    (hi : u.fileIndex = some i) (hv : s.verify n report = .damage kind values)
    (hb : s.takeDamage n read.allocation i kind values = base) (hw : base.withFetch p c u os = base)
    (hx : (base.segment n).next = (s.segment n).next) :
    s.retrievalRead c report
      = ((base.withFetch p c { s.behindSegment u n with read := none } os).answerFetch c .segmentDamaged
          (s.recordsLeft u n), true) := by
  subst hn
  rw [← State.setCursor_withFetch (w := u), hw, State.retrievalRead]
  simp only [hu, hr, hi, hv, hb, State.nextSegment, hs, hx]
  rw [← hi]
  rfl

theorem State.freeTag_reply {tag' : Byte} {body : ReplyBody} (h : s.ports[p].lineBusy = false) :
    (s.reply p tag status body).freeTag p tag' = (s.freeTag p tag').reply p tag status body := by
  have line : (s.freeTag p tag').ports[p].lineBusy = false := by
    rw [State.freeTag, State.setPort_ports, getElem_set_fin]
    exact h
  rw [State.reply, State.reply, State.form_free _ _ _ _ h, State.form_free _ _ _ _ line]
  rfl

/-- The reply of a fetch formed at the end of its read, by the port's line and by what is held behind the fetch. -/
theorem State.takeHeld_answerFetch (hw : w.owner = some p) (ho : w.isOpen = true)
    (hf : w.fetch = some ⟨tag, limit, ds⟩) (hm : ⟨tag, .fetching c⟩ ∈ os) :
    (s.ports[p].lineBusy = true →
      State.takeHeld p c 8 ((s.withFetch p c w os).answerFetch c status skipped)
        = s.fetchFormed p c w (delivering tag c os) tag status (.records ds skipped w.nextOrdinal))
      ∧ (s.ports[p].lineBusy = false → (∀ o ∈ os, o.standing.cursor = some c → o.tag = tag) →
        State.takeHeld p c 8 ((s.withFetch p c w os).answerFetch c status skipped)
          = (s.withFetch p c (s.fetchEnded p w) (os.filter (fun o => o.tag ≠ tag))).reply p tag status
              (.records ds skipped w.nextOrdinal))
      ∧ ∀ (tag' : Byte) (standing : Standing) (request : Instr),
        s.ports[p].lineBusy = false → ⟨tag', standing⟩ ∈ os → tag' ≠ tag → os.length ≤ 8 →
        (∀ o ∈ os, o.standing.cursor = some c → o.tag = tag ∨ o = ⟨tag', standing⟩) →
        heldRequest (s.byteOrder p) p tag' c standing request → (s.roles p).retrieve = true → s.powered = true →
        s.ports[p].up = true → s.controller = .ready → s.resetLow = false →
        exec request ((s.withFetch p c (s.fetchEnded p w) (os.filter (fun o => o.tag ≠ tag ∧ o.tag ≠ tag'))).reply
            p tag status (.records ds skipped w.nextOrdinal))
          = .next (State.takeHeld p c 8 ((s.withFetch p c w os).answerFetch c status skipped)) := by
  refine ⟨fun hl => ?_, fun hl halone => ?_, fun tag' standing request hl hm' hne hlen honly hreq hr hp hu hk hrl => ?_⟩
  · rw [State.answerFetch_busy hw hf hl]
    refine State.takeHeld_taken 8 (List.any_eq_true.mpr ⟨⟨tag, .delivering c⟩, ?_, ?_⟩)
    · rw [State.fetchFormed, getElem_set_fin]
      exact List.mem_map.mpr ⟨_, hm, if_pos rfl⟩
    · simp [Standing.cursor, Standing.held]
  · rw [State.answerFetch_free hw hf hm hl]
    refine State.takeHeld_noneHeld 8 (State.noneHeld_reply _ _ (State.noneHeld_withFetch fun o ho hc => ?_))
    obtain ⟨ho, hne⟩ := List.mem_filter.mp ho
    exact absurd (halone o ho hc) (by simpa using hne)
  · obtain ⟨y, hy⟩ : ∃ y, s.withFetch p c (s.fetchEnded p w) (os.filter (fun o => o.tag ≠ tag)) = y := ⟨_, rfl⟩
    have port : y.ports[p] = { s.ports[p] with outstanding := os.filter (fun o => o.tag ≠ tag) } := by
      rw [← hy, State.ports_withFetch]
    have cursor : y.cursors[c] = s.fetchEnded p w := by rw [← hy, State.cursors_withFetch]
    have line : y.ports[p].lineBusy = false := by rw [port]; exact hl
    have freed : s.withFetch p c (s.fetchEnded p w) (os.filter (fun o => o.tag ≠ tag ∧ o.tag ≠ tag'))
        = y.freeTag p tag' := by
      rw [← hy, State.freeTag_withFetch, List.filter_filter]
      exact congrArg _ (List.filter_congr fun o _ => by simp [Bool.and_comm])
    rw [State.answerFetch_free hw hf hm hl, hy, freed, ← State.freeTag_reply line]
    have sent := State.form_free tag status (.records ds skipped w.nextOrdinal) [⟨tag, .answered⟩] line
    rw [State.reply, sent]
    have mine : ⟨tag', standing⟩ ∈ os.filter (fun o => o.tag ≠ tag) := List.mem_filter.mpr ⟨hm', by simpa using hne⟩
    subst hy
    refine takeHeld_heldRequest (by exact hreq) (by rw [port]; exact mine) (fun o ho hc => ?_) ?_ hp
      (by rw [port]; exact hu) hk hrl hr (State.ownsCursor_iff.mpr ?_)
    · rw [port] at ho
      obtain ⟨ho, hne⟩ := List.mem_filter.mp ho
      exact (honly o ho hc).resolve_left (by simpa using hne)
    · rw [port]
      exact (List.length_filter_le ..).trans hlen
    · rw [cursor]
      exact ⟨ho, hw⟩

end

end Sys2Proof.Machine
end

section
/-! PROOFS. The damage a retrieval read finds: O54. -/

open Sys2Proof Sys2Proof.Machine
namespace Sys2Proof.Machine

section
variable {s : State} {p : PortId} {c : CursorId} {tag : Byte} {u w : Cursor} {n i m limit : Nat} {f : File}
  {os : List Outstanding} {rs : List CallRecord} {ds gs : List Delivered} {status : Status}
  {kind : FindingKind} {values : Option (Nat × Nat)} {report : ReadReport}

/-- A STORED segment found damaged by a retrieval read, with its reports (R139). -/
def State.damagedByRead (s : State) (n i : Nat) (f : File) (kind : FindingKind) (values : Option (Nat × Nat)) : State :=
  { s with
    segments := Sparse.set {} n
      { s.segment n with
        state := .suspect
        unreported := decide (s.findingPlaces = 0 ∨ (f.suspectCount = 0 ∧ 128 ≤ s.trail.entries.length)) }
      s.segments
    files := Sparse.set none i (some { f with suspectCount := f.suspectCount + 1 }) s.files
    findings :=
      if 0 < s.findingPlaces then
        s.findings ++ [{ kind, source := .retrieval, segment := n, fileIndex := i, switchId := f.switchId,
                         sequence := f.sequence, clock := s.stamp, values }]
      else s.findings
    trail :=
      if f.suspectCount = 0 ∧ s.trail.entries.length < 128 then
        s.trail.append s.stamp .quarantineSet none (.file f.switchId f.sequence i {}) f.recordCount
      else s.trail }

/-- A state that differs in the catalogue, the File Table, the Finding Log and the Audit Trail alone. -/
def State.marked (s base : State) : Prop :=
  ∃ segments files findings trail, base = { s with segments, files, findings, trail }

theorem State.marked.refl (s : State) : s.marked s := ⟨s.segments, s.files, s.findings, s.trail, rfl⟩

theorem State.marked_damagedByRead : s.marked (s.damagedByRead n i f kind values) := ⟨_, _, _, _, rfl⟩

theorem State.takeDamage_stored {a : Nat} (hs : (s.segment n).state = .stored) (ha : a = (s.segment n).allocation)
    (hi : (s.segment n).fileIndex = i) (hf : s.file i = some f) :
    s.takeDamage n a i kind values = s.damagedByRead n i f kind values := by
  rw [State.takeDamage, if_pos hs, State.findingFor_file _ _ _ hf, State.reportDamage_file (by exact hf)]
  simp only
  rw [State.markSuspect_stored (f := f) _ (by exact hs) (by exact ha.symm) (by exact hi) (by exact hf)]
  rfl

theorem State.takeDamage_suspect {a : Nat} (hs : (s.segment n).state = .suspect) :
    s.takeDamage n a i kind values = s := by
  rw [State.takeDamage, if_neg (by rw [hs]; decide)]

theorem State.next_damagedByRead : ((s.damagedByRead n i f kind values).segment n).next = (s.segment n).next := by
  rw [State.segment, State.damagedByRead, Sparse.get_set, if_pos rfl]

theorem State.readQueued_self (ho : s.ports[p].outstanding = os) :
    s.readQueued p c w os m
      = { s with
          cursors := s.cursors.set c { w with read := some (s.readAsked m false) }
          storePort := { s.storePort with reads := s.storePort.reads ++ [(c, m)] } } := by
  subst ho
  rw [State.readQueued, State.withFetch, set_getElem_fin]

/-- A read whose fetch's reply is formed: what is held behind the fetch is taken, then the next store operation
starts. -/
theorem State.endRetrievalRead_formed {t : State} (ho : s.cursors[c].owner = some p)
    (h : s.retrievalRead c report = (t, true)) :
    s.endRetrievalRead c true report = (State.takeHeld p c 8 t).endStore := by
  rw [State.endRetrievalRead, if_pos rfl, h]
  simp only [ho]

theorem State.endRetrievalRead_enters {t : State} (h : s.retrievalRead c report = (t, false)) :
    s.endRetrievalRead c true report = t.endStore := by
  rw [State.endRetrievalRead, if_pos rfl, h]

end

end Sys2Proof.Machine

/-- Settles O54: gathering from a loaded segment, the reply of a fetch by the port's line, and the request held behind
the fetch; a retrieval read adds its segment or its damage before them. -/
theorem fetchDeliversRecords : Obligations.FetchDeliversRecords := by
  unfold Obligations.FetchDeliversRecords
  refine ⟨?_, fun s c n report hp hc hn => exec_retrievalReadComplete hp hc hn⟩
  intro s p tag c count u n i f hu hopen howner hi hf g countdown rem after delivered ending entering
  have owns : s.ownsCursor p c = true := State.ownsCursor_iff.mpr (by rw [hu]; exact ⟨hopen, howner⟩)
  have delivered_eq (rs : List CallRecord) (k : Nat) : s.deliveredFrom u n rs k = delivered rs k := by
    rw [State.deliveredFrom, State.cursorRounding_file hi hf]
    rfl
  refine ⟨?_, ?_, ?_⟩
  · intro ha hr hb fetch limit starts storeIdle asks ends
    have serves := exec_fetchRecords_serves (count := count) ha hr hb owns hu
    have finishes {v : Cursor} {ds : List Delivered} (hv : v.owner = some p)
        (hg : s.gather limit (u.fetching tag limit) [] = .finished (ending v) (v.fetching tag limit) ds) :
            ends v ds := by
      obtain ⟨free, busy⟩ := State.served_finished ha hv hg
      exact ⟨fun hl => serves.trans (congrArg _ (free hl)), fun hl => serves.trans (congrArg _ (busy hl))⟩
    have enters {v : Cursor} {ds : List Delivered} {m : Nat}
        (hg : s.gather limit (u.fetching tag limit) [] = .enter m (v.fetching tag limit) ds) :
        (s.storePort.current.isSome = true → exec fetch s = .next (asks v ds m))
          ∧ (storeIdle → exec fetch s = .next (starts v ds m)) := by
      have served := serves.trans (congrArg _ (State.served_enters hg))
      refine ⟨fun hc => served.trans (congrArg _ (State.startStore_busy (by exact hc))), fun hidle => ?_⟩
      exact served.trans (congrArg _ (State.startStore_readQueued hidle))
    refine ⟨fun h => ?_, fun h1 hs hl => ?_, fun h1 hs hl => ?_,
      fun rs hs hl hn hw => ⟨fun h => ?_, fun m hlt hm => ?_⟩⟩
    · refine finishes howner ?_
      rcases h with h0 | hs
      · rw [h0]
        exact State.gather_zero ..
      · rw [State.gather_atEnd (by exact hs), show ending u = .atEnd from if_pos hs]
    · exact (enters (State.gather_enters (by exact hs) (by exact hl) h1)).1
    · exact (enters (State.gather_enters (by exact hs) (by exact hl) h1)).2
    · refine finishes ((State.owner_advanced limit).trans howner) ?_
      rw [State.gather_finishes (u := u.fetching tag limit) hs hl hn hw h, State.advanced_fetching, ← delivered_eq]
      rfl
    · refine enters ?_
      rw [State.gather_next (u := u.fetching tag limit) hs hl hn hw hlt hm, State.advanced_fetching, ← delivered_eq]
      rfl
  · intro before behind hq hp hunsent hlow hos hd left sent
    have sends := step_sendsFetch hq hp hunsent hlow hos hd
    have sent_eq (l : List Outstanding) : s.fetchSent p c l = sent l := by
      rw [State.fetchSent, hu]
      rfl
    refine ⟨fun h => ?_, ?_⟩
    · rw [sends, State.takeHeld_noneHeld 8 fun o ho hc => ?_, sent_eq]
      rw [State.ports_fetchSent] at ho
      exact absurd hc (h o ho)
    · intro tag' count' standing request hm hlen honly hreq hr hup hk hl
      refine ⟨_, ?_, sends⟩
      rw [← sent_eq, ← State.freeTag_fetchSent]
      have port := s.ports_fetchSent (p := p) (c := c) (left := left)
      have held : heldRequest (s.byteOrder p) p tag' c standing request := hreq.imp_left fun h => ⟨count', h⟩
      refine takeHeld_heldRequest held (by rw [port]; exact hm) (by rw [port]; exact honly)
        (by rw [port]; exact hlen) hp (by rw [port]; exact hup) hk hl hr (State.ownsCursor_iff.mpr ?_)
      rw [State.fetchSent, getElem_set_fin, hu]
      exact ⟨hopen, howner⟩
  · intro report limit gs read os hos hm hlen hp hcur hn hs hread hrn hfetch answered ends payload
    have self : s.withFetch p c u os = s := State.withFetch_self hu hos
    have cursor_owner : s.cursors[c].owner = some p := by rw [hu]; exact howner
    have reported := exec_retrievalReadComplete (report := report) hp hcur hn
    have formed {base : State} {v : Cursor} {status : Status} {records : List Delivered} {skipped : Nat}
        (hb : s.marked base) (hv : v.owner = some p) (hvo : v.isOpen = true)
        (hx : s.retrievalRead c report
          = ((base.withFetch p c { v with fetch := some ⟨tag, limit, records⟩, read := none } os).answerFetch c status
              skipped, true)) : ends base v status records skipped := by
      have ended := reported.trans (congrArg _ (State.endRetrievalRead_formed cursor_owner hx))
      obtain ⟨segments, files, findings, trail, rfl⟩ := hb
      obtain ⟨busy, free, held⟩ := State.takeHeld_answerFetch (s := { s with segments, files, findings, trail })
        (w := { v with fetch := some ⟨tag, limit, records⟩, read := none }) (status := status) (skipped := skipped)
        hv hvo rfl hm
      refine ⟨fun hl => ?_, fun hl halone => ?_, ?_⟩
      · rw [ended, busy hl]
        rfl
      · rw [ended, free hl halone]
        rfl
      · intro tag' count' standing request hl hm' hne honly hreq hr hup hk hrl
        have hold : heldRequest (s.byteOrder p) p tag' c standing request := hreq.imp_left fun h => ⟨count', h⟩
        exact ⟨_, held tag' standing request hl hm' hne hlen honly hold hr hp hup hk hrl, ended⟩
    refine ⟨fun altered rs hrep hsum hdec hlenrs hw => ?_, fun kind values hdam => ?_⟩
    · subst hrep hrn
      have clean := State.retrievalRead_clean self hread hi (State.verify_clean hsum hdec)
      refine ⟨fun h => ?_, fun m hlt hm => ?_⟩
      · refine formed (.refl s) ((State.owner_advanced _).trans howner) ((State.isOpen_advanced _).trans hopen) ?_
        have gathers := State.gather_finishes (s := s) (ds := gs) (u := { u with read := none, loaded := some rs }) hs
          rfl hlenrs hw h
        rw [State.advanced_loaded] at gathers
        rw [clean, State.serveFetch_finished (w := { u with read := none, loaded := some rs }) hfetch
          (State.gather_withFetch.trans gathers), ← delivered_eq]
        rfl
      · have gathers := State.gather_next (s := s) (ds := gs) (u := { u with read := none, loaded := some rs }) hs rfl
          hlenrs hw hlt hm
        rw [State.advanced_loaded] at gathers
        rw [reported, State.endRetrievalRead_enters
          (clean.trans (State.serveFetch_enters hfetch (State.gather_withFetch.trans gathers))),
          State.startStore_busy (by exact Option.isSome_of_eq_some hcur), State.readQueued_self hos, ← delivered_eq]
        rfl
    · intro behind
      have found := State.verify_damage hdam
      have behind_eq : { s.behindSegment u n with read := none }
          = { behind with fetch := some ⟨tag, limit, gs⟩, read := none } := by
        rw [← hfetch]
        rfl
      have damaged {base : State} (hb : s.marked base)
          (ht : s.takeDamage n read.allocation i kind values = base)
          (hx : (base.segment n).next = (s.segment n).next) : ends base behind .segmentDamaged gs rem := by
        refine formed hb howner hopen ?_
        rw [← behind_eq]
        refine State.retrievalRead_damage hu hread hrn hs hi found ht ?_ hx
        obtain ⟨segments, files, findings, trail, rfl⟩ := hb
        exact State.withFetch_self (by exact hu) (by exact hos)
      refine ⟨fun hstate => damaged (.refl s) (State.takeDamage_suspect hstate) rfl, fun hstate ha hfi => ?_⟩
      exact damaged s.marked_damagedByRead (State.takeDamage_stored hstate ha hfi hf) State.next_damagedByRead
end

section
/-! PROOFS. What every operation keeps of the sizes of queues, logs and tables. -/

open Sys2Proof Sys2Proof.Machine
namespace Sys2Proof.Machine

/-! ## What is bounded -/

/-- How many entries of a staging list are records. -/
def recordsIn (es : List StagingEntry) : Nat :=
  (es.filter (fun e => match e with | .record _ _ => true | _ => false)).length

/-- The Completion Queue is within its size (R41). -/
def State.queueFits (s : State) : Prop := s.completions.length ≤ 64 ∧ ∀ p, (s.completionsOf p).length ≤ 32

/-- The findings and the reserved places are within the log, and a visit in flight holds its three (R110, R123). -/
def State.findingsFit (s : State) : Prop :=
  s.findings.length + s.sweep.reserved ≤ 32 ∧ (s.sweep.visit.isSome = true → s.sweep.reserved = 3)

/-- From `s` to `t` the trail and every queue and log stays within its size. -/
structure Logged (s t : State) : Prop where
  trail : s.trail.entries.length ≤ 128 → t.trail.entries.length ≤ 128
  queue : s.queueFits → t.queueFits
  findings : s.findingsFit → t.findingsFit
  staging : recordsIn s.staging ≤ 256 → recordsIn t.staging ≤ 256

/-- Besides, no port has more requests outstanding. -/
structure Sized (s t : State) : Prop extends Logged s t where
  requests : ∀ p : PortId, t.ports[p].outstanding.length ≤ s.ports[p].outstanding.length

/-- Besides, one port may have one request more outstanding. -/
structure Admitted (p : PortId) (s t : State) : Prop extends Logged s t where
  requests : ∀ r : PortId,
    t.ports[r].outstanding.length ≤ s.ports[r].outstanding.length + if r = p then 1 else 0

theorem State.withinBounds_iff (s : State) : s.withinBounds ↔
    s.trail.entries.length ≤ 128 ∧ s.queueFits ∧ s.findingsFit ∧ recordsIn s.staging ≤ 256
      ∧ ∀ p : PortId, s.ports[p].outstanding.length ≤ 8 := by
  simp only [State.withinBounds, State.queueFits, State.findingsFit, and_assoc]
  exact Iff.rfl

theorem Logged.refl (s : State) : Logged s s := ⟨id, id, id, id⟩

theorem Logged.trans {s t u : State} (h : Logged s t) (k : Logged t u) : Logged s u :=
  ⟨k.trail ∘ h.trail, k.queue ∘ h.queue, k.findings ∘ h.findings, k.staging ∘ h.staging⟩

theorem Sized.refl (s : State) : Sized s s := ⟨.refl s, fun _ => Nat.le_refl _⟩

theorem Sized.trans {s t u : State} (h : Sized s t) (k : Sized t u) : Sized s u :=
  ⟨h.toLogged.trans k.toLogged, fun p => (k.requests p).trans (h.requests p)⟩

theorem Sized.admitted {s t u : State} {p : PortId} (h : Sized s t) (k : Admitted p t u) : Admitted p s u :=
  ⟨h.toLogged.trans k.toLogged, fun r => (k.requests r).trans (Nat.add_le_add_right (h.requests r) _)⟩

theorem Admitted.sized {s t u : State} {p : PortId} (h : Admitted p s t) (k : Sized t u) : Admitted p s u :=
  ⟨h.toLogged.trans k.toLogged, fun r => (k.requests r).trans (h.requests r)⟩

theorem Logged.within {s t : State} (k : Logged s t) (requests : ∀ p : PortId, t.ports[p].outstanding.length ≤ 8)
    (h : s.withinBounds) : t.withinBounds := by
  obtain ⟨h1, h2, h3, h4, -⟩ := s.withinBounds_iff.mp h
  exact t.withinBounds_iff.mpr ⟨k.trail h1, k.queue h2, k.findings h3, k.staging h4, requests⟩

theorem Sized.within {s t : State} (k : Sized s t) (h : s.withinBounds) : t.withinBounds :=
  k.toLogged.within (fun p => (k.requests p).trans ((s.withinBounds_iff.mp h).2.2.2.2 p)) h

/-- A port with a free entry in its table may take one request more (R154). -/
theorem Admitted.within {s t : State} {p : PortId} (k : Admitted p s t) (hp : s.ports[p].outstanding.length < 8)
    (h : s.withinBounds) : t.withinBounds := by
  refine k.toLogged.within (fun r => (k.requests r).trans ?_) h
  split
  · next hr => rw [hr]; exact hp
  · exact (s.withinBounds_iff.mp h).2.2.2.2 r

/-- All that the sizes look at. -/
def State.logs (s : State) :=
  (s.trail.entries, s.completions, s.findings, s.sweep.reserved, s.sweep.visit.isSome, s.staging,
    fun p : PortId => s.ports[p].outstanding)

/-- An operation that touches none of the queues, logs and tables. -/
theorem Sized.same {s t : State} (h : t.logs = s.logs) : Sized s t := by
  simp only [State.logs, Prod.mk.injEq, funext_iff] at h
  obtain ⟨trail, queue, findings, reserved, visit, staging, requests⟩ := h
  refine ⟨⟨by rw [trail]; exact id, ?_, ?_, by rw [staging]; exact id⟩, fun p => by rw [requests]⟩
  · unfold State.queueFits State.completionsOf
    rw [queue]
    exact id
  · unfold State.findingsFit
    rw [findings, reserved, visit]
    exact id

theorem Sized.foldl {α : Type} {f : State → α → State} (h : ∀ s a, Sized s (f s a)) (l : List α) (s : State) :
    Sized s (l.foldl f s) := by
  induction l generalizing s with
  | nil => exact .refl s
  | cons a l ih => exact (h s a).trans (ih _)

/-- An internal request that changes nothing when it is answered STALE. -/
theorem Sized.getD {s : State} {o : Option State} (h : ∀ t, o = some t → Sized s t) : Sized s (o.getD s) := by
  cases o with
  | none => exact .refl s
  | some t => exact h t rfl

/-! ## One queue, log or table rewritten -/

section
variable {s : State}

theorem Sized.ofTrail {t : Trail} (h : s.trail.entries.length ≤ 128 → t.entries.length ≤ 128) :
    Sized s { s with trail := t } := { Sized.refl s with trail := h }

theorem Sized.ofStaging {es : List StagingEntry} (h : recordsIn s.staging ≤ 256 → recordsIn es ≤ 256) :
    Sized s { s with staging := es } := { Sized.refl s with staging := h }

theorem Sized.ofQueue {es : List Completion} (h : s.queueFits → ({ s with completions := es } : State).queueFits) :
    Sized s { s with completions := es } := { Sized.refl s with queue := h }

theorem Sized.ofFindings {fs : List Finding} (h : s.findingsFit → ({ s with findings := fs } : State).findingsFit) :
    Sized s { s with findings := fs } := { Sized.refl s with findings := h }

theorem Sized.ofSweep {w : Sweep} (h : s.findingsFit → ({ s with sweep := w } : State).findingsFit) :
    Sized s { s with sweep := w } := { Sized.refl s with findings := h }

theorem Sized.ofPort {p : PortId} {q : PortState} (h : q.outstanding.length ≤ s.ports[p].outstanding.length) :
    Sized s (s.setPort p q) :=
  { Sized.refl s with
    requests := fun r => by
      rw [State.outstanding_setPort]
      split
      · next hr => rw [hr]; exact h
      · exact Nat.le_refl _ }

theorem recordsIn_append (es fs : List StagingEntry) : recordsIn (es ++ fs) = recordsIn es + recordsIn fs := by
  simp [recordsIn]

theorem recordsIn_tail (es : List StagingEntry) : recordsIn es.tail ≤ recordsIn es :=
  ((List.tail_sublist es).filter _).length_le

/-- A queue that only loses entries stays within its size. -/
theorem State.queueFits_sublist {es : List Completion} (h : es.Sublist s.completions) (hs : s.queueFits) :
    ({ s with completions := es } : State).queueFits :=
  ⟨h.length_le.trans hs.1, fun p => ((h.filter _).length_le).trans (hs.2 p)⟩

/-- With room for an entry of its port an entry may join the queue (R41). -/
theorem State.queueFits_append {e : Completion} (hr : s.completionRoom e.port = true) (hs : s.queueFits) :
    ({ s with completions := s.completions ++ [e] } : State).queueFits := by
  obtain ⟨h1, h2⟩ := (s.completionRoom_iff e.port).mp hr
  refine ⟨by simpa using h1, fun p => ?_⟩
  have he : ({ s with completions := s.completions ++ [e] } : State).completionsOf p
      = s.completionsOf p ++ [e].filter (fun e => e.port = p) := List.filter_append ..
  by_cases hp : e.port = p
  · subst hp
    rw [he]
    simpa using h2
  · rw [he]
    simpa [hp] using hs.2 p

/-- With trail room an entry may join the trail (R128). -/
theorem Sized.append (h : s.trailRoom = true) (clock : Nat) (kind : TrailKind) (port : Option PortId)
    (subject : Subject) (value : Nat) :
    Sized s { s with trail := s.trail.append clock kind port subject value } :=
  .ofTrail fun _ => by
    have : s.trail.entries.length < 128 := by simpa [State.trailRoom] using h
    simp only [Trail.append, List.length_append, List.length_singleton]
    omega

theorem State.record_sized (h : s.trailRoom = true) (kind : TrailKind) (port : Option PortId)
    (subject : Subject) (value : Nat) : Sized s (s.record kind port subject value) := .append h ..

end

/-! ## The catalogue -/

/-- Nothing but the catalogue's own tables differs. -/
def Catalogued (s t : State) : Prop :=
  ∃ files segments freeList switches, t = { s with files, segments, freeList, switches }

theorem Catalogued.refl (s : State) : Catalogued s s := ⟨_, _, _, _, rfl⟩

theorem Catalogued.trans {s t u : State} (h : Catalogued s t) (k : Catalogued t u) : Catalogued s u := by
  obtain ⟨_, _, _, _, rfl⟩ := h
  obtain ⟨_, _, _, _, rfl⟩ := k
  exact ⟨_, _, _, _, rfl⟩

theorem Catalogued.sized {s t : State} (h : Catalogued s t) : Sized s t := by
  obtain ⟨_, _, _, _, rfl⟩ := h
  exact .same (by rfl)

theorem Catalogued.getD {s : State} {o : Option State} (h : ∀ t, o = some t → Catalogued s t) :
    Catalogued s (o.getD s) := by
  cases o with
  | none => exact .refl s
  | some t => exact h t rfl

theorem Catalogued.foldl {α : Type} {f : State → α → State} (h : ∀ s a, Catalogued s (f s a)) (l : List α) (s : State) :
    Catalogued s (l.foldl f s) := by
  induction l generalizing s with
  | nil => exact .refl s
  | cons a l ih => exact (h s a).trans (ih _)

section
variable {s t : State} {i n : Nat}

theorem State.setFile_catalogued (s : State) (i : Nat) (f : File) : Catalogued s (s.setFile i f) := ⟨_, _, _, _, rfl⟩

theorem State.setSegment_catalogued (s : State) (n : Nat) (e : Segment) : Catalogued s (s.setSegment n e) :=
  ⟨_, _, _, _, rfl⟩

theorem State.acceptFile_catalogued {r d k : Nat} {reasons : DisputeReasons} {tr : Option Trailer}
    (h : s.acceptFile i n r d reasons tr k = some t) : Catalogued s t := by
  unfold State.acceptFile at h
  split at h
  · split at h
    · cases h
      exact ⟨_, _, _, _, rfl⟩
    · cases h
  · cases h

theorem State.freeSegments_catalogued (s : State) (ns : List Nat) : Catalogued s (s.freeSegments ns) :=
  Catalogued.foldl (fun _ _ => ⟨_, _, _, _, rfl⟩) ns s

theorem State.releaseFile_catalogued (s : State) (i : Nat) (f : File) : Catalogued s (s.releaseFile i f) :=
  (s.freeSegments_catalogued (s.chain f)).trans ⟨_, _, _, _, rfl⟩

theorem State.removeFile_catalogued (h : s.removeFile i = some t) : Catalogued s t := by
  rcases s.removeFile_cases i with ⟨f, -, -, he⟩ | he <;> rw [he] at h <;> cases h
  exact s.releaseFile_catalogued i f

theorem State.reclaimFile_catalogued (h : s.reclaimFile i = some t) : Catalogued s t := by
  rcases s.reclaimFile_cases i with ⟨f, -, -, -, he⟩ | he <;> rw [he] at h <;> cases h
  exact s.releaseFile_catalogued i f

theorem State.allocate_catalogued {g : Filling} (h : s.allocate i = .done g t) : Catalogued s t := by
  rcases s.allocate_cases i with he | he | he | ⟨f, n, rest, -, -, -, -, he⟩ <;> rw [he] at h <;> cases h
  unfold State.allocated State.linkLast
  cases f.lastSegment <;> exact ⟨_, _, _, _, rfl⟩

theorem State.countSuspect_catalogued (s : State) (i : Nat) (change : Nat → Nat) :
    Catalogued s (s.countSuspect i change) := by
  unfold State.countSuspect
  split
  · exact s.setFile_catalogued i _
  · exact .refl s

theorem State.finishStored_catalogued {g : Figures} (h : s.finishStored n g = some t) : Catalogued s t := by
  rcases s.finishStored_cases n g with ⟨-, he⟩ | he <;> rw [he] at h <;> cases h
  exact s.setSegment_catalogued n _

theorem State.finishFailed_catalogued {g : Figures} {b : Bool} (h : s.finishFailed n g b = some t) :
    Catalogued s t := by
  unfold State.finishFailed at h
  simp only at h
  split at h
  · cases h
    exact (s.setSegment_catalogued n _).trans (State.countSuspect_catalogued _ _ _)
  · cases h

theorem State.markSuspect_catalogued {a : Nat} {b : Bool} (h : s.markSuspect n a i b = some t) : Catalogued s t := by
  unfold State.markSuspect at h
  simp only at h
  split at h
  · cases h
  split at h
  · cases h
    exact (s.setSegment_catalogued n _).trans (State.countSuspect_catalogued _ _ _)
  · cases h
    split
    · exact s.setSegment_catalogued n _
    · exact .refl s
  · cases h

theorem State.returnStored_catalogued {a : Nat} (h : s.returnStored n a i = some t) : Catalogued s t := by
  unfold State.returnStored at h
  simp only at h
  split at h
  · cases h
    exact (s.setSegment_catalogued n _).trans (State.countSuspect_catalogued _ _ _)
  · cases h

theorem State.clearUnreported_catalogued {a : Nat} (h : s.clearUnreported n a = some t) : Catalogued s t := by
  unfold State.clearUnreported at h
  simp only at h
  split at h
  · cases h
    exact s.setSegment_catalogued n _
  · cases h

theorem State.markExpiring_catalogued (h : s.markExpiring i = some t) : Catalogued s t := by
  unfold State.markExpiring at h
  split at h
  · split at h <;> cases h
    exact s.setFile_catalogued i _
  · cases h

theorem State.returnAccepted_catalogued (h : s.returnAccepted i = some t) : Catalogued s t := by
  unfold State.returnAccepted at h
  split at h
  · split at h <;> cases h
    exact s.setFile_catalogued i _
  · cases h

theorem State.clearDispute_catalogued (h : s.clearDispute i = some t) : Catalogued s t := by
  unfold State.clearDispute at h
  split at h
  · split at h <;> cases h
    exact s.setFile_catalogued i _
  · cases h

theorem State.acceptLoss_catalogued (h : s.acceptLoss i = some t) : Catalogued s t := by
  unfold State.acceptLoss at h
  split at h
  · split at h <;> cases h
    exact s.setFile_catalogued i _
  · cases h

theorem State.pin_catalogued (s : State) (i : Nat) : Catalogued s (s.pin i) := by
  unfold State.pin
  split
  · exact s.setFile_catalogued i _
  · exact .refl s

end

/-! ## Posts and markers -/

section
variable (s : State) (x : StreamId)

theorem State.updateStream_sized (f : Stream → Stream) : Sized s (s.updateStream x f) := .same (by rfl)

theorem State.post_sized {s : State} {x : StreamId} (d : CompletionDetail)
    (h : s.completionRoom s.streams[x].port = true) : Sized s (s.post x d) :=
  .ofQueue (State.queueFits_append h)

theorem State.postNotice_sized : Sized s (s.postNotice x) := by
  rcases s.postNotice_cases x with ⟨-, hr, h⟩ | h <;> rw [h]
  · exact (State.post_sized _ hr).trans (.same (by rfl))
  · exact .refl s

theorem State.tryPost_sized {s t : State} {x : StreamId} {d : CompletionDetail} {b : Bool}
    (h : s.tryPost x d = (t, b)) : Sized s t := by
  rcases s.tryPost_cases x d with ⟨hr, he⟩ | he <;> rw [he] at h <;> cases h
  · exact (s.postNotice_sized x).trans (State.post_sized d hr)
  · exact s.postNotice_sized x

theorem State.waitPost_sized (d : CompletionDetail) (after : AfterPost) : Sized s (s.waitPost x d after) := .same (by rfl)

theorem State.streamIdle_sized : Sized s (s.streamIdle x) := .same (by rfl)

theorem State.enterWaiting_sized (state : StreamState) : Sized s (s.enterWaiting x state) := .same (by rfl)

/-- A marker is no record (R68). -/
theorem Sized.marked (e : StagingEntry) (h : recordsIn [e] = 0) : Sized s { s with staging := s.staging ++ [e] } :=
  .ofStaging fun hs => by rw [recordsIn_append, h]; exact hs

theorem State.closeInput_sized : Sized s (s.closeInput x) := (Sized.marked s (.close x) rfl).trans (.same (by rfl))

theorem State.placeAbort_sized : Sized s (s.placeAbort x) := (Sized.marked s (.abort x) rfl).trans (.same (by rfl))

/-! ## Acceptance and rejection -/

theorem State.markAccepted_sized {s : State} (x : StreamId) (reasons : DisputeReasons) (h : s.trailRoom = true) :
    Sized s (s.markAccepted x reasons) := by
  unfold State.markAccepted
  exact ((State.record_sized h _ _ _ _).trans (Catalogued.getD fun _ h => State.acceptFile_catalogued h).sized).trans
    (State.updateStream_sized _ x _)

theorem State.postThen_idle_sized (d : CompletionDetail) : Sized s (s.postThen x d .idle) := by
  unfold State.postThen
  split
  · next t h => exact (State.tryPost_sized h).trans (t.streamIdle_sized x)
  · next t h => exact (State.tryPost_sized h).trans (t.waitPost_sized x _ _)

theorem State.acceptStream_sized (reasons : DisputeReasons) : Sized s (s.acceptStream x reasons) := by
  cases h : s.trailRoom with
  | true =>
    rw [s.acceptStream_room x h]
    exact (State.markAccepted_sized x reasons h).trans (State.postThen_idle_sized _ x _)
  | false =>
    rw [State.acceptStream_full h]
    exact s.updateStream_sized x _

theorem State.reconcile_sized : Sized s (s.reconcile x) := s.acceptStream_sized x _

theorem State.rejectRecord_sized {s t : State} {x : StreamId} {reason : RejectReason} {after : AfterPost} {b : Bool}
    (h : s.rejectRecord x reason after = (t, b)) : Sized s t := by
  unfold State.rejectRecord at h
  simp only at h
  split at h
  · cases h
    exact .same (by rfl)
  · split at h
    · next u hu =>
      cases h
      exact (s.updateStream_sized x _).trans (State.tryPost_sized hu)
    · next u hu =>
      cases h
      exact ((s.updateStream_sized x _).trans (State.tryPost_sized hu)).trans (u.waitPost_sized x _ _)

theorem State.rejectRecord_fst_sized (reason : RejectReason) (after : AfterPost) :
    Sized s (s.rejectRecord x reason after).1 := State.rejectRecord_sized (b := (s.rejectRecord x reason after).2) rfl

/-! ## The bytes of a stream -/

theorem State.endOfInput_sized : Sized s (s.endOfInput x) := by
  unfold State.endOfInput
  simp only
  split
  · split
    · next t h => exact (State.rejectRecord_sized h).trans (t.closeInput_sized x)
    · next t h => exact State.rejectRecord_sized h
  · exact s.closeInput_sized x

theorem State.exhaust_sized : Sized s (s.exhaust x) := by
  unfold State.exhaust
  simp only
  split
  · split
    · exact (s.updateStream_sized x _).trans (State.endOfInput_sized _ x)
    · split
      · exact .same (by rfl)
      · exact .same (by rfl)
  · exact .refl s

theorem State.afterPost_sized (after : AfterPost) : Sized s (s.afterPost x after) := by
  cases after with
  | running => exact (s.updateStream_sized x _).trans (State.exhaust_sized _ x)
  | starved => exact s.enterWaiting_sized x _
  | held => exact s.enterWaiting_sized x _
  | idle => exact s.streamIdle_sized x
  | endOfInput => exact s.closeInput_sized x
  | reconcile => exact s.reconcile_sized x

theorem State.postThen_sized (d : CompletionDetail) (after : AfterPost) : Sized s (s.postThen x d after) := by
  unfold State.postThen
  split
  · next t h => exact (State.tryPost_sized h).trans (t.afterPost_sized x after)
  · next t h => exact (State.tryPost_sized h).trans (t.waitPost_sized x d after)

theorem State.serveWaiting_sized (i : WaitItem) : Sized s (s.serveWaiting i) := by
  unfold State.serveWaiting
  split
  · exact s.postNotice_sized _
  · simp only
    split
    · exact .refl s
    · split
      · next t h => exact ((State.tryPost_sized h).trans (.same (by rfl))).trans (State.afterPost_sized _ _ _)
      · next t h => exact State.tryPost_sized h

theorem State.serveWaitList_sized : Sized s s.serveWaitList := Sized.foldl State.serveWaiting_sized _ s

theorem State.removeCompletions_sized {kept : List Completion} (h : kept.Sublist s.completions) :
    Sized s (s.removeCompletions kept) := by
  unfold State.removeCompletions
  split
  · exact (Sized.ofQueue (State.queueFits_sublist h)).trans (State.serveWaitList_sized _)
  · exact .refl s

/-- A record joins the Staging Queue only where a place is free (R68). -/
theorem State.stageRecord_sized {s : State} (x : StreamId) (r : CallRecord) (h : recordsIn s.staging < 256) :
    Sized s (s.stageRecord x r) :=
  (Sized.ofStaging (es := s.staging ++ [.record x r]) fun _ => by
    rw [recordsIn_append]
    exact h).trans (.same (by rfl))

theorem State.handRecord_sized (r : CallRecord) : Sized s (s.handRecord x r) := by
  unfold State.handRecord
  split
  · next h =>
    have h : recordsIn s.staging + s.blocked.length < 256 := of_decide_eq_true h
    exact State.stageRecord_sized x r (by omega)
  · exact .same (by rfl)

theorem State.endRecord_sized : Sized s (s.endRecord x) := by
  unfold State.endRecord
  simp only
  split
  · exact s.updateStream_sized x _
  · split
    · exact s.rejectRecord_fst_sized x _ _
    · split
      · exact s.rejectRecord_fst_sized x _ _
      · exact (s.updateStream_sized x _).trans (State.handRecord_sized _ x _)

theorem State.startTrailer_sized : Sized s (s.startTrailer x) := by
  unfold State.startTrailer
  simp only
  split
  · exact (s.rejectRecord_fst_sized x _ _).trans (State.updateStream_sized _ x _)
  · exact s.updateStream_sized x _

theorem State.recordByte_sized (kind : ClassKind) (b : Byte) : Sized s (s.recordByte x kind b) := by
  unfold State.recordByte
  cases kind with
  | data => exact s.updateStream_sized x _
  | separator => exact s.updateStream_sized x _
  | recordEnd => exact s.endRecord_sized x
  | skip => exact .refl s
  | trailerStart => exact s.startTrailer_sized x
  | illegal => exact (s.rejectRecord_fst_sized x _ _).trans (State.updateStream_sized _ x _)

theorem State.takeByte_sized (e : ClassEntry) (b : Byte) : Sized s (s.takeByte x e b) := by
  unfold State.takeByte
  simp only
  split
  · exact (s.updateStream_sized x _).trans (State.recordByte_sized _ x _ b)
  · exact .same (by rfl)

theorem State.streamByte_sized : Sized s (s.streamByte x) := by
  unfold State.streamByte
  simp only
  split
  · exact .refl s
  split
  · exact .refl s
  split
  · exact (s.updateStream_sized x _).trans (State.exhaust_sized _ x)
  split
  · exact (s.updateStream_sized x _).trans (State.postThen_sized _ x _ _)
  · exact (s.takeByte_sized x _ _).trans (State.exhaust_sized _ x)

theorem State.resumeBlocked_sized : Sized s s.resumeBlocked := by
  unfold State.resumeBlocked
  split
  · exact .refl s
  next x rest _ =>
  split
  · next h =>
    split
    · exact .same (by rfl)
    · next r _ =>
      have hr : Sized s (({ s with blocked := rest } : State).stageRecord x r) :=
        Sized.trans (.same (by rfl)) (State.stageRecord_sized (s := { s with blocked := rest }) x r h)
      exact (hr.trans (State.updateStream_sized _ _ _)).trans (State.exhaust_sized _ _)
  · exact .refl s

theorem State.resumeHeld_sized (substitute : Option ClassEntry) : Sized s (s.resumeHeld x substitute) := by
  unfold State.resumeHeld
  split
  · exact s.updateStream_sized x _
  · exact ((s.updateStream_sized x _).trans (State.takeByte_sized _ x _ _)).trans (State.exhaust_sized _ x)

theorem State.startStream_sized (w q : Nat) : Sized s (s.startStream x w q) := by
  unfold State.startStream
  split
  · split
    · exact s.enterWaiting_sized x _
    · exact s.postThen_sized x _ _
  · exact s.enterWaiting_sized x _

/-! ## Aborts -/

theorem State.beginAbort_sized (cause : AbortCause) : Sized s (s.beginAbort x cause) := by
  unfold State.beginAbort
  simp only
  split
  · rcases State.abandonHead_cases ((s.recordCause x cause).updateStream x
      (fun st => { st with abortAfterClose := true })) x with ⟨-, h⟩ | h <;> rw [h] <;> exact .same (by rfl)
  · exact Sized.trans (.same (by rfl)) (State.placeAbort_sized _ x)

theorem State.resetStream_sized : Sized s (s.resetStream x) := by
  rcases s.resetStream_cases x with ⟨-, h⟩ | ⟨-, h⟩ | ⟨-, h⟩ | ⟨-, h⟩ <;> rw [h]
  · exact s.beginAbort_sized x _
  · exact .same (by rfl)
  · exact s.streamIdle_sized x
  · exact .refl s

theorem State.withdrawStream_sized : Sized s (s.withdrawStream x) := by
  unfold State.withdrawStream
  split
  · exact s.beginAbort_sized x _
  · exact .refl s

theorem State.closeAbort_sized : Sized s (s.closeAbort x) := by
  unfold State.closeAbort
  split
  · exact s.streamIdle_sized x
  · exact s.postThen_sized x _ _
  · exact s.postThen_sized x _ _
  · exact s.postThen_sized x _ _
  · exact s.streamIdle_sized x

theorem State.streamExpiry_sized : Sized s (s.streamExpiry x) := by
  unfold State.streamExpiry
  simp only
  split
  · exact s.beginAbort_sized x _
  · exact .refl s

/-! ## The close acknowledgement -/

theorem State.takeCloseAck_sized (count duration : Nat) : Sized s (s.takeCloseAck x count duration) := by
  unfold State.takeCloseAck
  simp only
  split
  · exact Sized.trans (.same (by rfl)) (State.placeAbort_sized _ x)
  split
  · exact s.reconcile_sized x
  split
  · exact (s.updateStream_sized x _).trans (State.reconcile_sized _ x)
  · exact (s.updateStream_sized x _).trans (State.postThen_sized _ x _ _)

theorem State.takeNotice_sized : Sized s (s.takeNotice x) := by
  unfold State.takeNotice
  simp only
  split
  · exact ((s.updateStream_sized x _).trans (State.postNotice_sized _ x)).trans (.same (by rfl))
  · exact (s.updateStream_sized x _).trans (State.postNotice_sized _ x)

theorem State.retryAcceptance_sized : Sized s (s.retryAcceptance x) := by
  unfold State.retryAcceptance
  simp only
  split
  · split
    · exact s.acceptStream_sized x _
    · exact .refl s
  · exact .refl s

theorem State.acknowledgeClose_sized : Sized s (s.acknowledgeClose x) := by
  unfold State.acknowledgeClose
  simp only
  split
  · exact Sized.trans (.same (by rfl)) (State.takeCloseAck_sized _ x _ _)
  · exact .refl s

theorem State.tellAbort_sized : Sized s (s.tellAbort x) := by
  unfold State.tellAbort
  split
  · exact Sized.trans (.same (by rfl)) (State.closeAbort_sized _ x)
  · exact .refl s

/-! ## The Store Port and the Encoder -/

theorem State.startStore_sized : Sized s s.startStore := by
  unfold State.startStore
  simp only
  split
  · exact .refl s
  split
  · exact .same (by rfl)
  split
  · exact .same (by rfl)
  split
  · exact .same (by rfl)
  · exact .refl s

theorem State.endStore_sized : Sized s s.endStore := Sized.trans (.same (by rfl)) (State.startStore_sized _)

theorem State.finishSegment_sized {s t : State} {x : StreamId} (h : s.finishSegment x = some t) : Sized s t := by
  unfold State.finishSegment at h
  simp only at h
  split at h
  · cases h
    exact .refl s
  · cases h
  · cases h
    exact Sized.trans (.same (by rfl)) (State.startStore_sized _)

theorem State.leaveHead_sized : Sized s s.leaveHead :=
  (Sized.ofStaging (recordsIn_tail s.staging).trans).trans (.same (by rfl))

theorem State.discardCounted_sized (r : CallRecord) : Sized s (s.discardCounted x r) :=
  Sized.trans (.same (by rfl)) (State.leaveHead_sized _)

theorem State.waitStoreFull_sized : Sized s (s.waitStoreFull x) := by
  unfold State.waitStoreFull
  simp only
  split
  · exact .same (by rfl)
  split
  · exact .same (by rfl)
  · exact Sized.trans (.same (by rfl)) (State.takeNotice_sized _ x)

theorem State.placeFirst_sized (r : CallRecord) : Sized s (s.placeFirst x r) := by
  unfold State.placeFirst
  split
  · exact s.leaveHead_sized
  · exact s.waitStoreFull_sized x
  · exact s.discardCounted_sized x r
  · next g t h =>
    have he : Sized t t.endEpisode := by
      rw [State.endEpisode_eq]
      exact .same (by rfl)
    exact ((State.allocate_catalogued h).sized.trans he).trans (Sized.trans (.same (by rfl)) (State.leaveHead_sized _))

theorem State.placeRecord_sized (r : CallRecord) : Sized s (s.placeRecord x r) := by
  unfold State.placeRecord
  simp only
  split
  · exact Sized.trans (.same (by rfl)) (State.leaveHead_sized _)
  split
  · exact .same (by rfl)
  · next t h => exact (State.finishSegment_sized h).trans (t.placeFirst_sized x r)

theorem State.takeCloseMarker_sized : Sized s (s.takeCloseMarker x) := by
  unfold State.takeCloseMarker
  split
  · exact Sized.trans (.same (by rfl)) (State.leaveHead_sized _)
  split
  · exact .same (by rfl)
  · next t h =>
    exact (State.finishSegment_sized h).trans (Sized.trans (.same (by rfl)) (State.leaveHead_sized _))

theorem State.carryRemoval_sized : Sized s (s.carryRemoval x) := by
  unfold State.carryRemoval
  split
  · next t h => exact (State.removeFile_catalogued h).sized.trans (.same (by rfl))
  · exact .same (by rfl)

theorem State.takeAbortMarker_sized : Sized s (s.takeAbortMarker x) := by
  unfold State.takeAbortMarker
  simp only
  split
  · split
    · exact s.leaveHead_sized.trans (.same (by rfl))
    · exact (s.leaveHead_sized.trans (.same (by rfl))).trans (State.carryRemoval_sized _ x)
  · exact (s.leaveHead_sized.trans (.same (by rfl))).trans (State.carryRemoval_sized _ x)

theorem State.dealHead_sized : Sized s s.dealHead := by
  unfold State.dealHead
  split
  · exact .refl s
  · split
    · exact s.leaveHead_sized
    split
    · exact s.discardCounted_sized _ _
    · exact s.placeRecord_sized _ _
  · exact s.takeCloseMarker_sized _
  · exact s.takeAbortMarker_sized _

theorem State.takeHead_sized : Sized s s.takeHead := by
  unfold State.takeHead
  split
  · exact s.dealHead_sized
  split
  · split
    · exact s.leaveHead_sized
    · exact .refl s
  · exact .refl s

theorem State.retryStoreFull_sized : Sized s s.retryStoreFull := by
  unfold State.retryStoreFull
  split
  · exact s.dealHead_sized
  · exact .refl s

theorem State.endImageWait_sized : Sized s s.endImageWait := by
  unfold State.endImageWait
  split
  · split
    · exact s.dealHead_sized
    · exact .refl s
  · exact .refl s

theorem State.writeDone_sized (n : Nat) : Sized s (s.writeDone x n) := by
  unfold State.writeDone
  simp only
  split
  · exact .refl s
  split
  · exact Sized.trans (.same (by rfl)) (State.carryRemoval_sized _ x)
  · exact Sized.trans (.same (by rfl)) (Catalogued.getD fun _ h => State.finishStored_catalogued h).sized

/-! ## Reports of damage -/

theorem State.recordQuarantine_sized {s : State} (kind : TrailKind) (i : Nat) (h : s.trailRoom = true) :
    Sized s (s.recordQuarantine kind i) := by
  unfold State.recordQuarantine
  split
  · exact State.record_sized h _ _ _ _
  · exact .refl s

theorem State.reportDamage_sized (f : Finding) : Sized s (s.reportDamage f).1 := by
  unfold State.reportDamage
  split
  next t owed h =>
  have ht : Sized s t := by
    split at h <;> cases h
    · next hp =>
      refine .ofFindings fun ⟨h1, h2⟩ => ⟨?_, h2⟩
      simp only [State.findingPlaces, Config.findingEntries] at hp
      simp only [List.length_append, List.length_singleton]
      omega
    · exact .refl s
  simp only
  split
  · next hq => exact ht.trans (State.recordQuarantine_sized _ _ hq.2)
  · exact ht

theorem State.writeFailed_sized (n : Nat) (left : List Byte) : Sized s (s.writeFailed x n left) := by
  unfold State.writeFailed
  simp only
  split
  · exact .refl s
  split
  · exact Sized.trans (.same (by rfl)) (State.carryRemoval_sized _ x)
  · exact (Sized.trans (.same (by rfl)) (State.reportDamage_sized _ _)).trans
      (Catalogued.getD fun _ h => State.finishFailed_catalogued h).sized

theorem State.takeDamage_sized (n a i : Nat) (kind : FindingKind) (values : Option (Nat × Nat)) :
    Sized s (s.takeDamage n a i kind values) := by
  unfold State.takeDamage
  split
  · exact (s.reportDamage_sized _).trans (Catalogued.getD fun t h => State.markSuspect_catalogued h).sized
  · exact .refl s

/-! ## Retention -/

theorem State.reclaimStep_sized (i : Nat) (f : File) : Sized s (s.reclaimStep i f).2 := by
  rcases s.reclaimStep_cases i f with ⟨-, h⟩ | ⟨-, hr, h⟩ | ⟨-, -, h⟩ <;> rw [h] <;> dsimp only
  · exact (Catalogued.getD fun t h => State.returnAccepted_catalogued h).sized
  · exact Sized.getD fun t h => (State.record_sized hr _ _ _ _).trans (State.reclaimFile_catalogued h).sized
  · exact .refl s

theorem State.pinReleased_sized (i : Nat) : Sized s (s.pinReleased i) := by
  unfold State.pinReleased
  split
  · exact .refl s
  split
  · split
    · exact s.reclaimStep_sized i _
    · exact .refl s
  · exact .refl s

theorem State.startCause_sized : Sized s s.startCause := by
  rcases s.startCause_cases with ⟨-, -, h⟩ | h <;> rw [h] <;> exact .same (by rfl)

theorem State.visitExpiring_sized (i : Nat) (f : File) : Sized s (s.visitExpiring i f) := by
  have hr := s.reclaimStep_sized i f
  unfold State.visitExpiring
  split
  · split
    · next t h => rw [h] at hr; exact hr.trans (.same (by rfl))
    · next r t _ h => rw [h] at hr; exact hr.trans (.same (by rfl))
  · exact .same (by rfl)

theorem State.visit_sized : Sized s s.visit := by
  unfold State.visit
  simp only
  split
  · exact .same (by rfl)
  split
  · exact .same (by rfl)
  · exact .same (by rfl)
  · exact s.visitExpiring_sized _ _
  · split
    · exact (Catalogued.getD fun t h => State.markExpiring_catalogued h).sized.trans (State.visitExpiring_sized _ _ _)
    · exact .same (by rfl)

theorem State.walkAgain_sized : Sized s s.walkAgain := Sized.trans (.same (by rfl)) (State.visit_sized _)

theorem State.passRetry_sized : Sized s s.passRetry := by
  rcases s.passRetry_cases with ⟨-, -, h⟩ | h <;> rw [h]
  · exact Sized.trans (.same (by rfl)) (State.walkAgain_sized _)
  · exact .refl s

theorem State.passVisit_sized : Sized s s.passVisit := by
  unfold State.passVisit
  split
  · exact s.visit_sized
  · exact .refl s

theorem State.returnHeld_sized (h : Hold) : Sized s (s.returnHeld h) :=
  (Catalogued.foldl (fun _ _ => Catalogued.getD fun _ h => State.returnAccepted_catalogued h) _ s).sized

/-! ## The clock -/

theorem State.tick_sized : Sized s s.tick := by
  refine Sized.trans (t := s.advanceClock) ?_ (.same (by rfl))
  unfold State.advanceClock
  simp only
  split
  · exact .refl s
  split
  · exact Sized.trans (.same (by rfl)) (State.startCause_sized _)
  · exact .same (by rfl)

theorem State.pulse_sized (half : Bool) : Sized s (s.pulse half) := by
  unfold State.pulse
  simp only
  split
  · split
    · exact Sized.trans (.same (by rfl)) (State.tick_sized _)
    · exact .refl s
  split
  · exact Sized.trans (.same (by rfl)) (State.tick_sized _)
  · exact .same (by rfl)

theorem State.elapse_sized : Sized s s.elapse := by
  rcases s.elapse_cases with ⟨-, -, h⟩ | ⟨-, h⟩ | ⟨-, h⟩ <;> rw [h]
  · exact .same (by rfl)
  · exact (Sized.trans (.same (by rfl)) (State.tick_sized _)).trans (State.tick_sized _)
  · exact s.tick_sized

theorem State.setClockTo_sized {s : State} (p : PortId) (value : Nat) (h : s.trailRoom = true) :
    Sized s (s.setClockTo p value) := by
  have ha : Sized s { s with
      trail := s.trail.append value .clockSet (some p) (.clock s.stamp value) 0, clock := s.clock.setTo value } :=
    (Sized.append h _ _ _ _ _).trans (.same (by rfl))
  unfold State.setClockTo
  simp only
  split
  · exact ha.trans (State.startCause_sized _)
  · exact ha

end

end Sys2Proof.Machine
end

section
/-! PROOFS. No step takes a queue, log or table beyond its size: O6. -/

open Sys2Proof Sys2Proof.Machine
namespace Sys2Proof.Machine

/-! ## Outstanding requests -/

section
variable (s : State) (p : PortId) (tag : Byte)

/-- A reply formed with no entry of the table. -/
theorem State.form_nil_sized (status : Status) (body : ReplyBody) : Sized s (s.form p tag status body []) :=
  { Logged.refl s with requests := fun r => by rw [State.outstanding_form]; simp }

theorem State.reply_admitted (status : Status) (body : ReplyBody) : Admitted p s (s.reply p tag status body) :=
  { Logged.refl s with
    requests := fun r => by
      rw [show s.reply p tag status body = s.form p tag status body [⟨tag, .answered⟩] from rfl,
        State.outstanding_form, List.length_append]
      split <;> split <;> simp_all }

theorem State.takeEntry_admitted (standing : Standing) : Admitted p s (s.takeEntry p tag standing) :=
  { Logged.refl s with
    requests := fun r => by
      rw [State.outstanding_takeEntry]
      split
      · next hr => simp [hr]
      · exact Nat.le_refl _ }

/-- An entry freed makes room for another. -/
theorem Admitted.afterFree {s t : State} {p : PortId} {tag : Byte} (h : ∃ o ∈ s.ports[p].outstanding, o.tag = tag)
    (k : Admitted p (s.freeTag p tag) t) : Sized s t := by
  refine ⟨Logged.trans (t := s.freeTag p tag) ⟨id, id, id, id⟩ k.toLogged, fun r => ?_⟩
  have hr := k.requests r
  rw [State.outstanding_freeTag] at hr
  split at hr
  · next he =>
    subst he
    obtain ⟨o, ho, ht⟩ := h
    have := List.length_filter_lt_length_iff_exists (p := fun o : Outstanding => decide (o.tag ≠ tag)).mpr
      ⟨o, ho, by simpa using ht⟩
    exact hr.trans this
  · exact hr

theorem State.answer_sized (status : Status) (body : ReplyBody) : Sized s (s.answer p tag status body) := by
  rcases s.answer_cases p tag status body with ⟨ho, h⟩ | ⟨-, h⟩ <;> rw [h]
  · exact (State.reply_admitted _ p tag status body).afterFree ho
  · exact s.form_nil_sized p tag status body

theorem State.setStanding_sized (standing : Standing) : Sized s (s.setStanding p tag standing) :=
  .ofPort (by simp)

theorem State.dropFetched_sized : Sized s (s.dropFetched p tag) := .ofPort (Nat.le_refl _)

theorem State.setLink_sized (up : Bool) : Sized s (s.setLink p up) := .ofPort (Nat.le_refl _)

theorem State.discardRequests_sized : Sized s (s.discardRequests p) :=
  (Sized.ofPort (p := p) (q := { s.ports[p] with outstanding := [], unsent := [] }) (Nat.zero_le _)).trans
    (.same (by rfl))

end

/-! ## Cursors -/

section
variable (s : State) (p : PortId) (c : CursorId)

theorem State.answerFetch_sized (status : Status) (skipped : Nat) : Sized s (s.answerFetch c status skipped) := by
  unfold State.answerFetch
  simp only
  split
  · split
    · exact (s.setStanding_sized _ _ _).trans (State.form_nil_sized _ _ _ _ _)
    · exact Sized.trans (.same (by rfl)) (State.answer_sized _ _ _ _ _)
  · exact .refl s

theorem State.serveFetch_sized : Sized s (s.serveFetch c).1 := by
  unfold State.serveFetch
  simp only
  split
  · exact .refl s
  · split
    · exact Sized.trans (.same (by rfl)) (State.answerFetch_sized _ c _ _)
    · exact Sized.trans (.same (by rfl)) (State.startStore_sized _)

theorem State.takeFetch_admitted (tag : Byte) (count : Nat) : Admitted p s (s.takeFetch p tag c count).1 :=
  (Sized.admitted (.same (by rfl)) (State.takeEntry_admitted
    (s.updateCursor c (fun u => { u with idle := .stopped, fetch := some { tag, limit := min count 64 } })) p tag
      (.fetching c))).sized (State.serveFetch_sized _ c)

theorem State.freeCursorOf_sized : Sized s (s.freeCursorOf c) := by
  rcases s.freeCursorOf_cases c with ⟨i, f, -, -, -, he⟩ | ⟨-, he⟩ <;> rw [he]
  · have hu : Sized s ((s.releaseCursor c).setFile i f.unpinned) := .same (by rfl)
    split
    · exact hu.trans (State.pinReleased_sized _ i)
    · exact hu
  · exact .same (by rfl)

theorem State.takeHeldRequest_sized {s : State} {o : Outstanding} (ho : o ∈ s.ports[p].outstanding) :
    Sized s (s.takeHeldRequest p o) := by
  have refused (status : Status) : Sized s ((s.freeTag p o.tag).refuse p o.tag status) :=
    (State.reply_admitted _ p o.tag status .empty).afterFree ⟨o, ho, rfl⟩
  unfold State.takeHeldRequest
  simp only
  split
  · exact refused _
  split
  · split
    · exact (State.takeFetch_admitted _ p _ o.tag _).afterFree ⟨o, ho, rfl⟩
    · exact refused _
  · split
    · exact ((State.freeCursorOf_sized _ _).admitted (State.reply_admitted _ p o.tag _ _)).afterFree ⟨o, ho, rfl⟩
    · exact refused _
  · exact .ofPort (List.length_filter_le _ _)

theorem State.takeHeld_sized (n : Nat) : Sized s (State.takeHeld p c n s) := by
  induction n generalizing s with
  | zero => exact .refl s
  | succ n ih =>
    unfold State.takeHeld
    split
    · exact .refl s
    split
    · exact .refl s
    · next o ho => exact (State.takeHeldRequest_sized p (State.firstHeld_some ho).1).trans (ih _)

theorem State.retrievalRead_sized (report : ReadReport) : Sized s (s.retrievalRead c report).1 := by
  unfold State.retrievalRead
  simp only
  split
  · split
    · exact Sized.trans (.same (by rfl)) (State.serveFetch_sized _ c)
    · exact (s.takeDamage_sized _ _ _ _ _).trans
        (Sized.trans (.same (by rfl)) (State.answerFetch_sized _ c _ _))
  · exact .refl s

theorem State.endRetrievalRead_sized (live : Bool) (report : ReadReport) :
    Sized s (s.endRetrievalRead c live report) := by
  have hr := s.retrievalRead_sized c report
  unfold State.endRetrievalRead
  split
  · simp only
    split
    · next t p h _ =>
      rw [h] at hr
      exact (hr.trans (t.takeHeld_sized p c _)).trans (State.endStore_sized _)
    · next t b h _ =>
      rw [h] at hr
      exact hr.trans t.endStore_sized
  · exact s.endStore_sized

theorem State.cursorExpiry_sized : Sized s (s.cursorExpiry c) := by
  unfold State.cursorExpiry
  simp only
  split
  · exact s.freeCursorOf_sized c
  · exact .refl s

theorem State.sendWaiting_sized : Sized s (s.sendWaiting p) := by
  have he : Sized s (s.emptyLine p) :=
    Sized.trans (t := s.setPort p
      { s.ports[p] with outstanding := s.ports[p].outstanding.filter (fun o => !o.standing.formed), unsent := [] })
      (.ofPort (List.length_filter_le _ _)) (.same (by rfl))
  exact he.trans (Sized.foldl (fun t c => Sized.trans (.same (by rfl)) (State.takeHeld_sized (t.endFetch p c) p c _)) _ _)

theorem State.withdrawCursor_sized : Sized s (s.withdrawCursor p c) := by
  unfold State.withdrawCursor
  split
  · exact (((s.dropFetched_sized p _).trans (State.answer_sized _ p _ _ _)).trans (State.freeCursorOf_sized _ c)).trans
      (State.takeHeld_sized _ p c _)
  · exact s.freeCursorOf_sized c

theorem State.withdrawRoles_sized (roles : RoleSet) : Sized s (s.withdrawRoles p roles) := by
  have hs : Sized s (if roles.ingest then s else (s.streamsOf p).foldl State.withdrawStream s) := by
    split
    · exact .refl s
    · exact Sized.foldl State.withdrawStream_sized _ s
  unfold State.withdrawRoles
  simp only
  split
  · exact hs
  · exact hs.trans (Sized.foldl (fun s c => s.withdrawCursor_sized p c) _ _)

/-! ## Links -/

theorem State.portReset_sized : Sized s (s.portReset p) :=
  (((s.discardRequests_sized p).trans (Sized.foldl State.resetStream_sized _ _)).trans
    (Sized.foldl State.freeCursorOf_sized _ _)).trans (State.removeCompletions_sized _ List.filter_sublist)

theorem State.linkLost_sized : Sized s (s.linkLost p) := by
  unfold State.linkLost
  split
  · exact (s.portReset_sized p).trans (State.setLink_sized _ p false)
  · exact .refl s

theorem State.linkReset_sized : Sized s (s.linkReset p) := by
  unfold State.linkReset
  split
  · exact s.portReset_sized p
  · exact .refl s

theorem State.establish_sized : Sized s (s.establish p) := by
  unfold State.establish
  split
  · exact .refl s
  · exact (s.discardRequests_sized p).trans (State.setLink_sized _ p true)

/-! ## Requests that asked the catalogue -/

theorem State.createOpened_sized (i : Nat) (b : OpeningFile) : Sized s (s.createOpened p i b) := .same (by rfl)

theorem State.openFileAnswer_sized (b : OpeningFile) : Sized s (s.openFileAnswer p b).state := by
  unfold State.openFileAnswer
  split
  · exact .refl s
  · exact .refl s
  · exact (s.createOpened_sized p _ b).trans (State.startStream_sized _ _ _ _)

theorem State.pinOpened_sized (i : Nat) (f : File) (b : OpeningCursor) : Sized s (s.pinOpened p i f b) :=
  (s.pin_catalogued i).sized.trans (.same (by rfl))

theorem State.openCursorAnswer_sized (b : OpeningCursor) : Sized s (s.openCursorAnswer p b).state := by
  unfold State.openCursorAnswer
  split
  · split
    · exact .refl s
    · exact s.pinOpened_sized p _ _ b
  · exact .refl s

theorem State.runOn_sized (request : OpeningRequest) : Sized s (s.runOn p request) := by
  unfold State.runOn
  split
  · split
    · exact (s.createOpened_sized p _ _).trans (State.beginAbort_sized _ _ _)
    · exact .refl s
  · split
    · split
      · exact .refl s
      · exact (s.pinOpened_sized p _ _ _).trans (State.freeCursorOf_sized _ _)
    · exact .refl s

theorem State.answerOpening_sized (o : Opening) : Sized s (s.answerOpening o) := by
  rcases s.answerOpening_cases o with ⟨tag, -, h⟩ | ⟨-, h⟩ <;> rw [h]
  · refine Sized.trans ?_ (State.answer_sized _ _ _ _ _)
    cases o.request with
    | file b => exact s.openFileAnswer_sized o.port b
    | cursor b => exact s.openCursorAnswer_sized o.port b
  · exact s.runOn_sized o.port o.request

theorem State.idle_sized : Sized s s.idle := by
  rcases s.idle_cases with h | ⟨p, -, h⟩ | ⟨o, rest, -, h⟩ <;> rw [h]
  · exact .refl s
  · exact s.sendWaiting_sized p
  · exact Sized.trans (.same (by rfl)) (State.answerOpening_sized _ o)

/-! ## The sweep -/

/-- A visit begins only with its three places free (R110). -/
theorem State.beginVisit_sized {s : State} (n : Nat) (kind : VisitKind) (h : 3 ≤ s.findingPlaces) :
    Sized s (s.beginVisit n kind) := by
  refine Sized.trans (.ofSweep fun hfit => ⟨?_, fun _ => rfl⟩) (Sized.trans (.same (by rfl)) (State.startStore_sized _))
  have hlog := hfit.1
  simp only [State.findingPlaces, Config.findingEntries] at h
  simp only [Config.visitPlaces]
  omega

theorem State.lookSegment_sized : Sized s s.lookSegment := by
  unfold State.lookSegment
  simp only
  split
  · exact .same (by rfl)
  split
  · next h => exact Sized.trans (.same (by rfl)) (State.beginVisit_sized _ _ h)
  · exact .same (by rfl)

theorem State.sweepLooks_sized : Sized s s.sweepLooks := by
  unfold State.sweepLooks
  split
  · exact s.lookSegment_sized
  · exact .refl s

theorem State.logRoom_sized : Sized s s.logRoom := by
  unfold State.logRoom
  split
  · exact Sized.trans (.same (by rfl)) (State.sweepLooks_sized _)
  · exact .refl s

/-- A read yields at most three findings (R112). -/
theorem judgeExtent_length (expected header : Header) (payload : List Byte) :
    (judgeExtent expected header payload).length ≤ 3 := by
  have hc : (checkFinding expected payload).length ≤ 1 := by
    unfold checkFinding
    split <;> simp
  have hs (sum : Nat) : (sumFindings expected header sum).length ≤ 2 := by
    unfold sumFindings
    split <;> split <;> [skip; split; skip; split] <;> simp
  cases hd : decodePayload expected.figures payload with
  | none =>
    rw [judgeExtent_malformed (.inl hd)]
    simp only [List.length_append, List.length_singleton]
    omega
  | some rs =>
    by_cases hn : header.Named expected
    · rw [judgeExtent_named hd hn, List.length_append]
      have := hs (rs.map CallRecord.duration).sum
      omega
    · rw [judgeExtent_malformed (.inr hn)]
      simp only [List.length_append, List.length_singleton]
      omega

theorem State.judge_length (n : Nat) (report : ReadReport) : (s.judge n report).length ≤ 3 := by
  unfold State.judge
  split
  · simp
  · exact judgeExtent_length _ _ _

/-- What a visit's judgement leaves alone: only the catalogue, the trail and, at the log's tail, findings change. -/
structure Judged (s : State) (found : List Finding) (t : State) : Prop where
  trail : s.trail.entries.length ≤ 128 → t.trail.entries.length ≤ 128
  findings : t.findings = s.findings ++ found
  rest : t.completions = s.completions ∧ t.staging = s.staging ∧ t.ports = s.ports ∧ t.sweep = s.sweep

theorem Judged.catalogued {s t u : State} {found : List Finding} (h : Judged s found t) (k : Catalogued t u) :
    Judged s found u := by
  obtain ⟨_, _, _, _, rfl⟩ := k
  exact ⟨h.trail, h.findings, h.rest⟩

theorem Judged.quarantine {s t : State} {found : List Finding} (h : Judged s found t) (kind : TrailKind) (i : Nat)
    (hr : t.trailRoom = true) : Judged s found (t.recordQuarantine kind i) := by
  unfold State.recordQuarantine
  split
  · exact ⟨(State.record_sized hr _ _ _ _).trail ∘ h.trail, h.findings, h.rest⟩
  · exact h

theorem Judged.nothing (s : State) : Judged s [] s := ⟨id, (List.append_nil _).symm, rfl, rfl, rfl, rfl⟩

theorem Judged.append (s : State) (found : List Finding) : Judged s found { s with findings := s.findings ++ found } :=
  ⟨id, rfl, rfl, rfl, rfl, rfl⟩

theorem State.completeVisit_judged (v : Visit) (report : ReadReport) :
    ∃ found, found.length ≤ 3 ∧ Judged s found (s.completeVisit v report).1 := by
  have hl : (s.sweepFindings v (s.judge v.segment report)).length ≤ 3 := by
    simpa [State.sweepFindings] using s.judge_length v.segment report
  unfold State.completeVisit
  split
  · exact ⟨[], by simp, .nothing s⟩
  simp only
  split
  · refine ⟨[], by simp, ?_⟩
    simp only
    split
    · unfold State.cleanSuspect
      split
      · exact (Judged.nothing s).catalogued (Catalogued.getD fun t h => State.returnStored_catalogued h)
      split
      · next h =>
        exact ((Judged.nothing s).quarantine _ _ h).catalogued (Catalogued.getD fun t h => State.returnStored_catalogued h)
      · exact .nothing s
    · exact .nothing s
  split
  · unfold State.damageSuspect
    split
    · next h =>
      exact ⟨_, hl, ((Judged.append s _).quarantine _ _ h.2).catalogued
        (Catalogued.getD fun t h => State.clearUnreported_catalogued h)⟩
    · exact ⟨[], by simp, .nothing s⟩
  · refine ⟨_, hl, ?_⟩
    unfold State.damageStored
    simp only
    split
    · next h =>
      simp only [Bool.and_eq_true] at h
      exact ((Judged.append s _).quarantine _ _ h.2).catalogued
        (Catalogued.getD fun t h => State.markSuspect_catalogued h)
    · exact (Judged.append s _).catalogued (Catalogued.getD fun t h => State.markSuspect_catalogued h)

theorem State.paceSweep_sized (n : Nat) : Sized s (s.paceSweep n) := by
  unfold State.paceSweep
  simp only
  split
  · exact .refl s
  split
  · exact .same (by rfl)
  split
  · split
    · exact .same (by rfl)
    · exact .same (by rfl)
  · exact .refl s

theorem State.answerStep_sized (tag : Byte) (n : Nat) (r : VisitResult) : Sized s (s.answerStep p tag n r) := by
  unfold State.answerStep
  split
  · exact s.answer_sized p tag _ _
  · exact .refl s

/-- The end of a visit gives back the places of the log it had reserved (R117). -/
theorem State.sweepRead_sized (report : ReadReport) : Sized s (s.sweepRead report) := by
  unfold State.sweepRead
  split
  · exact .refl s
  next v hv =>
  obtain ⟨found, hl, trail, findings, queue, staging, ports, sweep⟩ := s.completeVisit_judged v report
  set t := (s.completeVisit v report).1 with ht
  have hw (w : Sweep) (h1 : w.reserved = 0) (h2 : w.visit = none) : Sized s { t with sweep := w } := by
    refine ⟨⟨trail, ?_, ?_, by simp only [staging]; exact id⟩, fun r => by simp only [ports]; exact Nat.le_refl _⟩
    · unfold State.queueFits State.completionsOf
      simp only [queue]
      exact id
    · rintro ⟨hf, hr⟩
      have hr := hr (by rw [hv]; rfl)
      refine ⟨?_, fun h => ?_⟩
      · simp only [findings, List.length_append, h1]
        omega
      · simp [h2] at h
  show Sized s (t.endVisit v (s.completeVisit v report).2)
  have ha : Sized s { t with
      sweep := if v.restarted then { t.sweep with visit := none, reserved := 0 }
        else Sweep.advance { t.sweep with visit := none, reserved := 0 } v.segment } := by
    apply hw <;> split <;> rfl
  unfold State.endVisit
  simp only
  split
  · exact ha.trans (State.answerStep_sized _ _ _ _ _)
  · exact ha.trans (State.paceSweep_sized _ _)

theorem State.stepSweep_admitted (tag : Byte) : Admitted p s (s.stepSweep p tag) := by
  have hw (h : 3 ≤ s.findingPlaces) : Sized s (s.stepWalk p tag).1 := by
    unfold State.stepWalk
    simp only
    split
    · exact Sized.trans (.same (by rfl)) (State.beginVisit_sized _ _ h)
    · exact .same (by rfl)
  unfold State.stepSweep
  split
  · exact s.reply_admitted p tag _ _
  next hb =>
  have h3 : 3 ≤ s.findingPlaces := by
    unfold State.stepBar at hb
    simp only at hb
    split at hb
    · cases hb
    split at hb
    · cases hb
    split at hb
    · cases hb
    · next h => exact Nat.le_of_not_lt h
  have hw := hw h3
  split
  · next t h =>
    rw [h] at hw
    exact hw.admitted (t.takeEntry_admitted p tag .stepping)
  · next t h =>
    rw [h] at hw
    exact hw.admitted (t.reply_admitted p tag _ _)

/-! ## Resets -/

theorem State.takeReset_sized : Sized s s.takeReset := by
  have hq : ∀ t : State, t.completions = [] → t.queueFits := fun t h => by
    simp [State.queueFits, State.completionsOf, h]
  have hp (r : PortId) : s.takeReset.ports[r].outstanding.length ≤ s.ports[r].outstanding.length := by
    rw [s.takeReset_cleared.2.2 r]
    exact Nat.zero_le _
  refine ⟨?_, hp⟩
  unfold State.takeReset State.initialise
  split
  · exact ⟨id, fun _ => hq _ rfl, fun _ => ⟨Nat.zero_le _, nofun⟩, fun _ => Nat.zero_le _⟩
  · exact ⟨fun _ => Nat.zero_le _, fun _ => hq _ rfl, fun _ => ⟨Nat.zero_le _, nofun⟩, fun _ => Nat.zero_le _⟩

theorem State.powerUp_sized : Sized s s.powerUp :=
  s.takeReset_sized.trans ⟨⟨id, id, id, id⟩, fun r => by simp [State.powerUp]⟩

theorem State.cleanUp_sized : Sized s s.cleanUp := by
  have h1 : Sized s ({ s with initialised := true } : State).removeIngesting :=
    Sized.trans (.same (by rfl))
      (Catalogued.foldl (fun _ _ => Catalogued.getD fun _ h => State.removeFile_catalogued h) _ _).sized
  have h2 := (State.freeSegments_catalogued ({ s with initialised := true } : State).removeIngesting
    ({ s with initialised := true } : State).removeIngesting.fillingSegments).sized
  have h3 : Sized s ({ s with initialised := true } : State).removeIngesting.freeFilling.markAllUnreported :=
    (h1.trans h2).trans (.same (by rfl))
  exact (h3.trans (State.startCause_sized _)).trans (.same (by rfl))

end

/-! ## Answers of the owning blocks -/

section
variable (s : State) (p : PortId)

theorem State.ingestChunk_sized (stream final nextMode : Byte) (chunk : List Byte) :
    Sized s (s.ingestChunk p stream final nextMode chunk).state := by
  unfold State.ingestChunk
  split
  · split
    · exact .refl s
    split
    · exact .refl s
    · exact .same (by rfl)
  · exact .refl s

theorem State.resumeStream_sized (stream present kind includeInCheck nextMode hold : Byte) :
    Sized s (s.resumeStream p stream present kind includeInCheck nextMode hold).state := by
  unfold State.resumeStream
  split
  · split
    · exact .refl s
    · exact s.resumeHeld_sized _ _
  · exact .refl s

theorem State.abortStream_sized (stream : Byte) : Sized s (s.abortStream p stream).state := by
  unfold State.abortStream
  split
  · split
    · exact .refl s
    · exact s.beginAbort_sized _ _
  · exact .refl s

theorem dropOf_sublist (n : Nat) (es : List Completion) : (dropOf p n es).Sublist es := by
  induction es generalizing n with
  | nil => simp [dropOf]
  | cons e es ih =>
    cases n with
    | zero => exact .refl _
    | succ n =>
      unfold dropOf
      split
      · exact (ih n).cons e
      · exact (ih (n + 1)).cons_cons e

theorem State.fetchCompletions_sized : Sized s (s.fetchCompletions p).state :=
  s.removeCompletions_sized (dropOf_sublist p 16 s.completions)

theorem State.fetchFindings_sized : Sized s s.fetchFindings.state :=
  Sized.trans (.ofFindings (fs := s.findings.drop 16) fun ⟨h1, h2⟩ =>
    ⟨by simp only [List.length_drop]; omega, h2⟩) (State.logRoom_sized _)

theorem State.setSweepSettings_sized (window rest : Nat) (freeze : Byte) :
    Sized s (s.setSweepSettings window rest freeze).state := by
  unfold State.setSweepSettings
  split
  · exact .refl s
  · exact .same (by rfl)

theorem State.startSweep_sized : Sized s s.startSweep.state := by
  unfold State.startSweep
  split
  · exact .same (by rfl)
  · exact .refl s

theorem State.restartSweep_sized : Sized s s.restartSweep.state :=
  (Sized.ofSweep (w := { s.sweep with
      position := 0, visit := s.sweep.visit.map (fun v : Visit => { v with restarted := true }) })
    fun h => ⟨h.1, fun hv => h.2 (by simpa using hv)⟩).trans (.same (by rfl))

theorem State.ackTrail_sized (sequence : Nat) : Sized s (s.ackTrail sequence).state := by
  unfold State.ackTrail
  split
  · exact .refl s
  · next n _ =>
    refine Sized.trans (.ofTrail (t := s.trail.removeOldest n) fun h => ?_) (.same (by rfl))
    simp only [Trail.removeOldest, List.length_drop]
    omega

theorem State.setRetention_sized (retentionClass : Byte) (days : Nat) :
    Sized s (s.setRetention p retentionClass days).state := by
  unfold State.setRetention
  split
  · exact .refl s
  split
  · next h => exact (State.record_sized h _ _ _ _).trans (.same (by rfl))
  · exact .refl s

theorem State.placeHold_sized (selector firstDay lastDay : Nat) (labelPresent labelLength : Byte)
    (label : List Byte) :
    Sized s (s.placeHold p selector firstDay lastDay labelPresent labelLength label).state := by
  unfold State.placeHold
  split
  · split
    · unfold State.placeHoldTested
      split
      · exact .refl s
      split
      · next i _ h =>
        exact (Sized.trans (.same (by rfl)) (State.record_sized (s := { s with holds := s.holds.set i _ }) h _ _ _ _)).trans
          (State.returnHeld_sized _ _)
      · exact .refl s
    · exact .refl s
  · exact .refl s

theorem State.releaseHold_sized (hold : Byte) : Sized s (s.releaseHold p hold).state := by
  unfold State.releaseHold
  split
  · exact .refl s
  split
  · exact .refl s
  split
  · next i _ _ h =>
    exact Sized.trans (.same (by rfl)) (State.record_sized (s := { s with holds := s.holds.set i {} }) h _ _ _ _)
  · exact .refl s

theorem State.expireNow_sized : Sized s s.expireNow.state := by
  unfold State.expireNow
  split
  · exact s.startCause_sized
  · exact .refl s

theorem State.resumeExpiry_sized : Sized s s.resumeExpiry.state := by
  unfold State.resumeExpiry
  simp only [Answer.ok]
  split
  · exact Sized.trans (.same (by rfl)) (State.walkAgain_sized _)
  · exact .same (by rfl)

theorem State.clearDisputeOf_sized (w q : Nat) : Sized s (s.clearDisputeOf p w q).state := by
  unfold State.clearDisputeOf
  split
  · exact .refl s
  split
  · exact .refl s
  split
  · exact .refl s
  split
  · next h =>
    exact (State.record_sized h _ _ _ _).trans (Catalogued.getD fun t h => State.clearDispute_catalogued h).sized
  · exact .refl s

theorem State.acceptLossOf_sized (w q : Nat) : Sized s (s.acceptLossOf p w q).state := by
  unfold State.acceptLossOf
  split
  · exact .refl s
  split
  · exact .refl s
  split
  · exact .refl s
  split
  · exact .refl s
  split
  · next h =>
    exact (State.record_sized h _ _ _ _).trans (Catalogued.getD fun t h => State.acceptLoss_catalogued h).sized
  · exact .refl s

theorem State.loadClassEntries_sized (profile mode firstByte : Byte) (count : Nat) (entries : List WireClassEntry) :
    Sized s (s.loadClassEntries profile mode firstByte count entries).state := by
  unfold State.loadClassEntries
  split
  · split
    · exact .refl s
    · exact .same (by rfl)
  · exact .refl s

theorem State.loadFieldMap_sized (profile : Byte) (targets : List Byte) (rounding overflow : Byte) :
    Sized s (s.loadFieldMap profile targets rounding overflow).state := by
  unfold State.loadFieldMap
  split
  · split
    · split
      · exact .same (by rfl)
      · exact .refl s
    · exact .refl s
  · exact .refl s

theorem State.setClock_sized (value : Nat) : Sized s (s.setClock p value).state := by
  unfold State.setClock
  split
  · next h => exact State.setClockTo_sized p _ h
  · exact .refl s

theorem State.setRoles_sized (target roles : Byte) : Sized s (s.setRoles p target roles).state := by
  unfold State.setRoles
  split
  · split
    · exact .refl s
    split
    · next h =>
      exact ((State.record_sized h _ _ _ _).trans (.same (by rfl))).trans (State.withdrawRoles_sized _ _ _)
    · exact .refl s
  · exact .refl s

theorem State.setPortSettingsOf_sized (target byteOrder streamTimeout cursorTimeout : Byte) :
    Sized s (s.setPortSettingsOf target byteOrder streamTimeout cursorTimeout).state := by
  unfold State.setPortSettingsOf
  split
  · exact .same (by rfl)
  · exact .refl s

theorem State.fileInfo_sized (w q : Nat) : Sized s (s.fileInfo w q).state := by
  unfold State.fileInfo
  split
  · exact .refl s
  split
  · exact .refl s
  · exact .refl s

theorem State.listFiles_sized (selector firstDay lastDay : Nat) (states : Byte) (start count : Nat) :
    Sized s (s.listFiles selector firstDay lastDay states start count).state := by
  unfold State.listFiles
  split
  · split
    · exact .refl s
    · exact .refl s
  · exact .refl s

theorem State.segmentInfo_sized (n : Nat) : Sized s (s.segmentInfo n).state := by
  unfold State.segmentInfo
  split
  · exact .refl s
  · exact .refl s

end

/-! ## Every command -/

/-- What a command leaves within bounds, for a state within them. -/
def Bounded (s t : State) : Prop := s.withinBounds → t.withinBounds

theorem Sized.bounded {s t : State} (h : Sized s t) : Bounded s t := h.within

theorem Bounded.next {s t u : State} (h : Bounded s u)
    (he : (Host.Outcome.next u : Host.Outcome State Fault Refusal) = .next t) : Bounded s t := by
  cases he
  exact h

theorem State.event_bounded {s : State} {f : State → State} (h : Sized s (f s)) : Bounded s (s.event f) := by
  unfold State.event
  split
  · exact h.bounded
  · exact (Sized.refl s).bounded

/-- A frame that arrives finds a free entry of the table, or is turned away without one (R154). -/
theorem State.receive_bounded (s : State) (p : PortId) (tag : Byte) (formOk always : Bool) {k : State → State}
    (h : Admitted p s (k s)) : Bounded s (s.receive p tag formOk always k) := by
  rcases s.receive_cases p tag formOk always k with ⟨-, he⟩ | ⟨st, -, he⟩ | ⟨st, hb, -, he⟩ | ⟨-, hb, -, he⟩ <;> rw [he]
  · exact (Sized.refl s).bounded
  · exact (s.form_nil_sized p tag st .empty).bounded
  · exact (s.reply_admitted p tag st .empty).within ((s.entryBar_eq_none p tag).mp hb).1
  · exact h.within ((s.entryBar_eq_none p tag).mp hb).1

theorem State.permit_admitted {s : State} {p : PortId} (tag : Byte) (need : RoleSet → Bool) {k : State → State}
    (h : Admitted p s (k s)) : Admitted p s (s.permit p tag need k) := by
  unfold State.permit
  split
  · exact h
  · exact s.reply_admitted p tag _ _

theorem State.request_bounded (s : State) (p : PortId) (tag : Byte) (formOk : Bool) (need : RoleSet → Bool)
    {answer : State → Answer} (h : Sized s (answer s).state) : Bounded s (s.request p tag formOk need answer) :=
  s.receive_bounded p tag formOk false (State.permit_admitted tag need (h.admitted (State.reply_admitted _ p tag _ _)))

theorem State.opening_bounded {α : Type} (s : State) (p : PortId) (tag : Byte) (need : RoleSet → Bool)
    {ask : State → Except Status α} {request : α → OpeningRequest} {answer : α → State → Answer}
    (h : ∀ b, Sized s (answer b s).state) : Bounded s (s.opening p tag need ask request answer) := by
  refine s.receive_bounded p tag true false (State.permit_admitted tag need ?_)
  split
  · exact s.reply_admitted p tag _ _
  · next b _ =>
    split
    · exact (h b).admitted (State.reply_admitted _ p tag _ _)
    · exact (s.takeEntry_admitted p tag .opening).sized (.same (by rfl))

theorem State.nameCursor_admitted {s : State} {p : PortId} (tag cursor : Byte) {held : CursorId → Standing}
    {take : CursorId → State → State} (h : ∀ c, Admitted p s (take c s)) :
    Admitted p s (s.nameCursor p tag cursor held take) := by
  unfold State.nameCursor
  split
  · exact State.permit_admitted tag _ (s.reply_admitted p tag _ _)
  · split
    · exact s.takeEntry_admitted p tag _
    · refine State.permit_admitted tag _ ?_
      split
      · exact h _
      · exact s.reply_admitted p tag _ _

theorem State.writeReport_bounded {s t : State} {effect : StreamId → Nat → State → State}
    (h : ∀ x n, Sized s (effect x n s)) (he : s.writeReport effect = .next t) : Bounded s t := by
  unfold State.writeReport at he
  split at he
  · next x n _ =>
    split at he
    · exact (Sized.refl s).bounded.next he
    split at he
    · exact ((h x n).trans (State.endStore_sized _)).bounded.next he
    · cases he
  · exact (Sized.refl s).bounded.next he

theorem execSweepReadComplete_bounded {s t : State} {report : ReadReport}
    (he : execSweepReadComplete report s = .next t) : Bounded s t := by
  unfold execSweepReadComplete at he
  split at he
  · split at he
    · exact (Sized.refl s).bounded.next he
    split at he
    · exact ((s.sweepRead_sized report).trans (State.endStore_sized _)).bounded.next he
    · cases he
  · exact (Sized.refl s).bounded.next he

theorem execRetrievalReadComplete_bounded {s t : State} {report : ReadReport}
    (he : execRetrievalReadComplete report s = .next t) : Bounded s t := by
  unfold execRetrievalReadComplete at he
  split at he
  · next c n live _ =>
    split at he
    · exact (Sized.refl s).bounded.next he
    split at he
    · exact (s.endRetrievalRead_sized c live report).bounded.next he
    · cases he
  · exact (Sized.refl s).bounded.next he

/-- Every command keeps every queue, log and table within its size. -/
theorem exec_bounded {i : Instr} {s t : State} (h : exec i s = .next t) : Bounded s t := by
  cases i with
  | openFile p tag => exact (s.opening_bounded p tag _ fun b => s.openFileAnswer_sized p b).next h
  | ingestChunk p tag => exact (s.request_bounded p tag _ _ (s.ingestChunk_sized p _ _ _ _)).next h
  | resumeStream p tag => exact (s.request_bounded p tag _ _ (s.resumeStream_sized p _ _ _ _ _ _)).next h
  | abortStream p tag => exact (s.request_bounded p tag _ _ (s.abortStream_sized p _)).next h
  | openCursor p tag => exact (s.opening_bounded p tag _ fun b => s.openCursorAnswer_sized p b).next h
  | fetchRecords p tag cursor count =>
    exact (s.receive_bounded p tag true false
      (State.nameCursor_admitted tag cursor fun c => s.takeFetch_admitted p c tag _)).next h
  | closeCursor p tag cursor =>
    exact (s.receive_bounded p tag true false (State.nameCursor_admitted tag cursor fun c =>
      (s.freeCursorOf_sized c).admitted (State.reply_admitted _ p tag _ _))).next h
  | fetchFindings p tag => exact (s.request_bounded p tag _ _ s.fetchFindings_sized).next h
  | fetchTrail p tag => exact (s.request_bounded p tag _ _ (.refl s)).next h
  | ackTrail p tag => exact (s.request_bounded p tag _ _ (s.ackTrail_sized _)).next h
  | setSweepSettings p tag => exact (s.request_bounded p tag _ _ (s.setSweepSettings_sized _ _ _)).next h
  | startSweep p tag => exact (s.request_bounded p tag _ _ s.startSweep_sized).next h
  | stopSweep p tag => exact (s.request_bounded p tag _ _ (.same (by rfl))).next h
  | stepSweep p tag =>
    exact (s.receive_bounded p tag true false (State.permit_admitted tag _ (s.stepSweep_admitted p tag))).next h
  | restartSweep p tag => exact (s.request_bounded p tag _ _ s.restartSweep_sized).next h
  | loadClassEntries p tag => exact (s.request_bounded p tag _ _ (s.loadClassEntries_sized _ _ _ _ _)).next h
  | loadFieldMap p tag => exact (s.request_bounded p tag _ _ (s.loadFieldMap_sized _ _ _ _)).next h
  | setRetention p tag => exact (s.request_bounded p tag _ _ (s.setRetention_sized p _ _)).next h
  | placeHold p tag => exact (s.request_bounded p tag _ _ (s.placeHold_sized p _ _ _ _ _ _)).next h
  | releaseHold p tag => exact (s.request_bounded p tag _ _ (s.releaseHold_sized p _)).next h
  | expireNow p tag => exact (s.request_bounded p tag _ _ s.expireNow_sized).next h
  | pauseExpiry p tag => exact (s.request_bounded p tag _ _ (.same (by rfl))).next h
  | resumeExpiry p tag => exact (s.request_bounded p tag _ _ s.resumeExpiry_sized).next h
  | clearDispute p tag => exact (s.request_bounded p tag _ _ (s.clearDisputeOf_sized p _ _)).next h
  | acceptLoss p tag => exact (s.request_bounded p tag _ _ (s.acceptLossOf_sized p _ _)).next h
  | setClock p tag => exact (s.request_bounded p tag _ _ (s.setClock_sized p _)).next h
  | setRoles p tag => exact (s.request_bounded p tag _ _ (s.setRoles_sized p _ _)).next h
  | setPortSettings p tag => exact (s.request_bounded p tag _ _ (s.setPortSettingsOf_sized _ _ _ _)).next h
  | moduleReset p tag =>
    have hr : Sized s (s.moduleReset p tag) := Sized.trans (.same (by rfl)) (State.takeReset_sized _)
    have ha : Admitted p s (s.moduleReset p tag) :=
      ⟨hr.toLogged, fun r => Nat.le_add_right_of_le (hr.requests r)⟩
    exact (s.receive_bounded p tag true false (State.permit_admitted tag _ ha)).next h
  | fileInfo p tag => exact (s.request_bounded p tag _ _ (s.fileInfo_sized _ _)).next h
  | listFiles p tag => exact (s.request_bounded p tag _ _ (s.listFiles_sized _ _ _ _ _ _)).next h
  | segmentInfo p tag => exact (s.request_bounded p tag _ _ (s.segmentInfo_sized _)).next h
  | fetchCompletions p tag => exact (s.request_bounded p tag _ _ (s.fetchCompletions_sized p)).next h
  | partStatus p tag => exact (s.receive_bounded p tag true true (s.reply_admitted p tag _ _)).next h
  | unknownRequestFrame p tag kind length body =>
    refine Bounded.next (u := s.unknownFrame p tag kind length body) ?_ h
    unfold State.unknownFrame
    split
    · exact (Sized.refl s).bounded
    · exact s.receive_bounded p tag false false ⟨.refl s, fun r => Nat.le_add_right _ _⟩
  | damagedFrameDiscarded => exact (Sized.refl s).bounded.next h
  | linkLoss p => exact (State.event_bounded (s.linkLost_sized p)).next h
  | linkReset p => exact (State.event_bounded (s.linkReset_sized p)).next h
  | linkEstablished p => exact (State.event_bounded (s.establish_sized p)).next h
  | resetInputAsserted n =>
    refine Bounded.next (State.event_bounded (f := fun s => s.holdReset n) ?_) h
    unfold State.holdReset
    split
    · exact .same (by rfl)
    · exact .refl s
  | resetInputReleased =>
    refine Bounded.next (State.event_bounded (f := State.releaseReset) ?_) h
    unfold State.releaseReset
    split
    · exact s.takeReset_sized
    · exact .refl s
  | powerOn => exact s.powerUp_sized.bounded.next h
  | startupCleanup =>
    refine Bounded.next (State.event_bounded (f := State.startupCleanup) ?_) h
    unfold State.startupCleanup
    split
    · exact s.cleanUp_sized
    · exact .refl s
  | referencePulse half => exact (State.event_bounded (s.pulse_sized half)).next h
  | internalSecond => exact (State.event_bounded s.elapse_sized).next h
  | streamCountdownExpiry x => exact (State.event_bounded (s.streamExpiry_sized x)).next h
  | cursorIdleExpiry c => exact (State.event_bounded (s.cursorExpiry_sized c)).next h
  | sweepRestExpiry =>
    refine Bounded.next (State.event_bounded (f := State.restExpiry) ?_) h
    unfold State.restExpiry
    simp only
    split
    · exact .same (by rfl)
    · exact .refl s
  | streamByte x => exact (State.event_bounded (s.streamByte_sized x)).next h
  | blockedStreamResumed => exact (State.event_bounded s.resumeBlocked_sized).next h
  | completionWaitServed => exact (State.event_bounded s.serveWaitList_sized).next h
  | encoderTakeHead => exact (State.event_bounded s.takeHead_sized).next h
  | storeFullWaitRetry => exact (State.event_bounded s.retryStoreFull_sized).next h
  | imageWaitEnd => exact (State.event_bounded s.endImageWait_sized).next h
  | storeWriteComplete => exact State.writeReport_bounded (effect := fun x n s => s.writeDone x n) s.writeDone_sized h
  | storeWriteError left =>
    exact State.writeReport_bounded (effect := fun x n s => s.writeFailed x n left)
      (fun x n => s.writeFailed_sized x n left) h
  | closeAcknowledgement x => exact (State.event_bounded (s.acknowledgeClose_sized x)).next h
  | closingStreamTrailRetry x => exact (State.event_bounded (s.retryAcceptance_sized x)).next h
  | abortReached x => exact (State.event_bounded (s.tellAbort_sized x)).next h
  | sweepLook => exact (State.event_bounded s.sweepLooks_sized).next h
  | sweepLogRoom => exact (State.event_bounded s.logRoom_sized).next h
  | sweepReadComplete => exact execSweepReadComplete_bounded h
  | retrievalReadComplete => exact execRetrievalReadComplete_bounded h
  | passVisit => exact (State.event_bounded s.passVisit_sized).next h
  | passTrailRetry => exact (State.event_bounded s.passRetry_sized).next h
  | powerLoss => exact (Sized.same (by rfl)).bounded.next h

theorem step_bounded {s t : State} (h : step s = .next t) : Bounded s t := by
  unfold step at h
  split at h
  · exact s.idle_sized.bounded.next h
  · next i rest _ =>
    intro hb
    exact exec_bounded h (Sized.within (s := s) (t := { s with pending := rest }) (.same (by rfl)) hb)

end Sys2Proof.Machine

/-- Settles O6: every operation makes room before it adds to a queue or log, and a request takes an entry of its port's
table only if one is free. -/
theorem sizesKept : Obligations.SizesKept := fun _ _ hb h => step_bounded h hb
end

section
/-! PROOFS. The requests that act on a stream, its abort, and the reasons of a dispute: O22 to O25, O34 and O36. -/

open Sys2Proof Sys2Proof.Machine
namespace Sys2Proof.Machine

/-! ## Operands read -/

theorem readIndex_ofNat {n : Nat} (hn : n ≤ 256) (i : Fin n) : readIndex n (BitVec.ofNat 8 i.val) = some i := by
  have h : (BitVec.ofNat 8 i.val).toNat = i.val := by
    rw [BitVec.toNat_ofNat, Nat.mod_eq_of_lt (by omega)]
  rw [readIndex, dif_pos (by omega)]
  exact congrArg some (Fin.ext h)

theorem readIndex_of_toNat {n : Nat} {b : Byte} {i : Fin n} (h : b.toNat = i.val) : readIndex n b = some i := by
  rw [readIndex, dif_pos (by omega)]
  exact congrArg some (Fin.ext h)

theorem readYesNo_eq_some {b : Byte} (h : b = 0 ∨ b = 1) : readYesNo b = some (decide (b = 1)) := by
  obtain rfl | rfl := h <;> rfl

theorem readYesNo_eq_none {b : Byte} (h : ¬(b = 0 ∨ b = 1)) : readYesNo b = none := by
  rw [not_or] at h
  rw [readYesNo, if_neg h.1, if_neg h.2]

theorem readYesNo_isSome (b : Byte) : (readYesNo b).isSome = true ↔ b.toNat ≤ 1 := by
  by_cases h : b = 0 ∨ b = 1
  · rw [readYesNo_eq_some h]
    exact iff_of_true rfl (by obtain rfl | rfl := h <;> decide)
  · rw [readYesNo_eq_none h]
    exact iff_of_false nofun (by bv_omega)

theorem readUpTo_isSome (limit : Nat) (b : Byte) : (readUpTo limit b).isSome = true ↔ b.toNat ≤ limit := by
  unfold readUpTo
  split <;> simp [*]

theorem readClassKind_isSome (b : Byte) : (readClassKind b).isSome = true ↔ b.toNat ≤ 5 := by
  unfold readClassKind
  split <;> simp_all
  omega

theorem readClassEntry_isSome (kind inc m hold : Byte) :
    (readClassEntry kind inc m hold).isSome = true
      ↔ kind.toNat ≤ 5 ∧ inc.toNat ≤ 1 ∧ m.toNat ≤ 7 ∧ hold.toNat ≤ 1 := by
  rw [← readClassKind_isSome, ← readYesNo_isSome inc, ← readUpTo_isSome, ← readYesNo_isSome hold]
  unfold readClassEntry
  cases readClassKind kind <;> cases readYesNo inc <;> cases readUpTo 7 m <;> cases readYesNo hold <;> simp

theorem readNextMode_eq_some {b : Byte} (h : b.toNat ≤ 7 ∨ b = 255) :
    readNextMode b = some (if b = 255 then none else some b.toNat) := by
  by_cases hb : b = 255
  · subst hb
    rfl
  · have : b.toNat ≠ 255 := fun h => hb (BitVec.toNat_inj.mp h)
    rw [readNextMode, if_neg this, if_pos (h.resolve_right hb), if_neg hb]

theorem readNextMode_eq_none {b : Byte} (h : ¬(b.toNat ≤ 7 ∨ b = 255)) : readNextMode b = none := by
  rw [not_or] at h
  have : b.toNat ≠ 255 := fun e => h.2 (BitVec.toNat_inj.mp e)
  rw [readNextMode, if_neg this, if_neg h.1]

/-! ## INGEST CHUNK (R26, R27) -/

/-- The arguments of a chunk are in range (R26, order 1). -/
def chunkInRange (f m : Byte) (chunk : List Byte) : Prop :=
  (f = 0 ∨ f = 1) ∧ (m.toNat ≤ 7 ∨ m = 255) ∧ 1 ≤ chunk.length ∧ chunk.length ≤ 16384

section
variable {s : State} {p : PortId} {tag : Byte} {x : StreamId} {f m : Byte} {chunk : List Byte}

theorem State.ingestChunk_barred {status : Status} (h : chunkInRange f m chunk)
    (hb : s.streams[x].chunkBar p = some status) :
    s.ingestChunk p (BitVec.ofNat 8 x.val) f m chunk = .refusal status s := by
  obtain ⟨final, mode, least, most⟩ := h
  have length : ¬(chunk.length = 0 ∨ Config.chunkLimit < chunk.length) :=
    not_or.mpr ⟨by omega, Nat.not_lt.mpr most⟩
  simp only [State.ingestChunk, readIndex_ofNat (by decide) x, readYesNo_eq_some final, readNextMode_eq_some mode,
    if_neg length, hb]

/-- A chunk with its arguments in range that nothing bars is stored (R27). -/
theorem State.ingestChunk_stored (h : chunkInRange f m chunk) (hb : s.streams[x].chunkBar p = none) :
    s.ingestChunk p (BitVec.ofNat 8 x.val) f m chunk = .ok .empty (s.updateStream x
      (fun st => st.storeChunk (f = 1) (if m = 255 then none else some m.toNat) chunk)) := by
  obtain ⟨final, mode, least, most⟩ := h
  have length : ¬(chunk.length = 0 ∨ Config.chunkLimit < chunk.length) :=
    not_or.mpr ⟨by omega, Nat.not_lt.mpr most⟩
  simp only [State.ingestChunk, readIndex_ofNat (by decide) x, readYesNo_eq_some final, readNextMode_eq_some mode,
    if_neg length, hb]

theorem State.ingestChunk_outOfRange {y : Byte} (h : 11 < y.toNat ∨ ¬chunkInRange f m chunk) :
    s.ingestChunk p y f m chunk = .refusal .badRequest s := by
  unfold State.ingestChunk
  split
  · next x final mode hy hf hm =>
    refine if_pos ?_
    have hx : y.toNat < 12 := by
      by_contra hlt
      rw [readIndex_eq_none (by omega)] at hy
      cases hy
    have hfinal : f = 0 ∨ f = 1 := by
      by_contra hno
      rw [readYesNo_eq_none hno] at hf
      cases hf
    have hmode : m.toNat ≤ 7 ∨ m = 255 := by
      by_contra hno
      rw [readNextMode_eq_none hno] at hm
      cases hm
    have hlen : ¬(1 ≤ chunk.length ∧ chunk.length ≤ 16384) := fun len =>
      h.elim (by omega) (fun no => no ⟨hfinal, hmode, len⟩)
    simp only [Config.chunkLimit]
    omega
  · rfl

/-- A request whose form or whose arguments are bad is refused BAD_REQUEST (R154, R155). -/
theorem State.request_badRequest {formOk : Bool} {need : RoleSet → Bool} {answer : State → Answer}
    (ha : s.admits p tag) (hr : need (s.roles p) = true) (h : answer s = .refusal .badRequest s) :
    s.request p tag formOk need answer = s.refuse p tag .badRequest := by
  cases formOk with
  | true =>
    rw [State.request_admitted answer ha hr, h]
    rfl
  | false =>
    obtain ⟨on, up, entries, tags, ready, high⟩ := ha
    have he := (State.entryBar_eq_none s p tag).mpr ⟨entries, tags⟩
    have hb : s.frameBar false false = some .badRequest := rfl
    simp only [State.request, State.receive, State.hears, on, up, he, hb, Bool.and_self, if_true]

theorem exec_ingestChunk (y : Byte) (ha : s.admits p tag) (hr : (s.roles p).ingest = true)
    (h : chunk.length ≤ 16384) :
    exec (.ingestChunk p tag y f m chunk) s = .next ((s.ingestChunk p y f m chunk).send p tag) := by
  have form : chunkFormOk chunk = true := decide_eq_true h
  refine congrArg Host.Outcome.next ?_
  rw [form, State.request_admitted _ ha hr]

theorem exec_ingestChunk_outOfRange {y : Byte} (ha : s.admits p tag) (hr : (s.roles p).ingest = true)
    (h : 11 < y.toNat ∨ ¬chunkInRange f m chunk) :
    exec (.ingestChunk p tag y f m chunk) s = .next (s.refuse p tag .badRequest) :=
  congrArg Host.Outcome.next (State.request_badRequest ha hr (State.ingestChunk_outOfRange h))

theorem exec_ingestChunk_refused {status : Status} (ha : s.admits p tag) (hr : (s.roles p).ingest = true)
    (h : chunkInRange f m chunk) (hb : s.streams[x].chunkBar p = some status) :
    exec (.ingestChunk p tag (BitVec.ofNat 8 x.val) f m chunk) s = .next (s.refuse p tag status) := by
  rw [exec_ingestChunk _ ha hr h.2.2.2, State.ingestChunk_barred h hb]
  rfl

/-- What bars a chunk from a port's own stream in use (R26, orders 4 and 5). -/
theorem Stream.chunkBar_own {st : Stream} (busy : st.state ≠ .idle) (own : st.owner = some p) :
    st.chunkBar p =
      (if st.state = .closing ∨ st.state = .aborting ∨ st.settled ∨ st.finalReceived then some .afterFinal
        else if !(st.buffer st.fillNext).isFree then some .buffersFull else none) := by
  rw [Stream.chunkBar, if_neg busy, if_neg (not_not.mpr own)]

theorem Buffer.isFree_iff (b : Buffer) : b.isFree = true ↔ b.bytes = [] := List.isEmpty_iff

/-- The buffer a chunk goes to, named (R27). -/
theorem Stream.fillBuffer_isFree (st : Stream) :
    (st.buffer st.fillNext).isFree = true ↔
      (match st.fillNext with
        | .principal => st.principal.bytes = []
        | .alternate => st.alternate.bytes = []) := by
  rw [Buffer.isFree_iff]
  cases st.fillNext <;> rfl

/-- Nothing bars a chunk from a port's own running stream with a free buffer. -/
theorem Stream.chunkBar_eq_none {st : Stream} (busy : st.state ≠ .idle) (own : st.owner = some p)
    (notClosing : st.state ≠ .closing) (notAborting : st.state ≠ .aborting) (unsettled : st.settled = false)
    (unfinished : st.finalReceived = false) (free : (st.buffer st.fillNext).isFree = true) :
    st.chunkBar p = none := by
  simp [Stream.chunkBar_own busy own, notClosing, notAborting, unsettled, unfinished, free]

/-- A chunk finds its buffer filled (R26, order 5). -/
theorem Stream.chunkBar_full {st : Stream} (busy : st.state ≠ .idle) (own : st.owner = some p)
    (notClosing : st.state ≠ .closing) (notAborting : st.state ≠ .aborting) (unsettled : st.settled = false)
    (unfinished : st.finalReceived = false) (full : (st.buffer st.fillNext).isFree ≠ true) :
    st.chunkBar p = some .buffersFull := by
  simp [Stream.chunkBar_own busy own, notClosing, notAborting, unsettled, unfinished, full]

/-- A chunk stored in either buffer (R27). -/
theorem Stream.storeChunk_eq {st : Stream} (final : Bool) (nextMode : Option Nat) (hf : st.finalReceived = false) :
    st.storeChunk final nextMode chunk =
      (let stored : Buffer := { bytes := chunk, consumed := 0, final := final, nextMode := nextMode }
       let kept : Stream :=
        { st with
          finalReceived := final
          state := if st.state = StreamState.starved then .running else st.state
          countdown := if st.state = StreamState.starved then .stopped else st.countdown }
       match st.fillNext with
        | .principal => { kept with principal := stored, fillNext := .alternate }
        | .alternate => { kept with alternate := stored, fillNext := .principal }) := by
  by_cases starved : st.state = .starved <;> cases hn : st.fillNext <;>
    simp [Stream.storeChunk, Stream.setBuffer, BufferName.other, hn, hf, starved]

end

/-! ## RESUME STREAM (R32) -/

/-- The arguments of a substitute are in range (R32, order 1). -/
def substituteInRange (present kind inc m hold : Byte) : Prop :=
  present = 0 ∨ (present = 1 ∧ kind.toNat ≤ 5 ∧ inc.toNat ≤ 1 ∧ m.toNat ≤ 7 ∧ hold.toNat ≤ 1)

theorem readSubstitute_isSome (present kind inc m hold : Byte) :
    (readSubstitute present kind inc m hold).isSome = true ↔ substituteInRange present kind inc m hold := by
  unfold substituteInRange
  rw [← readClassEntry_isSome]
  by_cases h : present = 0 ∨ present = 1
  · obtain rfl | rfl := h <;> simp [readSubstitute, readYesNo]
  · rw [readSubstitute, readYesNo_eq_none h]
    exact iff_of_false nofun fun hs => h (hs.imp_right And.left)

theorem Stream.resumeBar_notHeld {st : Stream} {p : PortId} (busy : st.state ≠ .idle) (own : st.owner = some p)
    (h : st.state ≠ .held) : st.resumeBar p = some .wrongState := by
  simp [Stream.resumeBar, busy, own, h]

theorem Stream.resumeBar_eq_none {st : Stream} {p : PortId} (own : st.owner = some p) (held : st.state = .held) :
    st.resumeBar p = none := by
  simp [Stream.resumeBar, own, held]

section
variable {s : State} {p : PortId} {tag : Byte} {x : StreamId} {present kind inc m hold : Byte}

theorem exec_resumeStream (y : Byte) (ha : s.admits p tag) (hr : (s.roles p).ingest = true) :
    exec (.resumeStream p tag y present kind inc m hold) s
      = .next ((s.resumeStream p y present kind inc m hold).send p tag) :=
  congrArg Host.Outcome.next (State.request_admitted _ ha hr)

theorem exec_resumeStream_outOfRange {y : Byte} (ha : s.admits p tag) (hr : (s.roles p).ingest = true)
    (h : 11 < y.toNat ∨ ¬substituteInRange present kind inc m hold) :
    exec (.resumeStream p tag y present kind inc m hold) s = .next (s.refuse p tag .badRequest) := by
  rw [exec_resumeStream _ ha hr]
  unfold State.resumeStream
  obtain h | h := h
  · rw [readIndex_eq_none h]
    rfl
  · rw [← readSubstitute_isSome, Option.not_isSome_iff_eq_none] at h
    rw [h]
    cases readIndex 12 y <;> rfl

theorem exec_resumeStream_refused {status : Status} (ha : s.admits p tag) (hr : (s.roles p).ingest = true)
    (h : substituteInRange present kind inc m hold) (hb : s.streams[x].resumeBar p = some status) :
    exec (.resumeStream p tag (BitVec.ofNat 8 x.val) present kind inc m hold) s = .next (s.refuse p tag status) := by
  obtain ⟨substitute, hs⟩ := Option.isSome_iff_exists.mp ((readSubstitute_isSome ..).mpr h)
  rw [exec_resumeStream _ ha hr]
  unfold State.resumeStream
  rw [readIndex_ofNat (by decide) x, hs]
  simp only [hb]
  rfl

/-- A HELD stream of the port is resumed. -/
theorem exec_resumeStream_held {substitute : Option ClassEntry} (ha : s.admits p tag)
    (hr : (s.roles p).ingest = true) (hs : readSubstitute present kind inc m hold = some substitute)
    (own : s.streams[x].owner = some p) (held : s.streams[x].state = .held) :
    exec (.resumeStream p tag (BitVec.ofNat 8 x.val) present kind inc m hold) s
      = .next ((s.resumeHeld x substitute).reply p tag .ok .empty) := by
  have free : s.streams[x].resumeBar p = none := Stream.resumeBar_eq_none own held
  rw [exec_resumeStream _ ha hr]
  unfold State.resumeStream
  rw [readIndex_ofNat (by decide) x, hs]
  simp only [free]
  rfl

end

/-! ## ABORT STREAM and the timeout (R30, R33, R34) -/

/-- The head's wait once an abort has reached the stream whose record waits (R71). -/
def State.abandonedWait (s : State) (x : StreamId) : Option HeadWait :=
  match s.headWait, s.staging with
  | some wait, StagingEntry.record y _ :: _ => if y = x then some .abandoned else some wait
  | wait, _ => wait

theorem State.abandonHead_eq (s : State) (x : StreamId) :
    s.abandonHead x = { s with headWait := s.abandonedWait x } := by
  unfold State.abandonHead State.abandonedWait
  cases hw : s.headWait with
  | none => simp [← hw]
  | some wait =>
    cases hs : s.staging with
    | nil => simp [← hw, ← hs]
    | cons e rest =>
      cases e with
      | record y r =>
        by_cases h : y = x <;> simp [h, ← hw, ← hs]
      | close y => simp [← hw, ← hs]
      | abort y => simp [← hw, ← hs]

/-- A stream whose abort begins at once: its work is discarded and its marker placed (R33). -/
def State.abortedNow (s : State) (x : StreamId) (cause : AbortCause) : State :=
  { s with
    staging := s.staging ++ [StagingEntry.abort x]
    waiting := s.waiting.filter (fun i => i ≠ WaitItem.post x ∧ i ≠ WaitItem.notice x)
    blocked := s.blocked.filter (· ≠ x)
    streams := s.streams.set x
      { s.streams[x] with
        state := .aborting, abortCause := some cause, storeFullNotice := false, countdown := .stopped,
        principal := {}, alternate := {}, heldByte := none, ready := none, pending := none, record := {},
        skip := false, trailerBuild := {}, trailer := none, verdict := none, abortAfterClose := false } }

/-- A CLOSING stream whose close is not acknowledged records the cause and will abort after it (R34). -/
def State.abortedAfterClose (s : State) (x : StreamId) (cause : AbortCause) : State :=
  { s with
    headWait := s.abandonedWait x
    waiting := s.waiting.filter (fun i => i ≠ WaitItem.post x ∧ i ≠ WaitItem.notice x)
    blocked := s.blocked.filter (· ≠ x)
    streams := s.streams.set x
      { s.streams[x] with abortCause := some cause, storeFullNotice := false, abortAfterClose := true } }

section
variable {st : Stream} {p : PortId}

/-- An IDLE stream, and another port's, are refused alike by the three requests (R26, R32, R33). -/
theorem Stream.bars_of_other {status : Status}
    (h : (st.state = .idle ∧ status = .noStream) ∨ (st.state ≠ .idle ∧ st.owner ≠ some p ∧ status = .notOwner)) :
    st.chunkBar p = some status ∧ st.resumeBar p = some status ∧ st.abortBar p = some status := by
  obtain ⟨idle, rfl⟩ | ⟨busy, foreign, rfl⟩ := h
  · simp [Stream.chunkBar, Stream.resumeBar, Stream.abortBar, idle]
  · simp [Stream.chunkBar, Stream.resumeBar, Stream.abortBar, busy, foreign]

theorem Stream.settled_of_closing (h : st.state = .closing) : st.settled = false := by
  simp [Stream.settled, h]

theorem Stream.abortable_iff :
    st.abortable = true ↔ st.state ≠ .idle ∧ st.state ≠ .aborting ∧ (st.state = .closing → st.abortAfterClose = false)
      ∧ st.settled = false := by
  cases h : st.abortAfterClose <;> simp [Stream.abortable, Stream.abortBegun, and_assoc, h]

theorem Stream.abortBar_eq_none (own : st.owner = some p) (h : st.abortable = true) : st.abortBar p = none := by
  simp [Stream.abortBar, (Stream.abortable_iff.mp h).1, own, h]

/-- A stream that is not IDLE and for which no abort may begin is refused STATE (R33). -/
theorem Stream.abortBar_begun (busy : st.state ≠ .idle) (own : st.owner = some p)
    (h : st.state = .aborting ∨ (st.state = .closing ∧ st.abortAfterClose = true) ∨ st.settled = true) :
    st.abortBar p = some .wrongState := by
  have barred : st.abortable ≠ true := fun able => by
    obtain ⟨-, notAborting, closing, unsettled⟩ := Stream.abortable_iff.mp able
    obtain h | ⟨h, after⟩ | h := h
    · exact notAborting h
    · simp [closing h] at after
    · simp [unsettled] at h
  simp [Stream.abortBar, busy, own, barred]

end

section
variable {s : State} {p : PortId} {tag : Byte} {x : StreamId}

theorem State.beginAbort_now (cause : AbortCause)
    (h : s.streams[x].state ≠ .closing ∨ s.streams[x].verdict.isSome = true) :
    s.beginAbort x cause = s.abortedNow x cause := by
  unfold State.beginAbort
  have other : ¬(s.streams[x].state = .closing ∧ s.streams[x].verdict = none) := fun ⟨closing, noVerdict⟩ =>
    h.elim (fun h => h closing) (fun h => by rw [noVerdict] at h; cases h)
  simp only [if_neg other]
  simp only [State.recordCause, State.placeAbort, State.leaveLists, State.updateStream, State.setStream,
    getElem_set_fin, set_set_fin]
  rfl

theorem State.beginAbort_afterClose (cause : AbortCause) (hc : s.streams[x].state = .closing)
    (hv : s.streams[x].verdict = none) : s.beginAbort x cause = s.abortedAfterClose x cause := by
  unfold State.beginAbort
  simp only [if_pos (And.intro hc hv), State.abandonHead_eq]
  simp only [State.recordCause, State.leaveLists, State.updateStream, State.setStream, getElem_set_fin, set_set_fin]
  rfl

theorem exec_abortStream (y : Byte) (ha : s.admits p tag) (hr : (s.roles p).ingest = true) :
    exec (.abortStream p tag y) s = .next ((s.abortStream p y).send p tag) :=
  congrArg Host.Outcome.next (State.request_admitted _ ha hr)

theorem exec_abortStream_outOfRange {y : Byte} (ha : s.admits p tag) (hr : (s.roles p).ingest = true)
    (h : 11 < y.toNat) : exec (.abortStream p tag y) s = .next (s.refuse p tag .badRequest) := by
  rw [exec_abortStream _ ha hr]
  unfold State.abortStream
  rw [readIndex_eq_none h]
  rfl

theorem exec_abortStream_refused {status : Status} (ha : s.admits p tag) (hr : (s.roles p).ingest = true)
    (hb : s.streams[x].abortBar p = some status) :
    exec (.abortStream p tag (BitVec.ofNat 8 x.val)) s = .next (s.refuse p tag status) := by
  rw [exec_abortStream _ ha hr]
  unfold State.abortStream
  rw [readIndex_ofNat (by decide) x]
  simp only [hb]
  rfl

theorem exec_abortStream_begins (ha : s.admits p tag) (hr : (s.roles p).ingest = true)
    (own : s.streams[x].owner = some p) (h : s.streams[x].abortable = true) :
    exec (.abortStream p tag (BitVec.ofNat 8 x.val)) s = .next ((s.beginAbort x .request).reply p tag .ok .empty) := by
  have free : s.streams[x].abortBar p = none := Stream.abortBar_eq_none own h
  rw [exec_abortStream _ ha hr]
  unfold State.abortStream
  rw [readIndex_ofNat (by decide) x]
  simp only [free]
  rfl

theorem exec_streamCountdownExpiry_due (on : s.powered = true) (due : s.streams[x].countdown = .due)
    (h : s.streams[x].state = .starved ∨ s.streams[x].state = .held) :
    exec (.streamCountdownExpiry x) s = .next (s.beginAbort x .timeout) := by
  refine congrArg Host.Outcome.next ?_
  rw [State.event, if_pos on, State.streamExpiry]
  exact if_pos ⟨due, h⟩

end

/-! ## The abort reached (R36) -/

section
variable {s : State} {x : StreamId}

theorem exec_abortReached (on : s.powered = true) (h : s.encodings[x].removal = .done) :
    exec (.abortReached x) s = .next ((s.setEncoding x {}).closeAbort x) := by
  refine congrArg Host.Outcome.next ?_
  rw [State.event, if_pos on, State.tellAbort]
  exact if_pos h

end

end Sys2Proof.Machine

/-- Settles O22: the chunk passes every bar of R26, and storing it is one update of the stream. -/
theorem chunkStoredInNextBuffer : Obligations.ChunkStoredInNextBuffer := by
  intro s p tag x f m chunk ha hr hf hm least most own busy notClosing notAborting unsettled unfinished free
  have inRange : chunkInRange f m chunk := ⟨hf, hm, least, most⟩
  have noBar : s.streams[x].chunkBar p = none :=
    Stream.chunkBar_eq_none busy own notClosing notAborting unsettled unfinished ((Stream.fillBuffer_isFree _).mpr free)
  rw [exec_ingestChunk _ ha hr most, State.ingestChunk_stored inRange noBar]
  simp only [Answer.send, Answer.ok]
  rw [State.updateStream, Stream.storeChunk_eq _ _ unfinished]
  rfl

/-- Settles O23: the held byte is taken under the substitute or under the entry of the profile. -/
theorem resumeTakesHeldByte : Obligations.ResumeTakesHeldByte := by
  intro s p tag x present kind inc m hold h substitute ha hr own held byte read
  have hs : readSubstitute present kind inc m hold = some substitute := by
    obtain ⟨rfl, rfl⟩ | ⟨rfl, given, entry⟩ := read
    · rfl
    · obtain ⟨e, rfl⟩ := Option.isSome_iff_exists.mp given
      simp [readSubstitute, readYesNo, entry]
  rw [exec_resumeStream_held ha hr hs own held]
  unfold State.resumeHeld
  rw [byte]
  rfl

/-- Settles O24: which of the two ways an abort begins is decided by the state CLOSING without a verdict. -/
theorem abortBeginsAtOnce : Obligations.AbortBeginsAtOnce := by
  intro s p tag x
  refine ⟨fun ha hr own => ⟨fun busy notAborting unsettled way => ?_, fun closing noAbort noVerdict => ?_⟩,
    fun on due state => ?_⟩
  · have abortable : s.streams[x].abortable = true := Stream.abortable_iff.mpr
      ⟨busy, notAborting, fun closing => way.elim (absurd closing) And.right, unsettled⟩
    rw [exec_abortStream_begins ha hr own abortable, State.beginAbort_now _ (way.imp_right And.left)]
    rfl
  · have abortable : s.streams[x].abortable = true := Stream.abortable_iff.mpr
      ⟨by rw [closing]; decide, by rw [closing]; decide, fun _ => noAbort, Stream.settled_of_closing closing⟩
    rw [exec_abortStream_begins ha hr own abortable, State.beginAbort_afterClose _ closing noVerdict]
    rfl
  · have notClosing : s.streams[x].state ≠ .closing := by
      obtain h | h := state <;> rw [h] <;> decide
    rw [exec_streamCountdownExpiry_due on due state, State.beginAbort_now _ (.inl notClosing)]
    rfl

/-- Settles O25: each request's bars are the tests of its order, and operands out of range come before them. -/
theorem streamRequestsRefusedInOrder : Obligations.StreamRequestsRefusedInOrder := by
  intro s p tag x f m present kind inc hold chunk ha hr
  refine ⟨fun status other => ?_, fun y => ?_, fun busy own => ⟨fun inRange => ⟨fun after => ?_, ?_⟩, ?_, fun began => ?_⟩⟩
  · obtain ⟨chunkBar, resumeBar, abortBar⟩ := Stream.bars_of_other other
    exact ⟨fun inRange => exec_ingestChunk_refused ha hr inRange chunkBar,
      fun inRange => exec_resumeStream_refused ha hr inRange resumeBar, exec_abortStream_refused ha hr abortBar⟩
  · exact ⟨exec_ingestChunk_outOfRange ha hr, exec_resumeStream_outOfRange ha hr, exec_abortStream_outOfRange ha hr⟩
  · refine exec_ingestChunk_refused ha hr inRange ?_
    rw [Stream.chunkBar_own busy own, if_pos after]
  · intro notClosing notAborting unsettled unfinished full
    refine exec_ingestChunk_refused ha hr inRange
      (Stream.chunkBar_full busy own notClosing notAborting unsettled unfinished fun free => ?_)
    rw [Stream.fillBuffer_isFree] at free
    generalize s.streams[x] = st at full free
    cases hn : st.fillNext <;> simp only [hn] at full free <;> exact full free
  · exact fun inRange notHeld => exec_resumeStream_refused ha hr inRange (Stream.resumeBar_notHeld busy own notHeld)
  · exact exec_abortStream_refused ha hr (Stream.abortBar_begun busy own began)

/-- Settles O34: with a trailer and without one, each reason is the comparison of R39. -/
theorem disputeReasonsByFigures : Obligations.DisputeReasonsByFigures := by
  intro st
  have value : st.dualSum.b * 65536 + st.dualSum.a = st.dualSum.value := rfl
  rw [value]
  cases h : st.trailer <;> simp [Stream.reasons, h]

/-- Settles O36: each cause posts its entry or none, and the post either goes out or waits. -/
theorem abortClosedOutByCause : Obligations.AbortClosedOutByCause := by
  intro s x p w q cause on done own hw hq hc noNotice
  have port : s.streams[x].port = p := by rw [Stream.port, own]; rfl
  have self : (s.setEncoding x {}).setStream x s.streams[x] = s.setEncoding x {} := State.setStream_self rfl
  have posts (d : CompletionDetail) :
      (s.completions.length < 64 → (s.completionsOf p).length < 32 →
        (s.setEncoding x {}).postThen x d .idle = { s with
          encodings := s.encodings.set x {}
          completions := s.completions ++ [⟨p, x, w, q, d⟩]
          waiting := s.waiting.filter (fun i => i ≠ WaitItem.post x ∧ i ≠ WaitItem.notice x)
          blocked := s.blocked.filter (· ≠ x)
          streams := s.streams.set x {} })
        ∧ ((64 ≤ s.completions.length ∨ 32 ≤ (s.completionsOf p).length) →
          (s.setEncoding x {}).postThen x d .idle = { s with
            encodings := s.encodings.set x {}
            waiting := s.waiting ++ [WaitItem.post x]
            streams := s.streams.set x
              { s.streams[x] with state := .posting, pending := some ⟨d, .idle⟩, countdown := .stopped } }) := by
    rw [← self]
    refine ⟨fun h1 h2 => ?_, fun full => ?_⟩
    · have room : (s.setEncoding x {}).completionRoom s.streams[x].port = true := by
        rw [port]
        exact (s.completionRoom_iff p).mpr ⟨h1, h2⟩
      rw [State.postThen_room d .idle room noNotice, port, hw, hq]
      simp only [State.afterPost, State.streamIdle, State.leaveLists, State.setStream, set_set_fin]
      rfl
    · have room : (s.setEncoding x {}).completionRoom s.streams[x].port = false := by
        rw [port, Bool.eq_false_iff]
        exact fun h => absurd ((s.completionRoom_iff p).mp h) (by omega)
      rw [State.postThen_full d .idle room]
      rfl
  have close : (s.setEncoding x {}).streams[x].abortCause = some cause := hc
  rw [exec_abortReached on done]
  unfold State.closeAbort
  rw [close]
  cases cause with
  | portReset =>
    refine ⟨fun _ => ?_, fun _ _ h => absurd rfl h, fun _ h => absurd rfl h⟩
    simp only [List.append_nil]
    rfl
  | request =>
    exact ⟨nofun, fun h1 h2 _ => congrArg _ ((posts _).1 h1 h2), fun h _ => congrArg _ ((posts _).2 h)⟩
  | timeout =>
    exact ⟨nofun, fun h1 h2 _ => congrArg _ ((posts _).1 h1 h2), fun h _ => congrArg _ ((posts _).2 h)⟩
  | roleWithdrawn =>
    exact ⟨nofun, fun h1 h2 _ => congrArg _ ((posts _).1 h1 h2), fun h _ => congrArg _ ((posts _).2 h)⟩
end

section
/-! PROOFS. What a byte, an exhausted buffer and a post do to one stream: O27, O28, O30 to O33 and O39. -/

open Sys2Proof Sys2Proof.Machine
namespace Sys2Proof.Machine

/-! ## Room in the Completion Queue (R41) -/

section
variable {s : State} {x : StreamId} {st : Stream} {p : PortId}

theorem State.completionRoom_full (h : 64 ≤ s.completions.length ∨ 32 ≤ (s.completionsOf p).length) :
    s.completionRoom p = false := by
  rw [Bool.eq_false_iff]
  exact fun room => absurd ((s.completionRoom_iff p).mp room) (by omega)

theorem Stream.port_of_owner (h : st.owner = some p) : st.port = p := by rw [Stream.port, h]; rfl

/-- A stream posts as the owner of its file (R41). -/
theorem State.post_eq {w q : Nat} (d : CompletionDetail) (h : s.streams[x] = st) (own : st.owner = some p)
    (hw : st.switchId = some w) (hq : st.sequence = some q) :
    s.post x d = { s with completions := s.completions ++ [⟨p, x, w, q, d⟩] } := by
  simp only [State.post, h, Stream.port_of_owner own, hw, hq]
  rfl

/-- With room a post is made and the stream goes on (R41). -/
theorem State.postThen_posts {w q : Nat} (d : CompletionDetail) (after : AfterPost) (h : s.streams[x] = st)
    (own : st.owner = some p) (hw : st.switchId = some w) (hq : st.sequence = some q)
    (hn : st.storeFullNotice = false) (hr : s.completionRoom p = true) :
    s.postThen x d after
      = State.afterPost { s with completions := s.completions ++ [⟨p, x, w, q, d⟩] } x after := by
  have port : s.streams[x].port = p := by rw [h, Stream.port_of_owner own]
  rw [State.postThen, State.tryPost_room d (by rw [port]; exact hr) (by rw [h]; exact hn),
    State.post_eq d h own hw hq]

/-- Without room the stream waits with its post (R41, R42). -/
theorem State.postThen_waits (d : CompletionDetail) (after : AfterPost) (h : s.streams[x] = st)
    (own : st.owner = some p) (hr : s.completionRoom p = false) :
    s.postThen x d after
      = { s with
          waiting := s.waiting ++ [WaitItem.post x]
          streams := s.streams.set x
            { st with state := .posting, pending := some ⟨d, after⟩, countdown := .stopped } } := by
  have port : s.streams[x].port = p := by rw [h, Stream.port_of_owner own]
  rw [State.postThen, State.tryPost_full d (by rw [port]; exact hr)]
  simp only [State.waitPost]
  rw [State.updateStream_eq h]
  rfl

end

/-! ## Named buffers (R28) -/

@[simp] theorem BufferName.other_ne (n : BufferName) : n.other ≠ n := by cases n <;> decide

theorem BufferName.eq_other_of_ne {n m : BufferName} (h : n ≠ m) : m = n.other := by
  cases n with
  | principal =>
    cases m with
    | principal => exact absurd rfl h
    | alternate => rfl
  | alternate =>
    cases m with
    | principal => rfl
    | alternate => exact absurd rfl h

/-- Setting a buffer touches the two buffers alone. -/
theorem Stream.setBuffer_eq (st : Stream) (n : BufferName) (b : Buffer) :
    st.setBuffer n b
      = { st with principal := (st.setBuffer n b).principal, alternate := (st.setBuffer n b).alternate } := by
  cases n <;> rfl

@[simp] theorem Stream.buffer_setBuffer (st : Stream) (n : BufferName) (b : Buffer) :
    (st.setBuffer n b).buffer n = b := by cases n <;> rfl

@[simp] theorem Stream.buffer_setBuffer_other (st : Stream) (n : BufferName) (b : Buffer) :
    (st.setBuffer n b).buffer n.other = st.buffer n.other := by cases n <;> rfl

@[simp] theorem Stream.setBuffer_setBuffer (st : Stream) (n : BufferName) (b c : Buffer) :
    (st.setBuffer n b).setBuffer n c = st.setBuffer n c := by cases n <;> rfl

/-! ## What an exhausted buffer brings (R28, R38) -/

/-- The mode the chunk in the current buffer asked for, taken when the buffer is exhausted. -/
def Stream.moved (st : Stream) : Stream := { st with mode := st.current.nextMode.getD st.mode }

/-- An exhausted buffer is freed and the other one is next. -/
def Stream.passedOn (st : Stream) : Stream :=
  { st.moved.setBuffer st.consumeNext {} with consumeNext := st.consumeNext.other }

/-- The stream of an input that has ended (R38). -/
def Stream.closedInput (st : Stream) : Stream :=
  { st with
    state := .closing
    trailer := if st.phase = .trailer then st.trailerBuild.judge else st.trailer
    phase := if st.phase = .trailer then .afterTrailer else st.phase }

/-- A stream that waits for its port, its countdown loaded (R29). -/
def State.waitingStream (s : State) (st : Stream) (state : StreamState) : Stream :=
  { st with state, countdown := .running (10 * (s.settings.ports[st.port].streamTimeout + 1)) }

section
variable {s : State} {x : StreamId} {st : Stream}

theorem State.setStream_stream (s : State) (x : StreamId) (st : Stream) : (s.setStream x st).streams[x] = st :=
  getElem_set_fin ..

theorem State.setStream_setStream (s : State) (x : StreamId) (st u : Stream) :
    (s.setStream x st).setStream x u = s.setStream x u := by
  simp [State.setStream]

theorem State.updateStream_setStream (s : State) (x : StreamId) (st : Stream) (g : Stream → Stream) :
    (s.setStream x st).updateStream x g = s.setStream x (g st) := by
  rw [State.updateStream_eq (s.setStream_stream x st), State.setStream_setStream]

theorem State.enterWaiting_eq (h : s.streams[x] = st) (state : StreamState) :
    s.enterWaiting x state = s.setStream x (s.waitingStream st state) := by
  rw [← State.setStream_self h, State.enterWaiting_setStream, State.setStream_setStream]
  rfl

theorem State.waitingStream_owned {p : PortId} (own : st.owner = some p) (state : StreamState) :
    s.waitingStream st state
      = { st with state, countdown := .running (10 * (s.settings.ports[p].streamTimeout + 1)) } := by
  simp only [State.waitingStream, Stream.port_of_owner own]

theorem State.closeInput_eq (h : s.streams[x] = st) :
    s.closeInput x = { s.setStream x st.closedInput with staging := s.staging ++ [.close x] } := by
  unfold State.closeInput
  rw [State.updateStream_eq h]
  simp only [State.updateStream_setStream]
  unfold Stream.closedInput
  split <;> rfl

/-- With no record to reject the end of input closes the stream (R38). -/
theorem State.endOfInput_closes (h : s.streams[x] = st)
    (ho : ¬(st.phase = .record ∧ st.record.begun = true ∧ st.skip = false)) :
    s.endOfInput x = { s.setStream x st.closedInput with staging := s.staging ++ [.close x] } := by
  unfold State.endOfInput
  simp only [h, Bool.not_eq_true']
  rw [if_neg ho, State.closeInput_eq h]

/-- A begun record is rejected TRUNCATED before the input ends (R38). -/
theorem State.endOfInput_rejects (h : s.streams[x] = st)
    (ho : st.phase = .record ∧ st.record.begun = true ∧ st.skip = false) :
    s.endOfInput x =
      (if (s.rejectRecord x .truncated .endOfInput).2 = true then
        (s.rejectRecord x .truncated .endOfInput).1.closeInput x
      else (s.rejectRecord x .truncated .endOfInput).1) := by
  unfold State.endOfInput
  simp only [h, Bool.not_eq_true']
  rw [if_pos ho]
  obtain ⟨t, b⟩ := s.rejectRecord x .truncated .endOfInput
  cases b <;> rfl

theorem State.exhaust_notRunning (h : s.streams[x] = st) (hr : st.state ≠ .running) : s.exhaust x = s := by
  unfold State.exhaust
  simp only [h]
  exact if_neg fun all => hr all.1

variable {n : BufferName}

theorem Stream.nextByte_isSome_iff (hn : st.consumeNext = n) :
    st.nextByte.isSome = true ↔ (st.buffer n).consumed < (st.buffer n).bytes.length := by
  subst hn
  simp [Stream.nextByte, Stream.current]

/-- A stream runs and its current buffer, which holds a chunk, is consumed. -/
structure Stream.Exhausts (st : Stream) (n : BufferName) : Prop where
  running : st.state = .running
  current : st.consumeNext = n
  filled : (st.buffer n).bytes ≠ []
  consumed : (st.buffer n).bytes.length ≤ (st.buffer n).consumed

theorem Stream.Exhausts.guard (e : st.Exhausts n) :
    st.state = .running ∧ (!st.current.isFree) = true ∧ st.current.bytes.length ≤ st.current.consumed := by
  obtain ⟨running, rfl, filled, consumed⟩ := e
  refine ⟨running, ?_, consumed⟩
  rw [Bool.not_eq_true', Bool.eq_false_iff, Ne, Buffer.isFree_iff]
  exact filled

/-- Behind the final chunk the input ends (R28). -/
theorem State.exhaust_final (h : s.streams[x] = st) (e : st.Exhausts n) (hf : (st.buffer n).final = true) :
    s.exhaust x = (s.setStream x st.moved).endOfInput x := by
  have guard := e.guard
  obtain ⟨-, rfl, -⟩ := e
  unfold State.exhaust
  simp only [h]
  rw [if_pos guard, show st.current.final = true from hf]
  simp only [State.updateStream_eq h]
  rfl

theorem Stream.passedOn_nextByte (hn : st.consumeNext = n) :
    st.passedOn.nextByte.isSome = true ↔ (st.buffer n.other).consumed < (st.buffer n.other).bytes.length := by
  rw [Stream.nextByte_isSome_iff (n := n.other) (by rw [Stream.passedOn, hn])]
  subst hn
  have kept : st.passedOn.buffer st.consumeNext.other = st.buffer st.consumeNext.other := by
    unfold Stream.passedOn
    cases st.consumeNext <;> rfl
  rw [kept]

theorem State.exhaust_passes (h : s.streams[x] = st) (e : st.Exhausts n) (hf : (st.buffer n).final = false) :
    s.exhaust x =
      (if st.passedOn.nextByte.isSome = true then s.setStream x st.passedOn
      else (s.setStream x st.passedOn).enterWaiting x .starved) := by
  have guard := e.guard
  obtain ⟨-, rfl, -⟩ := e
  unfold State.exhaust
  simp only [h]
  rw [if_pos guard, show st.current.final = false from hf]
  simp only [State.updateStream_eq h, State.updateStream_setStream, State.setStream_stream]
  rfl

/-- The other buffer holds unconsumed bytes: the stream runs on from it (R28). -/
theorem State.exhaust_runsOn (h : s.streams[x] = st) (e : st.Exhausts n) (hf : (st.buffer n).final = false)
    (hb : (st.buffer n.other).consumed < (st.buffer n.other).bytes.length) :
    s.exhaust x = s.setStream x st.passedOn := by
  rw [State.exhaust_passes h e hf, if_pos ((Stream.passedOn_nextByte e.current).mpr hb)]

/-- The other buffer holds none: the stream is STARVED (R28, R29). -/
theorem State.exhaust_starves (h : s.streams[x] = st) (e : st.Exhausts n) (hf : (st.buffer n).final = false)
    (hb : (st.buffer n.other).bytes.length ≤ (st.buffer n.other).consumed) :
    s.exhaust x = s.setStream x (s.waitingStream st.passedOn .starved) := by
  have none : ¬st.passedOn.nextByte.isSome = true := fun some =>
    absurd ((Stream.passedOn_nextByte e.current).mp some) (by omega)
  rw [State.exhaust_passes h e hf, if_neg none, State.enterWaiting_setStream]
  rfl

end

/-! ## What the work of a byte leaves alone -/

/-- What a stream takes its bytes from, and for whom. -/
def Stream.intake (st : Stream) : Option PortId × Buffer × Buffer × BufferName :=
  (st.owner, st.principal, st.alternate, st.consumeNext)

/-- The settings, and the intake of one stream, are as before. -/
structure IntakeKept (x : StreamId) (s t : State) : Prop where
  settings : t.settings = s.settings
  intake : t.streams[x].intake = s.streams[x].intake

namespace IntakeKept

theorem refl (x : StreamId) (s : State) : IntakeKept x s s := ⟨rfl, rfl⟩

theorem trans {x : StreamId} {s t u : State} (h : IntakeKept x s t) (k : IntakeKept x t u) : IntakeKept x s u :=
  ⟨k.settings.trans h.settings, k.intake.trans h.intake⟩

/-- An update of the stream that leaves its intake alone. -/
theorem update {x : StreamId} {s : State} {f : Stream → Stream} (h : ∀ st, (f st).intake = st.intake) :
    IntakeKept x s (s.updateStream x f) :=
  ⟨rfl, by rw [State.updateStream, State.setStream_stream, h]⟩

theorem same {x : StreamId} {s t : State} (hs : t.settings = s.settings) (h : t.streams = s.streams) :
    IntakeKept x s t := ⟨hs, by rw [h]⟩

end IntakeKept

section
variable (s : State) (x : StreamId)

theorem State.postNotice_intake : IntakeKept x s (s.postNotice x) := by
  obtain ⟨-, -, h⟩ | h := s.postNotice_cases x
  · rw [h]
    have posted : IntakeKept x s (s.post x .storeFull) := .same rfl rfl
    exact (posted.trans (.update (f := fun st => { st with storeFullNotice := false }) fun _ => rfl)).trans
      (.same rfl rfl)
  · rw [h]
    exact .refl x s

theorem State.tryPost_intake (d : CompletionDetail) : IntakeKept x s (s.tryPost x d).1 := by
  obtain ⟨-, h⟩ | h := s.tryPost_cases x d
  · rw [h]
    exact (s.postNotice_intake x).trans (.same rfl rfl)
  · rw [h]
    exact s.postNotice_intake x

theorem State.waitPost_intake (d : CompletionDetail) (after : AfterPost) : IntakeKept x s (s.waitPost x d after) :=
  IntakeKept.trans
    (.update (f := fun st => { st with state := .posting, pending := some ⟨d, after⟩, countdown := .stopped })
      fun _ => rfl) (.same rfl rfl)

/-- The stream a rejected record leaves (R66), not posted for. -/
def Stream.recordDropped (st : Stream) : Stream :=
  { st with rejected := min (st.rejected + 1) Config.rejectedLimit, firstRejectPosted := true,
            record := {}, skip := false }

/-- A rejection counts and drops the record, and posts for the file's first one (R66). -/
theorem State.rejectRecord_eq (reason : RejectReason) (after : AfterPost) :
    s.rejectRecord x reason after =
      (if s.streams[x].firstRejectPosted = true then (s.updateStream x Stream.recordDropped, true)
      else
        let d := CompletionDetail.recordRejected (s.streams[x].accepted + s.streams[x].rejected) reason
        let r := (s.updateStream x Stream.recordDropped).tryPost x d
        if r.2 = true then r else (r.1.waitPost x d after, false)) := by
  unfold State.rejectRecord
  simp only
  split
  · rfl
  · change (match (s.updateStream x Stream.recordDropped).tryPost x _ with
      | (t, true) => (t, true)
      | (t, false) => (t.waitPost x _ after, false)) = _
    obtain ⟨t, b⟩ := (s.updateStream x Stream.recordDropped).tryPost x
      (CompletionDetail.recordRejected (s.streams[x].accepted + s.streams[x].rejected) reason)
    cases b <;> rfl

theorem State.rejectRecord_intake (reason : RejectReason) (after : AfterPost) :
    IntakeKept x s (s.rejectRecord x reason after).1 := by
  have dropped : IntakeKept x s (s.updateStream x Stream.recordDropped) := .update fun _ => rfl
  rw [State.rejectRecord_eq]
  split
  · exact dropped
  · simp only
    split
    · exact dropped.trans (State.tryPost_intake _ x _)
    · exact (dropped.trans (State.tryPost_intake _ x _)).trans (State.waitPost_intake _ x _ _)

theorem State.handRecord_intake (r : CallRecord) : IntakeKept x s (s.handRecord x r) := by
  unfold State.handRecord
  split
  · exact IntakeKept.trans (.update (f := fun st =>
      { st with accepted := st.accepted + 1, duration := min (st.duration + r.duration) Config.durationLimit })
      fun _ => rfl) (.same rfl rfl)
  · exact IntakeKept.trans (.update (f := fun st => { st with state := .blocked, ready := some r }) fun _ => rfl)
      (.same rfl rfl)

theorem State.endRecord_intake : IntakeKept x s (s.endRecord x) := by
  unfold State.endRecord
  simp only
  split
  · exact .update fun _ => rfl
  split
  · exact s.rejectRecord_intake x _ _
  split
  · exact s.rejectRecord_intake x _ _
  · exact IntakeKept.trans (.update (f := fun st => { st with record := {} }) fun _ => rfl)
      (State.handRecord_intake _ x _)

theorem State.recordByte_intake (kind : ClassKind) (b : Byte) : IntakeKept x s (s.recordByte x kind b) := by
  cases kind with
  | data => exact .update (f := fun st => { st with record := st.record.addData b }) fun _ => rfl
  | separator => exact .update (f := fun st => { st with record := st.record.nextColumn }) fun _ => rfl
  | recordEnd => exact s.endRecord_intake x
  | skip => exact .refl x s
  | trailerStart =>
    unfold State.recordByte State.startTrailer
    refine IntakeKept.trans ?_ (.update fun _ => rfl)
    split
    · exact s.rejectRecord_intake x _ _
    · exact .refl x s
  | illegal =>
    exact (s.rejectRecord_intake x .illegalByte .running).trans
      (.update (f := fun st => { st with record := {}, skip := true }) fun _ => rfl)

end

/-! ## One byte (R51) -/

/-- The stream once a byte is consumed under a class entry, before the work of its kind (R51). -/
def Stream.taken (st : Stream) (e : ClassEntry) (b : Byte) : Stream :=
  { st.advance with
    dualSum := if st.phase = .record ∧ e.includeInCheck ∧ st.effectiveKind e ≠ .trailerStart then st.dualSum.feed b
               else st.dualSum
    mode := e.nextMode }

theorem Stream.trailerByte_intake (st : Stream) (kind : ClassKind) (b : Byte) :
    (st.trailerByte kind b).intake = st.intake := by cases kind <;> rfl

section
variable {s : State} {x : StreamId} {st : Stream} {e : ClassEntry} {b : Byte}

theorem Stream.advance_eq {n : BufferName} (hn : st.consumeNext = n) :
    st.advance = st.setBuffer n { st.buffer n with consumed := (st.buffer n).consumed + 1 } := by
  subst hn
  rfl

theorem State.takeByte_record (h : s.streams[x] = st) (hp : st.phase = .record) :
    s.takeByte x e b = (s.setStream x (st.taken e b)).recordByte x (st.effectiveKind e) b := by
  unfold State.takeByte
  simp only [h, hp, if_true]
  rw [State.updateStream_eq h]
  simp only [Stream.taken, hp]

theorem Stream.advance_phase (st : Stream) : st.advance.phase = st.phase := by
  unfold Stream.advance Stream.setBuffer
  cases st.consumeNext <;> rfl

theorem State.takeByte_trailer (h : s.streams[x] = st) (hp : st.phase = .trailer) :
    s.takeByte x e b = s.setStream x ((st.taken e b).trailerByte e.kind b) := by
  have kind : st.effectiveKind e = e.kind := by simp [Stream.effectiveKind, hp]
  unfold State.takeByte
  simp only [h, hp, reduceCtorEq, if_false]
  rw [State.updateStream_eq h, State.updateStream_setStream, kind]
  simp only [Stream.taken, hp, reduceCtorEq, false_and, if_false]

theorem Stream.taken_intake (st : Stream) (e : ClassEntry) (b : Byte) : (st.taken e b).intake = st.advance.intake :=
  rfl

/-- The work of a byte changes its buffer by the byte's consumption alone (R51). -/
theorem State.takeByte_intake (h : s.streams[x] = st) (hp : st.phase ≠ .afterTrailer) :
    IntakeKept x (s.setStream x st.advance) (s.takeByte x e b) := by
  have taken : IntakeKept x (s.setStream x st.advance) (s.setStream x (st.taken e b)) :=
    ⟨rfl, by rw [State.setStream_stream, State.setStream_stream, Stream.taken_intake]⟩
  match hphase : st.phase with
  | .record =>
    rw [State.takeByte_record h hphase]
    exact taken.trans (State.recordByte_intake _ x _ _)
  | .trailer =>
    rw [State.takeByte_trailer h hphase]
    refine ⟨rfl, ?_⟩
    rw [State.setStream_stream, State.setStream_stream, Stream.trailerByte_intake, Stream.taken_intake]
  | .afterTrailer => exact absurd hphase hp

theorem Stream.nextByte_of_intake {st u : Stream} (h : u.intake = st.intake) : u.nextByte = st.nextByte := by
  simp only [Stream.intake, Prod.mk.injEq] at h
  obtain ⟨-, hp, ha, hn⟩ := h
  unfold Stream.nextByte Stream.current Stream.buffer
  rw [hp, ha, hn]

theorem exec_streamByte (on : s.powered = true) : exec (.streamByte x) s = .next (s.streamByte x) := by
  refine congrArg Host.Outcome.next ?_
  rw [State.event, if_pos on]

/-- A RUNNING stream takes a byte that is not held, and passes an exhausted buffer on (R51, R28). -/
theorem State.streamByte_takes (h : s.streams[x] = st) (hr : st.state = .running) (hb : st.nextByte = some b)
    (hp : st.phase ≠ .afterTrailer) (he : s.classEntry x b = e) (hh : e.hold = false) :
    s.streamByte x = (s.takeByte x e b).exhaust x := by
  unfold State.streamByte
  simp only [h, hr, hb, hp, he, hh, ne_eq, not_true_eq_false, if_false, Bool.false_eq_true]

/-- Behind the trailer a byte is only consumed (R51). -/
theorem State.streamByte_passesOver (h : s.streams[x] = st) (hr : st.state = .running)
    (hb : st.nextByte.isSome = true) (hp : st.phase = .afterTrailer) :
    s.streamByte x = (s.setStream x st.advance).exhaust x := by
  obtain ⟨b, hb⟩ := Option.isSome_iff_exists.mp hb
  unfold State.streamByte
  simp only [h, hr, hb, hp, ne_eq, not_true_eq_false, if_false, if_true]
  rw [State.updateStream_eq h]

/-- A hold byte stops the stream before it (R31). -/
theorem State.streamByte_holds (h : s.streams[x] = st) (hr : st.state = .running) (hb : st.nextByte = some b)
    (hp : st.phase ≠ .afterTrailer) (he : s.classEntry x b = e) (hh : e.hold = true) :
    s.streamByte x = s.holdByte x e b := by
  unfold State.streamByte
  simp only [h, hr, hb, hp, he, hh, ne_eq, not_true_eq_false, if_false, if_true]

theorem Stream.nextByte_eq {n : BufferName} (hn : st.consumeNext = n)
    (hb : (st.buffer n).bytes[(st.buffer n).consumed]? = some b) : st.nextByte = some b := by
  subst hn
  exact hb

theorem Stream.advance_nextByte {n : BufferName} (hn : st.consumeNext = n)
    (hl : (st.buffer n).consumed + 1 < (st.buffer n).bytes.length) : st.advance.nextByte.isSome = true := by
  have same : st.advance.consumeNext = n := by
    rw [Stream.advance_eq hn]
    cases n <;> exact hn
  rw [Stream.nextByte_isSome_iff same, Stream.advance_eq hn, Stream.buffer_setBuffer]
  exact hl

/-- A byte that is neither held nor the last of its buffer does the work of its kind and no more (R51). -/
theorem exec_streamByte_inside {n : BufferName} (on : s.powered = true) (h : s.streams[x] = st)
    (hr : st.state = .running) (hn : st.consumeNext = n)
    (hb : (st.buffer n).bytes[(st.buffer n).consumed]? = some b)
    (hl : (st.buffer n).consumed + 1 < (st.buffer n).bytes.length) (hp : st.phase ≠ .afterTrailer)
    (he : s.classEntry x b = e) (hh : e.hold = false) : exec (.streamByte x) s = .next (s.takeByte x e b) := by
  have kept := State.takeByte_intake (e := e) (b := b) h hp
  have further : (s.takeByte x e b).streams[x].nextByte.isSome = true := by
    rw [Stream.nextByte_of_intake kept.intake, State.setStream_stream]
    exact Stream.advance_nextByte hn hl
  rw [exec_streamByte on, State.streamByte_takes h hr (Stream.nextByte_eq hn hb) hp he hh,
    State.exhaust_of_nextByte further]

end

end Sys2Proof.Machine
end

section
/-! PROOFS. The bytes of a record, held bytes and rejects: O27, O28 and O30. -/

open Sys2Proof Sys2Proof.Machine
namespace Sys2Proof.Machine

/-! ## Effective kinds and the dual-sum (R51) -/

section
variable {st : Stream} {e : ClassEntry} {b : Byte} {n : BufferName}

theorem Stream.effectiveKind_plain (hs : st.skip = false) : st.effectiveKind e = e.kind := by
  simp [Stream.effectiveKind, hs]

theorem Stream.effectiveKind_recordEnd (hk : e.kind = .recordEnd) : st.effectiveKind e = .recordEnd := by
  simp [Stream.effectiveKind, hk]

theorem Stream.effectiveKind_skipping (hp : st.phase = .record) (hs : st.skip = true) (hk : e.kind ≠ .recordEnd) :
    st.effectiveKind e = .skip := by
  simp [Stream.effectiveKind, hp, hs, hk]

/-- A stream that has consumed a byte under a class entry, fed to the dual-sum or not. -/
def Stream.consumed (st : Stream) (e : ClassEntry) (b : Byte) (feed : Bool) : Stream :=
  { st.advance with
    mode := e.nextMode
    dualSum := if feed = true then st.dualSum.feed b else st.dualSum }

theorem Stream.taken_fed (hp : st.phase = .record) (hk : st.effectiveKind e ≠ .trailerStart) :
    st.taken e b = st.consumed e b e.includeInCheck := by
  simp [Stream.taken, Stream.consumed, hp, hk]

theorem Stream.taken_unfed (hk : st.phase ≠ .record ∨ st.effectiveKind e = .trailerStart) :
    st.taken e b = st.consumed e b false := by
  have unfed : ¬(st.phase = .record ∧ e.includeInCheck = true ∧ st.effectiveKind e ≠ .trailerStart) :=
    fun ⟨phase, _, kind⟩ => hk.elim (absurd phase) kind
  simp [Stream.taken, Stream.consumed, unfed]

/-! ## Rejects (R66) -/

theorem Stream.recordDropped_posted (h : st.firstRejectPosted = true) :
    st.recordDropped
      = { st with rejected := min (st.rejected + 1) 4294967295, record := {}, skip := false } := by
  obtain ⟨⟩ := st
  cases h
  rfl

end

section
variable {s : State} {x : StreamId} {st : Stream} {p : PortId} {w q : Nat}

theorem State.rejectRecord_again (reason : RejectReason) (after : AfterPost) (h : s.streams[x] = st)
    (hf : st.firstRejectPosted = true) :
    s.rejectRecord x reason after = (s.setStream x st.recordDropped, true) := by
  rw [State.rejectRecord_eq, h, if_pos hf, State.updateStream_eq h]

/-- The first reject of a file posts for it (R66). -/
theorem State.rejectRecord_posts (reason : RejectReason) (after : AfterPost) (h : s.streams[x] = st)
    (hf : st.firstRejectPosted = false) (own : st.owner = some p) (hw : st.switchId = some w)
    (hq : st.sequence = some q) (hn : st.storeFullNotice = false) (hr : s.completionRoom p = true) :
    s.rejectRecord x reason after =
      ({ s.setStream x st.recordDropped with
          completions := s.completions ++ [⟨p, x, w, q, .recordRejected (st.accepted + st.rejected) reason⟩] },
        true) := by
  have dropped := s.setStream_stream x st.recordDropped
  have port : (s.setStream x st.recordDropped).streams[x].port = p := by
    rw [dropped]
    exact Stream.port_of_owner own
  rw [State.rejectRecord_eq, h, if_neg (by rw [hf]; decide), State.updateStream_eq h]
  simp only
  rw [State.tryPost_room _ (by rw [port]; exact hr) (by rw [dropped]; exact hn), State.post_eq _ dropped own hw hq]
  rfl

/-- The first reject of a file waits for room, counted all the same (R41, R66). -/
theorem State.rejectRecord_waits (reason : RejectReason) (after : AfterPost) (h : s.streams[x] = st)
    (hf : st.firstRejectPosted = false) (own : st.owner = some p) (hr : s.completionRoom p = false) :
    s.rejectRecord x reason after =
      ({ s with
          waiting := s.waiting ++ [WaitItem.post x]
          streams := s.streams.set x
            { st.recordDropped with
              state := .posting, countdown := .stopped
              pending := some ⟨.recordRejected (st.accepted + st.rejected) reason, after⟩ } }, false) := by
  have dropped := s.setStream_stream x st.recordDropped
  have port : (s.setStream x st.recordDropped).streams[x].port = p := by
    rw [dropped]
    exact Stream.port_of_owner own
  rw [State.rejectRecord_eq, h, if_neg (by rw [hf]; decide), State.updateStream_eq h]
  simp only
  rw [State.tryPost_full _ (by rw [port]; exact hr)]
  simp only [Bool.false_eq_true, if_false, State.waitPost, State.updateStream_setStream]
  rfl

/-! ## The end of a record (R55, R60, R67) -/

theorem State.endRecord_empties (h : s.streams[x] = st) (he : st.skip = true ∨ st.record.begun = false) :
    s.endRecord x = s.setStream x { st with record := {}, skip := false } := by
  unfold State.endRecord
  simp only [h, Bool.not_eq_true']
  rw [if_pos he, State.updateStream_eq h]

/-- The record under construction converted by the file's day and key and the profile's map (R60). -/
def State.conversion (s : State) (st : Stream) : Except RejectReason CallRecord :=
  let map := s.settings.profiles[st.profile.getD 0].map
  match s.file (st.fileIndex.getD 0) with
  | some f => convertRecord f.fileDay f.overflow map st.record
  | none => convertRecord 0 .reject map st.record

theorem State.conversion_of_file {f : File} (h : s.file (st.fileIndex.getD 0) = some f) :
    s.conversion st = convertRecord f.fileDay f.overflow s.settings.profiles[st.profile.getD 0].map st.record := by
  unfold State.conversion
  simp only [h]

theorem State.endRecord_rejects {reason : RejectReason} (h : s.streams[x] = st) (hs : st.skip = false)
    (hb : st.record.begun = true) (hc : s.conversion st = .error reason) :
    s.endRecord x = (s.rejectRecord x reason .running).1 := by
  unfold State.conversion at hc
  unfold State.endRecord
  simp only [h, hs, hb, Bool.false_eq_true, Bool.not_true, or_self, if_false]
  cases hf : s.file (st.fileIndex.getD 0) <;> simp only [hf] at hc ⊢ <;> rw [hc]

theorem State.endRecord_converts {r : CallRecord} (h : s.streams[x] = st) (hs : st.skip = false)
    (hb : st.record.begun = true) (hc : s.conversion st = .ok r) :
    s.endRecord x =
      (if 16777215 ≤ st.accepted then (s.rejectRecord x .fileLimit .running).1
      else (s.setStream x { st with record := {} }).handRecord x r) := by
  rw [← State.updateStream_eq h (fun st => { st with record := {} })]
  unfold State.conversion at hc
  unfold State.endRecord
  simp only [h, hs, hb, Bool.false_eq_true, Bool.not_true, or_self, if_false]
  cases hf : s.file (st.fileIndex.getD 0) <;> simp only [hf] at hc ⊢ <;> rw [hc]

/-! ## A held byte (R31) -/

/-- A stream with a byte before which it stops. -/
def Stream.holding (st : Stream) (b : Byte) : Stream := { st with heldByte := some ⟨b, none⟩ }

theorem State.holdByte_eq {e : ClassEntry} {b : Byte} (h : s.streams[x] = st) :
    s.holdByte x e b = (s.setStream x (st.holding b)).postThen x (.mark b st.mode e) .held := by
  unfold State.holdByte
  simp only [h]
  rw [State.updateStream_eq h]
  rfl

/-! ## A trailer start (R57) -/

theorem State.startTrailer_begun (h : s.streams[x] = st) (hb : st.record.begun = true) :
    s.startTrailer x = (s.rejectRecord x .truncated .running).1.updateStream x
      (fun st => { st with record := {}, phase := .trailer, trailerBuild := {} }) := by
  unfold State.startTrailer
  simp only [h, hb, if_true]

theorem State.startTrailer_empty (h : s.streams[x] = st) (hb : st.record.begun = false) :
    s.startTrailer x = s.setStream x { st with record := {}, phase := .trailer, trailerBuild := {} } := by
  unfold State.startTrailer
  simp only [h, hb, Bool.false_eq_true, if_false]
  rw [State.updateStream_eq h]

end

section
variable {s : State} {x : StreamId} {st : Stream} {n : BufferName} {b : Byte} {e : ClassEntry}

theorem State.classEntry_eq (h : s.streams[x] = st) (b : Byte) :
    s.classEntry x b = Sparse.get {} (st.mode * 256 + b.toNat) s.settings.profiles[st.profile.getD 0].classes := by
  subst h
  rfl

/-- The field a DATA byte of a trailer joins, by its number (R58). -/
theorem TrailerBuild.addData_first {t : TrailerBuild} (h : t.field = 1) :
    t.addData b = if t.text1.length < 32 then { t with text1 := t.text1 ++ [b] } else { t with bad := true } := by
  simp [TrailerBuild.addData, h]

theorem TrailerBuild.addData_second {t : TrailerBuild} (h : t.field = 2) :
    t.addData b = if t.text2.length < 32 then { t with text2 := t.text2 ++ [b] } else { t with bad := true } := by
  simp [TrailerBuild.addData, h]

theorem TrailerBuild.addData_third {t : TrailerBuild} (h : t.field = 3) :
    t.addData b = if t.text3.length < 32 then { t with text3 := t.text3 ++ [b] } else { t with bad := true } := by
  simp [TrailerBuild.addData, h]

theorem TrailerBuild.addData_beyond {t : TrailerBuild} (h : 4 ≤ t.field) : t.addData b = t := by
  unfold TrailerBuild.addData
  split
  · omega
  · omega
  · omega
  · rfl

/-- What `exec_streamByte_inside` asks: a RUNNING stream's next byte is neither held nor the last of its buffer. -/
structure State.ByteInside (s : State) (x : StreamId) (st : Stream) (n : BufferName) (b : Byte) (e : ClassEntry) :
    Prop where
  powered : s.powered = true
  stream : s.streams[x] = st
  running : st.state = .running
  current : st.consumeNext = n
  next : (st.buffer n).bytes[(st.buffer n).consumed]? = some b
  further : (st.buffer n).consumed + 1 < (st.buffer n).bytes.length
  entry : s.classEntry x b = e
  hold : e.hold = false

theorem State.ByteInside.exec_record {k : ClassKind} (h : s.ByteInside x st n b e) (hp : st.phase = .record)
    (hk : st.effectiveKind e = k) :
    exec (.streamByte x) s = .next ((s.setStream x (st.taken e b)).recordByte x k b) := by
  rw [exec_streamByte_inside h.powered h.stream h.running h.current h.next h.further (by rw [hp]; decide) h.entry h.hold,
    State.takeByte_record h.stream hp, hk]

theorem State.ByteInside.exec_trailer (h : s.ByteInside x st n b e) (hp : st.phase = .trailer) :
    exec (.streamByte x) s = .next (s.setStream x ((st.consumed e b false).trailerByte e.kind b)) := by
  rw [exec_streamByte_inside h.powered h.stream h.running h.current h.next h.further (by rw [hp]; decide) h.entry h.hold,
    State.takeByte_trailer h.stream hp, Stream.taken_unfed (.inl (by rw [hp]; decide))]

/-- A byte of a record that is not a trailer start is fed before its kind's work (R51, R52). -/
theorem State.ByteInside.exec_fed {k : ClassKind} (h : s.ByteInside x st n b e) (hp : st.phase = .record)
    (hk : st.effectiveKind e = k) (hne : k ≠ .trailerStart) :
    exec (.streamByte x) s
      = .next ((s.setStream x (st.consumed e b e.includeInCheck)).recordByte x k b) := by
  rw [h.exec_record hp hk, Stream.taken_fed hp (by rw [hk]; exact hne)]

end

end Sys2Proof.Machine

/-- Settles O27: in each phase the byte's consumption, its feeding and the work of its kind are one update of the stream. -/
theorem dataByteJoinsColumn : Obligations.DataByteJoinsColumn := by
  refine ⟨fun s x st n b e on h hr hn hb hl he hh => ?_, fun s x st n on h hr hn hp hl => ?_⟩
  · intro becomes fed t
    have inside : s.ByteInside x st n b e :=
      ⟨on, h, hr, hn, hb, hl, (State.classEntry_eq h b).trans he, hh⟩
    have advance := Stream.advance_eq hn
    have record (k : ClassKind) (f : RecordBuild → RecordBuild) (hp : st.phase = .record)
        (hk : st.effectiveKind e = k) (hne : k ≠ .trailerStart)
        (works : ∀ u : Stream, (s.setStream x u).recordByte x k b = s.setStream x { u with record := f u.record }) :
        becomes { fed with record := f st.record } := by
      change exec _ s = _
      rw [inside.exec_fed hp hk hne, works, Stream.consumed, advance]
      cases n <;> rfl
    have trailer {k : ClassKind} {u : Stream} (hp : st.phase = .trailer) (hk : e.kind = k)
        (hu : st.trailerByte k b = u) : becomes u := by
      change exec _ s = _
      rw [inside.exec_trailer hp, hk, ← hu, Stream.consumed, advance]
      cases n <;> cases k <;> rfl
    have joins {u : TrailerBuild} (hp : st.phase = .trailer) (hk : e.kind = .data) (hu : t.addData b = u) :
        becomes { st with trailerBuild := u } :=
      trailer hp hk (congrArg (fun t => { st with trailerBuild := t }) hu)
    refine ⟨fun hp hs => ⟨fun hk => ?_, fun hk => ?_, fun hk => ?_⟩, fun hp hs hk => ?_, fun hp => ?_⟩
    · have kind := (Stream.effectiveKind_plain (e := e) hs).trans hk
      have done := record .data (·.addData b) hp kind (by decide) fun u =>
        State.updateStream_setStream s x u fun v => { v with record := v.record.addData b }
      cases hc : st.record.column <;> simpa only [RecordBuild.addData, hc, FieldText.add] using done
    · have kind := (Stream.effectiveKind_plain (e := e) hs).trans hk
      have done := record .separator (·.nextColumn) hp kind (by decide) fun u =>
        State.updateStream_setStream s x u fun v => { v with record := v.record.nextColumn }
      refine ⟨fun c d hc hd => ?_, fun hc => ?_⟩
      · have next : st.record.nextColumn = { st.record with column := some d } := by
          simp [RecordBuild.nextColumn, hc, ← hd]
        rwa [next] at done
      · have next : st.record.nextColumn = { st.record with column := none } := by
          obtain hc | hc := hc <;> simp [RecordBuild.nextColumn, hc]
        rwa [next] at done
    · exact record .skip id hp ((Stream.effectiveKind_plain hs).trans hk) (by decide) fun u => rfl
    · exact record .skip id hp (Stream.effectiveKind_skipping hp hs hk) (by decide) fun u => rfl
    · exact ⟨fun hk => ⟨fun hf => joins hp hk (TrailerBuild.addData_first hf),
          fun hf => joins hp hk (TrailerBuild.addData_second hf), fun hf => joins hp hk (TrailerBuild.addData_third hf),
          fun hf => joins hp hk (TrailerBuild.addData_beyond hf)⟩,
        fun hk => trailer hp hk rfl, fun hk => trailer hp hk rfl, fun hk => trailer hp hk rfl,
        fun hk => hk.elim (trailer hp · rfl) (trailer hp · rfl)⟩
  · rw [exec_streamByte on, State.streamByte_passesOver h hr ((Stream.nextByte_isSome_iff hn).mpr (by omega)) hp]
    rw [State.exhaust_of_nextByte (by rw [State.setStream_stream]; exact Stream.advance_nextByte hn hl),
      Stream.advance_eq hn]
    rfl

/-- Settles O28: the byte is kept, and MARK goes out or waits. -/
theorem holdByteStopsStream : Obligations.HoldByteStopsStream := by
  intro s x p w q b e on hr hb hp he hh own hw hq hn
  rw [exec_streamByte on, State.streamByte_holds rfl hr hb hp he hh]
  have held := s.setStream_stream x (s.streams[x].holding b)
  rw [State.holdByte_eq rfl]
  refine ⟨fun h1 h2 => ?_, fun full => ?_⟩
  · rw [State.postThen_posts _ _ held own hw hq hn ((s.completionRoom_iff p).mpr ⟨h1, h2⟩)]
    simp only [State.afterPost]
    rw [State.enterWaiting_eq (st := s.streams[x].holding b) (by exact held),
      State.waitingStream_owned (st := s.streams[x].holding b) own]
    simp only [State.setStream, set_set_fin]
    rfl
  · rw [State.postThen_waits _ _ held own (State.completionRoom_full full)]
    simp only [State.setStream, set_set_fin]
    rfl

/-- Settles O30: a reject is counted and posts or waits; each byte that comes to one is taken first. -/
theorem rejectPostedOncePerFile : Obligations.RejectPostedOncePerFile := by
  refine ⟨fun s x p w q reason after st h own hw hq hn => ⟨fun posted => ?_, fun first h1 h2 => ?_, fun first full => ?_⟩,
    fun s x st n b e f on h hr hn hb hl hp he hh hf => ?_⟩
  · rw [State.rejectRecord_again _ _ h posted, Stream.recordDropped_posted posted]
    rfl
  · rw [State.rejectRecord_posts _ _ h first own hw hq hn ((s.completionRoom_iff p).mpr ⟨h1, h2⟩)]
    rfl
  · rw [State.rejectRecord_waits _ _ h first own (State.completionRoom_full full)]
    rfl
  · intro taken base answers becomes
    have inside : s.ByteInside x st n b e := ⟨on, h, hr, hn, hb, hl, he, hh⟩
    have consumed (feed : Bool) : st.consumed e b feed = taken feed := by
      rw [Stream.consumed, Stream.advance_eq hn]
    have fields (feed : Bool) : taken feed = { st with
        principal := (taken feed).principal, alternate := (taken feed).alternate,
        mode := (taken feed).mode, dualSum := (taken feed).dualSum } := by
      change ({ st.setBuffer n _ with mode := _, dualSum := _ } : Stream) = _
      rw [Stream.setBuffer_eq]
    have stream (feed : Bool) := (s.setStream_stream x _).trans (fields feed)
    refine ⟨fun hs hk => ?_, fun hk => ⟨fun he => ?_, fun hs hb => ⟨fun reason hc => ?_, fun r hc limit => ?_⟩⟩,
      fun hs hk => ⟨fun hb => ?_, fun hb => ?_⟩⟩
    · change exec _ s = _
      rw [inside.exec_fed hp ((Stream.effectiveKind_plain hs).trans hk) (by decide), consumed]
      rfl
    · change exec _ s = _
      rw [inside.exec_fed hp (Stream.effectiveKind_recordEnd hk) (by decide), consumed]
      refine congrArg Host.Outcome.next ((State.endRecord_empties (stream _) ?_).trans ?_)
      · exact he
      · rw [State.setStream_setStream]
        cases n <;> rfl
    · change exec _ s = _
      rw [inside.exec_fed hp (Stream.effectiveKind_recordEnd hk) (by decide), consumed]
      exact congrArg Host.Outcome.next (State.endRecord_rejects (stream _) hs hb ((State.conversion_of_file hf).trans hc))
    · change exec _ s = _
      rw [inside.exec_fed hp (Stream.effectiveKind_recordEnd hk) (by decide), consumed]
      exact congrArg Host.Outcome.next 
        ((State.endRecord_converts (stream _) hs hb ((State.conversion_of_file hf).trans hc)).trans (if_pos limit))
    · change exec _ s = _
      rw [inside.exec_record hp ((Stream.effectiveKind_plain hs).trans hk),
        Stream.taken_unfed (.inr ((Stream.effectiveKind_plain hs).trans hk)), consumed]
      refine congrArg Host.Outcome.next (State.startTrailer_begun (stream _) hb)
    · change exec _ s = _
      rw [inside.exec_record hp ((Stream.effectiveKind_plain hs).trans hk),
        Stream.taken_unfed (.inr ((Stream.effectiveKind_plain hs).trans hk)), consumed]
      refine congrArg Host.Outcome.next ((State.startTrailer_empty (stream _) hb).trans ?_)
      rw [State.setStream_setStream]
      cases n <;> rfl
end

section
/-! PROOFS. The Completion Queue's wait list, blocked streams and the store-full notice: O26, O32, O33 and O39. -/

open Sys2Proof Sys2Proof.Machine
namespace Sys2Proof.Machine

/-! ## FETCH COMPLETIONS (R44) -/

theorem dropOf_own (p : PortId) (n : Nat) (es : List Completion) :
    (dropOf p n es).filter (fun e => e.port = p) = (es.filter (fun e => e.port = p)).drop n := by
  induction es generalizing n with
  | nil => simp [dropOf]
  | cons e es ih =>
    cases n with
    | zero => simp [dropOf]
    | succ n => by_cases h : e.port = p <;> simp [dropOf, h, ih]

theorem dropOf_others (p : PortId) (n : Nat) (es : List Completion) :
    (dropOf p n es).filter (fun e => e.port ≠ p) = es.filter (fun e => e.port ≠ p) := by
  induction es generalizing n with
  | nil => simp [dropOf]
  | cons e es ih =>
    cases n with
    | zero => simp [dropOf]
    | succ n =>
      have ih := ih
      by_cases h : e.port = p <;> simp_all [dropOf]

/-- Entries leave the queue exactly when the port has some. -/
theorem dropOf_length (p : PortId) (n : Nat) (es : List Completion) :
    (dropOf p (n + 1) es).length < es.length ↔ es.filter (fun e => e.port = p) ≠ [] := by
  induction es with
  | nil => simp [dropOf]
  | cons e es ih =>
    by_cases h : e.port = p
    · have short := (dropOf_sublist n (es := es) (p := p)).length_le
      simp only [dropOf, h, if_true, List.length_cons, List.filter_cons, decide_true, ne_eq, reduceCtorEq,
        not_false_eq_true, iff_true]
      omega
    · simpa [dropOf, h] using ih

/-! ## Notices (R43) -/

section
variable {s : State} {x : StreamId} {st : Stream} {p : PortId} {w q : Nat}

/-- A stream's store-full notice has been posted (R43). -/
def State.noticePosted (s : State) (x : StreamId) (st : Stream) (p : PortId) (w q : Nat) : State :=
  { s with
    waiting := s.waiting.filter (· ≠ WaitItem.notice x)
    completions := s.completions ++ [⟨p, x, w, q, .storeFull⟩]
    streams := s.streams.set x { st with storeFullNotice := false } }

theorem State.postNotice_posts (h : s.streams[x] = st) (own : st.owner = some p) (hw : st.switchId = some w)
    (hq : st.sequence = some q) (hn : st.storeFullNotice = true) (hr : s.completionRoom p = true) :
    s.postNotice x = s.noticePosted x st p w q := by
  have after : (s.post x .storeFull).streams[x] = st := h
  unfold State.postNotice
  simp only [h, hn, Stream.port_of_owner own, hr, Bool.and_self, if_true]
  rw [State.updateStream_eq after, State.post_eq _ h own hw hq]
  rfl

theorem State.postNotice_none (h : s.streams[x] = st) (own : st.owner = some p)
    (hn : s.completionRoom p = false ∨ st.storeFullNotice = false) : s.postNotice x = s := by
  unfold State.postNotice
  simp only [h, Stream.port_of_owner own]
  exact if_neg (by obtain hn | hn := hn <;> simp [hn])

/-- A notice reaches a stream whose port has room (R43). -/
theorem State.takeNotice_posts (h : s.streams[x] = st) (own : st.owner = some p) (hw : st.switchId = some w)
    (hq : st.sequence = some q) (hr : s.completionRoom p = true) :
    s.takeNotice x = s.noticePosted x st p w q := by
  have noted := s.setStream_stream x { st with storeFullNotice := true }
  have posts := State.postNotice_posts noted own hw hq rfl hr
  have cleared : ((s.setStream x { st with storeFullNotice := true }).noticePosted x
      { st with storeFullNotice := true } p w q).streams[x].storeFullNotice = false := by
    simp only [State.noticePosted, getElem_set_fin]
  unfold State.takeNotice
  simp only
  rw [State.updateStream_eq h, posts, if_neg (by rw [cleared]; simp)]
  simp only [State.noticePosted, State.setStream, set_set_fin]

/-- A notice without room waits, behind the list or where one waits already (R43). -/
theorem State.takeNotice_waits (h : s.streams[x] = st) (own : st.owner = some p) (hr : s.completionRoom p = false) :
    s.takeNotice x =
      { s with
        streams := s.streams.set x { st with storeFullNotice := true }
        waiting := if WaitItem.notice x ∈ s.waiting then s.waiting else s.waiting ++ [WaitItem.notice x] } := by
  have noted := s.setStream_stream x { st with storeFullNotice := true }
  have waits : (s.setStream x { st with storeFullNotice := true }).postNotice x
      = s.setStream x { st with storeFullNotice := true } := State.postNotice_none noted own (.inl hr)
  unfold State.takeNotice
  simp only
  rw [State.updateStream_eq h, waits, noted]
  by_cases h : WaitItem.notice x ∈ s.waiting
  · rw [if_neg (fun all => all.2 h), if_pos h]
    rfl
  · rw [if_pos ⟨rfl, h⟩, if_neg h]
    rfl


end

/-! ## A store-full wait (R73) -/

section
variable {s : State} {x : StreamId} {r : CallRecord}

theorem State.placeFirst_empty {i : Nat} {f : File} (hx : s.streams[x].fileIndex = some i) (hf : s.file i = some f)
    (hi : f.state = .ingesting) (hn : Runs.pop s.freeList = none) : s.placeFirst x r = s.waitStoreFull x := by
  have empty : s.allocate i = .empty := by
    unfold State.allocate
    simp only [hf, hi, ne_eq, not_true_eq_false, if_false, hn]
  simp only [State.placeFirst, hx, Option.getD_some, empty]

/-- A head that begins to wait for a segment, and its stream's notice, given once per episode (R73). -/
theorem State.waitStoreFull_begins (hw : s.headWait = none) :
    s.waitStoreFull x =
      (let waits : State := { s with headWait := some .storeFull, storeFullEpisode := true }
      if s.encodings[x].storeFullNotified = true then waits
      else ({ waits with
          encodings := s.encodings.set x { s.encodings[x] with storeFullNotified := true } } : State).takeNotice x) := by
  unfold State.waitStoreFull
  simp only [hw, reduceCtorEq, if_false]
  rfl

theorem exec_encoderTakeHead (on : s.powered = true) (hw : s.headWait = none) :
    exec .encoderTakeHead s = .next s.dealHead := by
  rw [show exec .encoderTakeHead s = .next (s.event State.takeHead) from rfl, State.event, if_pos on, State.takeHead,
    hw]

end

/-! ## Streams that run on (R28, R37, R69) -/

section
variable {s : State} {x : StreamId} {st : Stream} {n : BufferName}

theorem Stream.moved_eq (hn : st.consumeNext = n) :
    st.moved = { st with mode := (st.buffer n).nextMode.getD st.mode } := by
  subst hn
  rfl

theorem Stream.passedOn_eq (hn : st.consumeNext = n) :
    st.passedOn = { st.moved.setBuffer n {} with consumeNext := n.other } := by
  subst hn
  rfl

theorem Stream.closedInput_record (hp : st.phase ≠ .trailer) : st.closedInput = { st with state := .closing } := by
  simp only [Stream.closedInput, hp, if_false]

/-- The stream that has appended its ready record (R69). -/
def Stream.unblocked (st : Stream) (r : CallRecord) : Stream :=
  { st with
    state := .running, ready := none, accepted := st.accepted + 1
    duration := min (st.duration + r.duration) 999999999999999 }

theorem exec_blockedStreamResumed {rest : List StreamId} {r : CallRecord} (on : s.powered = true)
    (hb : s.blocked = x :: rest) (room : s.stagingRecords < 256) (h : s.streams[x] = st) (hr : st.ready = some r) :
    exec .blockedStreamResumed s = .next
      ((({ s with blocked := rest, staging := s.staging ++ [StagingEntry.record x r] } : State).setStream x
        (st.unblocked r)).exhaust x) := by
  refine congrArg Host.Outcome.next ?_
  rw [State.event, if_pos on]
  unfold State.resumeBlocked
  simp only [hb]
  rw [if_pos (show s.stagingRecords < Config.stagingRecords from room), h, hr]
  simp only [State.stageRecord, State.updateStream, State.setStream, getElem_set_fin, set_set_fin, h]
  rfl

end

end Sys2Proof.Machine

/-- Settles O26: the port's entries leave by `dropOf`, and their leaving serves the list. -/
theorem fetchCompletionsTakesOwnOldest : Obligations.FetchCompletionsTakesOwnOldest := by
  intro s p tag ha
  have on := ha.1
  let queue := dropOf p 16 s.completions
  refine ⟨queue, ({ s with completions := queue } : State).serveWaitList, dropOf_own p 16 _, dropOf_others p 16 _, ?_, ?_,
    ?_⟩
  · exact congrArg Host.Outcome.next (if_pos on)
  · intro none
    unfold State.serveWaitList
    simp only [none]
    rfl
  · have fetched : exec (.fetchCompletions p tag) s = .next ((s.fetchCompletions p).send p tag) :=
      congrArg Host.Outcome.next (State.request_admitted _ ha rfl)
    have leave := dropOf_length p 15 s.completions
    have served : s.removeCompletions queue
        = if s.completionsOf p = [] then s else ({ s with completions := queue } : State).serveWaitList := by
      unfold State.removeCompletions
      by_cases none : s.completionsOf p = []
      · rw [if_pos none, if_neg (fun less => leave.mp less none)]
      · rw [if_neg none, if_pos (leave.mpr none)]
    rw [fetched]
    simp only [State.fetchCompletions, Answer.send, Answer.ok]
    rw [served]

/-- Settles O39: the allocation is EMPTY, and the notice is posted, or waits, or was given before. -/
theorem storeFullWaitBegins : Obligations.StoreFullWaitBegins := by
  intro s x r rest i w q f p on hw hs ha hc hg hx hf hi hn own hsw hsq notice
  have waits : exec .encoderTakeHead s = .next (s.waitStoreFull x) := by
    rw [exec_encoderTakeHead on hw, State.dealHead_first hs ha (by rw [hw]; decide) hc hg,
      State.placeFirst_empty hx hf hi hn]
  rw [waits, State.waitStoreFull_begins hw]
  refine ⟨fun told => ?_, fun untold h1 h2 => ?_, fun untold full => ?_⟩
  · simp only [told, if_true]
  · have room := (s.completionRoom_iff p).mpr ⟨h1, h2⟩
    simp only [untold, Bool.false_eq_true, if_false]
    exact congrArg Host.Outcome.next ((State.takeNotice_posts (st := s.streams[x]) (by exact rfl) own hsw hsq
      (by exact room)).trans rfl)
  · simp only [untold, Bool.false_eq_true, if_false]
    exact congrArg Host.Outcome.next ((State.takeNotice_waits (st := s.streams[x]) (by exact rfl) own
      (by exact State.completionRoom_full full)).trans rfl)

/-- Settles O32: the ready record is appended, and an exhausted buffer is passed on as by its last byte. -/
theorem blockedStreamTakesPlace : Obligations.BlockedStreamTakesPlace := by
  intro s x rest r on hb room hr st resumed
  have resumes := exec_blockedStreamResumed on hb room (st := st) rfl hr
  let base : State := { s with blocked := rest, staging := s.staging ++ [StagingEntry.record x r] }
  have stream := base.setStream_stream x (st.unblocked r)
  rw [resumes]
  refine ⟨fun next => ?_, ?_⟩
  · rw [State.exhaust_of_nextByte (by rw [State.setStream_stream]; exact next)]
    rfl
  · intro p n own hn filled consumed next moved passed
    have exhausts : (st.unblocked r).Exhausts n := ⟨rfl, hn, filled, consumed.ge⟩
    have passedOn : (st.unblocked r).passedOn = { passed with
        state := .running, ready := none, accepted := st.accepted + 1
        duration := min (st.duration + r.duration) 999999999999999 } := by
      rw [Stream.passedOn_eq (by exact hn), Stream.moved_eq (by exact hn)]
      cases n <;> rfl
    refine ⟨fun more bytes => ?_, fun more bytes => ?_, fun final phase whole => ?_⟩
    · rw [State.exhaust_runsOn stream exhausts more bytes, State.setStream_setStream, passedOn]
      rfl
    · have port : (st.unblocked r).passedOn.owner = some p := by
        rw [passedOn]
        cases n <;> exact own
      rw [State.exhaust_starves stream exhausts more bytes, State.setStream_setStream,
        State.waitingStream_owned port, passedOn]
      rfl
    · have noReject : ¬((st.unblocked r).moved.phase = .record ∧ (st.unblocked r).moved.record.begun = true
          ∧ (st.unblocked r).moved.skip = false) := fun ⟨_, begun, skip⟩ => by
        obtain h | h := whole
        · exact absurd begun (by rw [show (st.unblocked r).moved.record.begun = false from h]; decide)
        · exact absurd skip (by rw [show (st.unblocked r).moved.skip = true from h]; decide)
      have inRecord : (st.unblocked r).moved.phase ≠ .trailer := by
        rw [show (st.unblocked r).moved.phase = .record from phase]
        decide
      rw [State.exhaust_final stream exhausts final, State.setStream_setStream,
        State.endOfInput_closes (State.setStream_stream _ _ _) noReject, Stream.closedInput_record inRecord,
        State.setStream_setStream, Stream.moved_eq (by exact hn)]
      simp only [base, State.setStream, List.append_assoc]
      rfl
end

section
/-! PROOFS. Serving the wait list: O33. -/

open Sys2Proof Sys2Proof.Machine
namespace Sys2Proof.Machine

/-! ## What a reject leaves alone -/

/-- The Staging Queue, and the parse phase of one stream, are as before. -/
structure PhaseKept (x : StreamId) (s t : State) : Prop where
  staging : t.staging = s.staging
  phase : t.streams[x].phase = s.streams[x].phase

namespace PhaseKept

theorem refl (x : StreamId) (s : State) : PhaseKept x s s := ⟨rfl, rfl⟩

theorem trans {x : StreamId} {s t u : State} (h : PhaseKept x s t) (k : PhaseKept x t u) : PhaseKept x s u :=
  ⟨k.staging.trans h.staging, k.phase.trans h.phase⟩

theorem update {x : StreamId} {s : State} {f : Stream → Stream} (h : ∀ st, (f st).phase = st.phase) :
    PhaseKept x s (s.updateStream x f) :=
  ⟨rfl, by rw [State.updateStream, State.setStream_stream, h]⟩

theorem same {x : StreamId} {s t : State} (hs : t.staging = s.staging) (h : t.streams = s.streams) :
    PhaseKept x s t := ⟨hs, by rw [h]⟩

end PhaseKept

section
variable (s : State) (x : StreamId)

theorem State.postNotice_phase : PhaseKept x s (s.postNotice x) := by
  obtain ⟨-, -, h⟩ | h := s.postNotice_cases x
  · rw [h]
    have posted : PhaseKept x s (s.post x .storeFull) := .same rfl rfl
    exact (posted.trans (.update (f := fun st => { st with storeFullNotice := false }) fun _ => rfl)).trans
      (.same rfl rfl)
  · rw [h]
    exact .refl x s

theorem State.tryPost_phase (d : CompletionDetail) : PhaseKept x s (s.tryPost x d).1 := by
  obtain ⟨-, h⟩ | h := s.tryPost_cases x d
  · rw [h]
    exact (s.postNotice_phase x).trans (.same rfl rfl)
  · rw [h]
    exact s.postNotice_phase x

theorem State.rejectRecord_phase (reason : RejectReason) (after : AfterPost) :
    PhaseKept x s (s.rejectRecord x reason after).1 := by
  have dropped : PhaseKept x s (s.updateStream x Stream.recordDropped) := .update fun _ => rfl
  rw [State.rejectRecord_eq]
  split
  · exact dropped
  · simp only
    split
    · exact dropped.trans (State.tryPost_phase _ x _)
    · refine (dropped.trans (State.tryPost_phase _ x _)).trans (.trans (.update (f := fun st =>
        { st with state := .posting, pending := some ⟨_, after⟩, countdown := .stopped }) fun _ => rfl) (.same rfl rfl))

/-- A begun record is rejected TRUNCATED, and the input ends if the post is made (R38). -/
theorem State.endOfInput_truncates (h : s.streams[x].phase = .record ∧ s.streams[x].record.begun = true
      ∧ s.streams[x].skip = false) :
    s.endOfInput x =
      (let r := s.rejectRecord x .truncated .endOfInput
      if r.2 = true then
        { r.1 with
          staging := s.staging ++ [StagingEntry.close x]
          streams := r.1.streams.set x { r.1.streams[x] with state := .closing } }
      else r.1) := by
  have kept := s.rejectRecord_phase x .truncated .endOfInput
  have inRecord : (s.rejectRecord x .truncated .endOfInput).1.streams[x].phase ≠ .trailer := by
    rw [kept.phase, h.1]
    decide
  rw [State.endOfInput_rejects rfl h, State.closeInput_eq rfl, Stream.closedInput_record inRecord, kept.staging]
  rfl

end

/-! ## A waiting verdict (R40) -/

section
variable {s : State} {x : StreamId} {st : Stream} {p : PortId} {w q : Nat} {reasons : DisputeReasons}

theorem State.acceptFile_setStream (i a r d : Nat) (trailer : Option Trailer) (clock : Nat) :
    ((s.setStream x st).acceptFile i a r d reasons trailer clock).getD (s.setStream x st)
      = ((s.acceptFile i a r d reasons trailer clock).getD s).setStream x st := by
  unfold State.acceptFile
  rw [show (s.setStream x st).file i = s.file i from rfl]
  cases s.file i with
  | none => rfl
  | some f => by_cases h : f.state = .ingesting <;> simp only [h, if_true, if_false] <;> rfl

/-- The trail and the catalogue once a stream's file has its verdict (R40). -/
def State.acceptedFor (s : State) (st : Stream) (reasons : DisputeReasons) : State :=
  let t := s.record .fileAccepted st.owner
    (.file (st.switchId.getD 0) (st.sequence.getD 0) (st.fileIndex.getD 0) reasons) st.accepted
  (t.acceptFile (st.fileIndex.getD 0) st.accepted st.rejected st.duration reasons st.trailer t.stamp).getD t

theorem State.markAccepted_setStream (s : State) (x : StreamId) (st : Stream) (reasons : DisputeReasons) :
    (s.setStream x st).markAccepted x reasons = (s.acceptedFor st reasons).setStream x st.unjudged := by
  unfold State.markAccepted
  rw [State.setStream_stream]
  exact (congrArg (State.updateStream · x Stream.unjudged) (State.acceptFile_setStream
    (s := s.record .fileAccepted st.owner
      (.file (st.switchId.getD 0) (st.sequence.getD 0) (st.fileIndex.getD 0) reasons) st.accepted) ..)).trans
    (State.updateStream_setStream _ x st Stream.unjudged)

/-- A stream goes on to its acceptance in the same way from POSTING and from CLOSING with its verdict (R40). -/
theorem State.acceptStream_judged (hn : st.storeFullNotice = false) :
    (s.setStream x { st with state := .closing, verdict := some reasons }).acceptStream x reasons
      = (s.setStream x st).acceptStream x reasons := by
  let judged : Stream := { st with state := .closing, verdict := some reasons }
  cases ht : s.trailRoom with
  | false =>
    rw [State.acceptStream_keeps (s.setStream_stream x judged) ht, State.acceptStream_keeps (s.setStream_stream x st) ht,
      State.setStream_setStream, State.setStream_setStream]
  | true =>
    have same : s.acceptedFor judged reasons = s.acceptedFor st reasons := rfl
    have port : judged.unjudged.port = st.unjudged.port := rfl
    rw [State.acceptStream_room _ x (by exact ht), State.acceptStream_room _ x (by exact ht),
      State.markAccepted_setStream, State.markAccepted_setStream, State.setStream_stream, State.setStream_stream, same]
    cases room : (s.acceptedFor st reasons).completionRoom st.unjudged.port with
    | false =>
      rw [State.postThen_full _ _ room, State.postThen_full _ _ (by rw [port]; exact room)]
      rfl
    | true =>
      rw [State.postThen_room _ _ room (by exact hn), State.postThen_room _ _ (by rw [port]; exact room) (by exact hn)]
      simp only [State.afterPost, State.streamIdle, State.leaveLists, State.setStream, set_set_fin]
      rfl

/-! ## One member of the list (R42) -/

/-- A stream's pending entry is posted and its place in the list is left (R42). -/
def State.pendingPosted (s : State) (x : StreamId) (st : Stream) (p : PortId) (w q : Nat) (d : CompletionDetail) :
    State :=
  { s with
    waiting := s.waiting.filter (· ≠ WaitItem.post x)
    completions := s.completions ++ [⟨p, x, w, q, d⟩]
    streams := s.streams.set x { st with pending := none } }

variable {d : CompletionDetail} {after : AfterPost}

theorem State.serveWaiting_none (h : s.streams[x] = st) (hp : st.pending = none) : s.serveWaiting (.post x) = s := by
  unfold State.serveWaiting
  simp only [h, hp]

/-- A member without room keeps its place (R42). -/
theorem State.serveWaiting_full (h : s.streams[x] = st) (own : st.owner = some p) (hp : st.pending = some ⟨d, after⟩)
    (hr : s.completionRoom p = false) : s.serveWaiting (.post x) = s := by
  have port : s.streams[x].port = p := by rw [h, Stream.port_of_owner own]
  unfold State.serveWaiting
  simp only [h, hp]
  rw [State.tryPost_full d (by rw [port]; exact hr)]

/-- A member with room and no notice posts and goes on (R41, R42). -/
theorem State.serveWaiting_posts (h : s.streams[x] = st) (own : st.owner = some p) (hw : st.switchId = some w)
    (hq : st.sequence = some q) (hp : st.pending = some ⟨d, after⟩) (hn : st.storeFullNotice = false)
    (hr : s.completionRoom p = true) :
    s.serveWaiting (.post x) = (s.pendingPosted x st p w q d).afterPost x after := by
  have port : s.streams[x].port = p := by rw [h, Stream.port_of_owner own]
  unfold State.serveWaiting
  simp only [h, hp]
  rw [State.tryPost_room d (by rw [port]; exact hr) (by rw [h]; exact hn), State.post_eq d h own hw hq]
  simp only
  rw [State.updateStream_eq (by exact h)]
  rfl

/-- A notice goes first: the member is then served as if it had none (R43). -/
theorem State.serveWaiting_noticed (h : s.streams[x] = st) (own : st.owner = some p) (hw : st.switchId = some w)
    (hq : st.sequence = some q) (hp : st.pending = some ⟨d, after⟩) (hn : st.storeFullNotice = true)
    (hr : s.completionRoom p = true) :
    s.serveWaiting (.post x) = (s.noticePosted x st p w q).serveWaiting (.post x) := by
  have noted : (s.noticePosted x st p w q).streams[x] = { st with storeFullNotice := false } := getElem_set_fin ..
  have pending : (s.noticePosted x st p w q).streams[x].pending = some ⟨d, after⟩ := by rw [noted]; exact hp
  have tried : s.tryPost x d = (s.noticePosted x st p w q).tryPost x d := by
    unfold State.tryPost
    rw [State.postNotice_posts h own hw hq hn hr, State.postNotice_none noted own (.inr rfl)]
  unfold State.serveWaiting
  simp only [h, hp, pending, tried]

end

end Sys2Proof.Machine

/-- Settles O33: the walk is a fold over the list, and a member served posts or keeps its place; what follows its post is
the continuation of each kind. -/
theorem waitListServedInOrder : Obligations.WaitListServedInOrder := by
  refine ⟨fun s on => ⟨fun none => ?_, fun item rest more => ?_⟩, fun s x p w q st h own hw hq => ?_⟩
  · have served : exec .completionWaitServed s = .next s.serveWaitList := congrArg Host.Outcome.next (if_pos on)
    rw [served, State.serveWaitList, none]
    rfl
  · have served : exec .completionWaitServed s = .next s.serveWaitList := congrArg Host.Outcome.next (if_pos on)
    rw [served, State.serveWaitList, more]
    rfl
  intro room noted
  have hasRoom (h : room) : s.completionRoom p = true := (s.completionRoom_iff p).mpr h
  have noRoom (h : ¬room) : s.completionRoom p = false := Bool.eq_false_iff.mpr fun r => h ((s.completionRoom_iff p).mp r)
  refine ⟨fun r hn => State.postNotice_posts h own hw hq hn (hasRoom r),
    fun none => State.postNotice_none h own (none.imp_left noRoom), State.serveWaiting_none h,
    fun d after hp => ⟨fun r => State.serveWaiting_full h own hp (noRoom r),
      fun r hn => State.serveWaiting_noticed h own hw hq hp hn (hasRoom r), fun r hn => ?_⟩⟩
  intro seconds posted closed
  rw [State.serveWaiting_posts h own hw hq hp hn (hasRoom r)]
  let base := s.pendingPosted x st p w q d
  let resumed : Stream := { st with pending := none }
  have stream : base.streams[x] = resumed := getElem_set_fin ..
  have set (u : Stream) : base.setStream x { u with pending := none } = posted u := by
    change ({ base with streams := (s.streams.set x _).set x _ } : State) = _
    rw [set_set_fin]
    rfl
  have owned : resumed.owner = some p := own
  have closes (u : Stream) : ({ base.setStream x ({ u with pending := none } : Stream).closedInput with
      staging := base.staging ++ [.close x] } : State) = closed u :=
    congrArg (fun t : State => { t with staging := s.staging ++ [StagingEntry.close x] })
      (set { u.closedInput with pending := none })
  refine ⟨?_, ?_, ?_, ?_, ?_, ?_⟩
  · rintro rfl
    exact (State.enterWaiting_eq stream .starved).trans ((congrArg _ (State.waitingStream_owned owned _)).trans
      (set { st with state := .starved, countdown := .running seconds }))
  · rintro rfl
    exact (State.enterWaiting_eq stream .held).trans ((congrArg _ (State.waitingStream_owned owned _)).trans
      (set { st with state := .held, countdown := .running seconds }))
  · rintro rfl
    have lists : (s.waiting.filter (· ≠ WaitItem.post x)).filter (fun i => i ≠ WaitItem.post x ∧ i ≠ WaitItem.notice x)
        = s.waiting.filter (fun i => i ≠ WaitItem.post x ∧ i ≠ WaitItem.notice x) := by
      rw [List.filter_filter]
      refine List.filter_congr fun i _ => ?_
      by_cases h : i = .post x <;> simp [h]
    change (base.leaveLists x).setStream x {} = _
    simp only [base, State.pendingPosted, State.leaveLists, State.setStream, lists, set_set_fin]
    rfl
  · rintro rfl
    let runs : Stream := { resumed with state := .running }
    have runsAt := base.setStream_stream x runs
    have goes : base.afterPost x .running = (base.setStream x runs).exhaust x :=
      congrArg (State.exhaust · x) (State.updateStream_eq stream _)
    rw [goes]
    refine ⟨fun next => ?_, ?_⟩
    · rw [State.exhaust_of_nextByte (by rw [runsAt]; exact next)]
      exact set { st with state := .running }
    · intro n hn filled consumed next moved passed
      have exhausts : runs.Exhausts n := ⟨rfl, hn, filled, consumed.ge⟩
      have movedRuns : runs.moved = { moved with pending := none } := Stream.moved_eq (by exact hn)
      have passedRuns : runs.passedOn = { passed with pending := none } := by
        rw [Stream.passedOn_eq (by exact hn), movedRuns]
        cases n <;> rfl
      refine ⟨fun more => ⟨fun bytes => ?_, fun bytes => ?_⟩, fun final => ⟨fun begun => ?_, fun whole => ?_⟩⟩
      · rw [State.exhaust_runsOn runsAt exhausts more bytes, State.setStream_setStream, passedRuns]
        exact set passed
      · have passedOwner : runs.passedOn.owner = some p := by
          rw [passedRuns]
          cases n <;> exact own
        rw [State.exhaust_starves runsAt exhausts more bytes, State.setStream_setStream,
          State.waitingStream_owned passedOwner, passedRuns]
        exact set { passed with state := .starved, countdown := .running seconds }
      · rw [State.exhaust_final runsAt exhausts final, State.setStream_setStream, movedRuns, set moved]
        exact State.endOfInput_truncates _ x (by
          rw [show (posted moved).streams[x] = { moved with pending := none } from getElem_set_fin ..]
          exact begun)
      · rw [State.exhaust_final runsAt exhausts final, State.setStream_setStream,
          State.endOfInput_closes (State.setStream_stream _ _ _) (by rw [movedRuns]; exact whole), movedRuns,
          State.setStream_setStream]
        exact closes moved
  · rintro rfl
    exact (State.closeInput_eq stream).trans (closes st)
  · rintro rfl on
    have judged := State.acceptStream_judged (s := base) (x := x) (st := resumed) (reasons := st.reasons) hn
    have atVerdict := set { st with state := .closing, verdict := some st.reasons }
    rw [exec_closingStreamTrailRetry (by exact on) (getElem_set_fin ..) rfl rfl, ← atVerdict]
    refine congrArg Host.Outcome.next (judged.trans ?_)
    rw [State.setStream_self stream]
    change base.acceptStream x resumed.reasons = base.acceptStream x base.streams[x].reasons
    rw [stream]
end

section
/-! PROOFS. The last byte of a chunk, and decimal texts: O31. -/

open Sys2Proof Sys2Proof.Machine
namespace Sys2Proof.Machine

/-! ## The work of a byte does not read the buffers -/

/-- A stream with other buffers. -/
def Stream.rebuffered (P A : Buffer) (st : Stream) : Stream := { st with principal := P, alternate := A }

/-- A state in which one stream has other buffers. -/
def State.rebuffered (s : State) (x : StreamId) (P A : Buffer) : State := s.updateStream x (Stream.rebuffered P A)

section
variable (s : State) (x : StreamId) (P A : Buffer)

theorem State.rebuffered_stream : (s.rebuffered x P A).streams[x] = s.streams[x].rebuffered P A := getElem_set_fin ..

theorem State.updateStream_rebuffered {g : Stream → Stream}
    (hg : ∀ st : Stream, g (st.rebuffered P A) = (g st).rebuffered P A) :
    (s.rebuffered x P A).updateStream x g = (s.updateStream x g).rebuffered x P A := by
  simp only [State.rebuffered, State.updateStream, State.setStream_stream, State.setStream_setStream, hg]

theorem State.post_rebuffered (d : CompletionDetail) :
    (s.rebuffered x P A).post x d = (s.post x d).rebuffered x P A := by
  simp only [State.post, State.rebuffered_stream]
  rfl

theorem State.postNotice_rebuffered : (s.rebuffered x P A).postNotice x = (s.postNotice x).rebuffered x P A := by
  unfold State.postNotice
  simp only [State.rebuffered_stream]
  rw [State.post_rebuffered,
    State.updateStream_rebuffered _ x P A (g := fun st => { st with storeFullNotice := false }) fun _ => rfl]
  change (if (s.streams[x].storeFullNotice && s.completionRoom s.streams[x].port) = true then _ else _) = _
  split <;> rfl

theorem State.tryPost_rebuffered (d : CompletionDetail) :
    (s.rebuffered x P A).tryPost x d = ((s.tryPost x d).1.rebuffered x P A, (s.tryPost x d).2) := by
  unfold State.tryPost
  simp only [State.postNotice_rebuffered, State.rebuffered_stream]
  rw [State.post_rebuffered]
  change (if (!(s.postNotice x).streams[x].storeFullNotice
    && (s.postNotice x).completionRoom (s.postNotice x).streams[x].port) = true then _ else _) = _
  split <;> rfl

theorem State.waitPost_rebuffered (d : CompletionDetail) (after : AfterPost) :
    (s.rebuffered x P A).waitPost x d after = (s.waitPost x d after).rebuffered x P A := by
  unfold State.waitPost
  rw [State.updateStream_rebuffered _ x P A (g := fun st =>
    { st with state := .posting, pending := some ⟨d, after⟩, countdown := .stopped }) fun _ => rfl]
  rfl

theorem State.rejectRecord_rebuffered (reason : RejectReason) (after : AfterPost) :
    ((s.rebuffered x P A).rejectRecord x reason after).1 = (s.rejectRecord x reason after).1.rebuffered x P A := by
  rw [State.rejectRecord_eq, State.rejectRecord_eq, State.updateStream_rebuffered s x P A (g := Stream.recordDropped)
    fun _ => rfl, State.rebuffered_stream]
  change (if s.streams[x].firstRejectPosted = true then _ else _ : State × Bool).1 = _
  split
  · rfl
  · simp only [State.tryPost_rebuffered]
    change (if ((s.updateStream x Stream.recordDropped).tryPost x
      (.recordRejected (s.streams[x].accepted + s.streams[x].rejected) reason)).2 = true then _ else _ : State × Bool).1 = _
    split
    · rfl
    · exact State.waitPost_rebuffered ..

theorem State.handRecord_rebuffered (r : CallRecord) :
    (s.rebuffered x P A).handRecord x r = (s.handRecord x r).rebuffered x P A := by
  unfold State.handRecord State.stageRecord
  rw [State.updateStream_rebuffered _ x P A (g := fun st =>
      { st with accepted := st.accepted + 1, duration := min (st.duration + r.duration) Config.durationLimit })
      fun _ => rfl,
    State.updateStream_rebuffered _ x P A (g := fun st => { st with state := .blocked, ready := some r }) fun _ => rfl]
  change (if s.stagingRoom = true then _ else _) = _
  split <;> rfl

theorem State.endRecord_rebuffered : (s.rebuffered x P A).endRecord x = (s.endRecord x).rebuffered x P A := by
  have stream := s.rebuffered_stream x P A
  have setRebuffered {g : Stream → Stream} (hg : ∀ st : Stream, g (st.rebuffered P A) = (g st).rebuffered P A) :
      (s.rebuffered x P A).setStream x (g (s.streams[x].rebuffered P A))
        = (s.setStream x (g s.streams[x])).rebuffered x P A := by
    rw [← stream]
    exact s.updateStream_rebuffered x P A hg
  by_cases empty : s.streams[x].skip = true ∨ s.streams[x].record.begun = false
  · rw [State.endRecord_empties rfl empty, State.endRecord_empties stream empty]
    exact setRebuffered (g := fun st => { st with record := {}, skip := false }) fun _ => rfl
  · rw [not_or, Bool.not_eq_true, Bool.not_eq_false] at empty
    obtain ⟨counts, begun⟩ := empty
    cases conversion : s.conversion s.streams[x] with
    | error reason =>
      rw [State.endRecord_rejects rfl counts begun conversion, State.endRecord_rejects stream counts begun conversion]
      exact State.rejectRecord_rebuffered ..
    | ok r =>
      rw [State.endRecord_converts rfl counts begun conversion, State.endRecord_converts stream counts begun conversion]
      change (if 16777215 ≤ s.streams[x].accepted then _ else _) = _
      split
      · exact State.rejectRecord_rebuffered ..
      · rw [setRebuffered (g := fun st => { st with record := {} }) fun _ => rfl]
        exact State.handRecord_rebuffered ..

theorem State.startTrailer_rebuffered : (s.rebuffered x P A).startTrailer x = (s.startTrailer x).rebuffered x P A := by
  unfold State.startTrailer
  simp only [State.rebuffered_stream]
  change (if s.streams[x].record.begun = true then _ else _ : State).updateStream x _ = _
  split
  · rw [State.rejectRecord_rebuffered]
    exact State.updateStream_rebuffered _ x P A fun _ => rfl
  · exact State.updateStream_rebuffered _ x P A fun _ => rfl

theorem State.recordByte_rebuffered (kind : ClassKind) (b : Byte) :
    (s.rebuffered x P A).recordByte x kind b = (s.recordByte x kind b).rebuffered x P A := by
  cases kind with
  | data =>
    exact State.updateStream_rebuffered s x P A (g := fun st => { st with record := st.record.addData b }) fun _ => rfl
  | separator =>
    exact State.updateStream_rebuffered s x P A (g := fun st => { st with record := st.record.nextColumn }) fun _ => rfl
  | recordEnd => exact s.endRecord_rebuffered x P A
  | skip => rfl
  | trailerStart => exact s.startTrailer_rebuffered x P A
  | illegal =>
    simp only [State.recordByte]
    rw [State.rejectRecord_rebuffered]
    exact State.updateStream_rebuffered _ x P A fun _ => rfl

end

/-! ## The last byte of a chunk (R28) -/

section
variable {s : State} {x : StreamId} {st u : Stream} {n : BufferName} {b : Byte} {e : ClassEntry}

/-- Consuming a byte touches the two buffers alone. -/
theorem Stream.advance_fields (st : Stream) :
    st.advance = { st with principal := st.advance.principal, alternate := st.advance.alternate } :=
  st.setBuffer_eq _ _

theorem Stream.advance_state (st : Stream) : st.advance.state = st.state := by rw [Stream.advance_fields]

theorem Stream.advance_record (st : Stream) : st.advance.record = st.record := by rw [Stream.advance_fields]

theorem Stream.advance_skip (st : Stream) : st.advance.skip = st.skip := by rw [Stream.advance_fields]

theorem Stream.closedInput_trailer (hp : st.phase = .trailer) :
    st.closedInput = { st with state := .closing, trailer := st.trailerBuild.judge, phase := .afterTrailer } := by
  simp only [Stream.closedInput, hp, if_true]

theorem Stream.advance_intake (hn : st.consumeNext = n) :
    st.advance.intake
      = (st.setBuffer n { st.buffer n with consumed := (st.buffer n).consumed + 1 }).intake := by
  rw [Stream.advance_eq hn]

/-- The buffers of a stream that has consumed one byte. -/
structure Stream.Advanced (u st : Stream) (n : BufferName) : Prop where
  owner : u.owner = st.owner
  current : u.consumeNext = n
  here : u.buffer n = { st.buffer n with consumed := (st.buffer n).consumed + 1 }
  there : u.buffer n.other = st.buffer n.other

theorem Stream.advanced_of_intake (hn : st.consumeNext = n) (h : u.intake = st.advance.intake) :
    u.Advanced st n := by
  rw [Stream.advance_intake hn] at h
  simp only [Stream.intake, Prod.mk.injEq] at h
  obtain ⟨owner, principal, alternate, current⟩ := h
  refine ⟨?_, ?_, ?_, ?_⟩
  · rw [owner]
    cases n <;> rfl
  · rw [current]
    cases n <;> exact hn
  · cases n
    · exact principal
    · exact alternate
  · cases n
    · exact alternate
    · exact principal

theorem Stream.Advanced.exhausts (h : u.Advanced st n) (running : u.state = .running)
    (hl : (st.buffer n).consumed + 1 = (st.buffer n).bytes.length) : u.Exhausts n := by
  refine ⟨running, h.current, ?_, ?_⟩
  · rw [h.here]
    exact List.ne_nil_of_length_pos (show 0 < (st.buffer n).bytes.length by omega)
  · rw [h.here]
    exact hl.ge

/-- A stream with the mode a chunk asked for, if it did. -/
def Stream.withMode (u : Stream) (mode : Option Nat) : Stream := { u with mode := mode.getD u.mode }

/-- The mode a chunk asked for is taken behind its last byte (R28). -/
theorem Stream.Advanced.moved_eq (h : u.Advanced st n) : u.moved = u.withMode (st.buffer n).nextMode := by
  rw [Stream.moved_eq h.current, h.here]
  rfl

/-- Behind the last byte of the final chunk the input ends (R28, R38). -/
theorem Stream.Advanced.exhaust_final (h : u.Advanced st n) (running : u.state = .running)
    (hl : (st.buffer n).consumed + 1 = (st.buffer n).bytes.length) (hf : (st.buffer n).final = true) :
    (s.setStream x u).exhaust x
      = (s.setStream x (u.withMode (st.buffer n).nextMode)).endOfInput x := by
  rw [State.exhaust_final (s.setStream_stream x u) (h.exhausts running hl) (by rw [h.here]; exact hf),
    State.setStream_setStream, h.moved_eq]

/-- With no record to reject the last byte of the final chunk closes the stream (R28, R38). -/
theorem Stream.Advanced.exhaust_closes (h : u.Advanced st n) (running : u.state = .running)
    (hl : (st.buffer n).consumed + 1 = (st.buffer n).bytes.length) (hf : (st.buffer n).final = true)
    (whole : ¬(u.phase = .record ∧ u.record.begun = true ∧ u.skip = false)) :
    (s.setStream x u).exhaust x
      = { s.setStream x (u.withMode (st.buffer n).nextMode).closedInput with
          staging := s.staging ++ [.close x] } := by
  rw [h.exhaust_final running hl hf, State.endOfInput_closes (s.setStream_stream x _) (by exact whole),
    State.setStream_setStream]
  rfl

theorem Stream.Advanced.exhaust_closes_untrailed (h : u.Advanced st n) (running : u.state = .running)
    (hl : (st.buffer n).consumed + 1 = (st.buffer n).bytes.length) (hf : (st.buffer n).final = true)
    (whole : ¬(u.phase = .record ∧ u.record.begun = true ∧ u.skip = false)) (hp : u.phase ≠ .trailer) :
    (s.setStream x u).exhaust x
      = { s.setStream x { u.withMode (st.buffer n).nextMode with state := .closing } with
          staging := s.staging ++ [.close x] } := by
  rw [h.exhaust_closes running hl hf whole, Stream.closedInput_record (st := u.withMode _) hp]

/-- In the TRAILER phase the trailer is closed first (R38, R58). -/
theorem Stream.Advanced.exhaust_closes_trailer (h : u.Advanced st n) (running : u.state = .running)
    (hl : (st.buffer n).consumed + 1 = (st.buffer n).bytes.length) (hf : (st.buffer n).final = true)
    (hp : u.phase = .trailer) :
    (s.setStream x u).exhaust x
      = { s.setStream x { u.withMode (st.buffer n).nextMode with
            state := .closing, trailer := u.trailerBuild.judge, phase := .afterTrailer } with
          staging := s.staging ++ [.close x] } := by
  have notRecord : u.phase ≠ .record := by rw [hp]; decide
  rw [h.exhaust_closes running hl hf (fun all => notRecord all.1), Stream.closedInput_trailer (st := u.withMode _) hp]
  rfl

/-- The byte is taken, or passed over behind the trailer. -/
def State.byteTaken (s : State) (x : StreamId) (st : Stream) (b : Byte) : State :=
  if st.phase = .afterTrailer then s.setStream x st.advance else s.takeByte x (s.classEntry x b) b

/-- A RUNNING stream's byte that is not held is taken, and then what its buffer's exhaustion brings follows (R28, R51). -/
theorem State.streamByte_takenThen (h : s.streams[x] = st) (hr : st.state = .running) (hb : st.nextByte = some b)
    (hh : st.phase = .afterTrailer ∨ (s.classEntry x b).hold = false) :
    s.streamByte x = (s.byteTaken x st b).exhaust x := by
  unfold State.byteTaken
  by_cases hp : st.phase = .afterTrailer
  · rw [if_pos hp, State.streamByte_passesOver h hr (by rw [hb]; rfl) hp]
  · rw [if_neg hp, State.streamByte_takes h hr hb hp rfl (hh.resolve_left hp)]

theorem Stream.effectiveKind_skip (hk : e.kind = .skip) : st.effectiveKind e = .skip := by
  simp [Stream.effectiveKind, hk]

/-- A SKIP byte is consumed, and fed in a record (R51, R52). -/
theorem State.byteTaken_skip (h : s.streams[x] = st) (he : s.classEntry x b = e) (hk : e.kind = .skip)
    (hp : st.phase ≠ .afterTrailer) : s.byteTaken x st b = s.setStream x (st.taken e b) := by
  unfold State.byteTaken
  rw [if_neg hp, he]
  match phase : st.phase with
  | .record =>
    rw [State.takeByte_record h phase, Stream.effectiveKind_skip hk]
    rfl
  | .trailer =>
    rw [State.takeByte_trailer h phase, hk]
    rfl
  | .afterTrailer => exact absurd phase hp

theorem State.byteTaken_intake (h : s.streams[x] = st) :
    IntakeKept x (s.setStream x st.advance) (s.byteTaken x st b) := by
  unfold State.byteTaken
  split
  · exact .refl x _
  · next hp => exact State.takeByte_intake h hp

/-- A byte is taken alike whatever else its buffer holds (R51). -/
theorem State.byteTaken_rebuffered {v : Stream} {P A : Buffer} (h : s.streams[x] = st)
    (hv : v.advance.rebuffered P A = st.advance) (hsame : ∃ Q B, v = st.rebuffered Q B) :
    s.byteTaken x st b = ((s.setStream x v).byteTaken x v b).rebuffered x P A := by
  obtain ⟨Q, B, rfl⟩ := hsame
  have stream := s.setStream_stream x (st.rebuffered Q B)
  have set (t : Stream) : (s.setStream x t).rebuffered x P A = s.setStream x (t.rebuffered P A) :=
    State.updateStream_setStream s x t _
  have entry : (s.setStream x (st.rebuffered Q B)).classEntry x b = s.classEntry x b := by
    rw [State.classEntry_eq h, State.classEntry_eq stream]
    rfl
  have taken (e : ClassEntry) : ((st.rebuffered Q B).taken e b).rebuffered P A = st.taken e b := by
    rw [Stream.taken, Stream.taken, ← hv]
    rfl
  unfold State.byteTaken
  match hp : st.phase with
  | .afterTrailer =>
    rw [if_pos rfl, if_pos rfl, State.setStream_setStream, set, hv]
  | .record =>
    have inRecord : (st.rebuffered Q B).phase = .record := hp
    have kind : (st.rebuffered Q B).effectiveKind (s.classEntry x b) = st.effectiveKind (s.classEntry x b) := rfl
    rw [if_neg (by decide), if_neg (by decide), State.takeByte_record h hp,
      State.takeByte_record stream inRecord, entry, kind, State.setStream_setStream, ← State.recordByte_rebuffered, set,
      taken]
  | .trailer =>
    have inTrailer : (st.rebuffered Q B).phase = .trailer := hp
    have work (u : Stream) (k : ClassKind) : (u.trailerByte k b).rebuffered P A = (u.rebuffered P A).trailerByte k b := by
      cases k <;> rfl
    rw [if_neg (by decide), if_neg (by decide), State.takeByte_trailer h hp,
      State.takeByte_trailer stream inTrailer, entry, State.setStream_setStream, set, work, taken]

/-- A stream with the buffers another one has after a byte, its own other buffer being the same. -/
theorem Stream.rebuffered_advanced (hn : st.consumeNext = n) (there : u.buffer n.other = st.buffer n.other) :
    u.rebuffered st.advance.principal st.advance.alternate
      = u.setBuffer n { st.buffer n with consumed := (st.buffer n).consumed + 1 } := by
  rw [Stream.advance_eq hn]
  cases n
  · have alternate : u.alternate = st.alternate := there
    simp [Stream.rebuffered, Stream.setBuffer, ← alternate]
  · have principal : u.principal = st.principal := there
    simp [Stream.rebuffered, Stream.setBuffer, ← principal]

/-- The last byte of a chunk is taken as with a further byte behind it, its buffer then being what the chunk leaves. -/
theorem State.byteTaken_last {t : State} {further : Byte} (on : s.powered = true) (h : s.streams[x] = st)
    (hr : st.state = .running) (hn : st.consumeNext = n)
    (hb : (st.buffer n).bytes[(st.buffer n).consumed]? = some b)
    (hl : (st.buffer n).consumed + 1 = (st.buffer n).bytes.length)
    (hh : st.phase = .afterTrailer ∨ (s.classEntry x b).hold = false)
    (run : exec (.streamByte x)
      (s.setStream x (st.setBuffer n { st.buffer n with bytes := (st.buffer n).bytes ++ [further] })) = .next t) :
    s.byteTaken x st b
      = t.setStream x
          (t.streams[x].setBuffer n { st.buffer n with consumed := (st.buffer n).consumed + 1 }) := by
  let v : Stream := st.setBuffer n { st.buffer n with bytes := (st.buffer n).bytes ++ [further] }
  have stream := s.setStream_stream x v
  have current : v.consumeNext = n := by cases n <;> exact hn
  have filled : v.buffer n = { st.buffer n with bytes := (st.buffer n).bytes ++ [further] } := by simp [v]
  have same : ∃ Q B, v = st.rebuffered Q B := by cases n <;> exact ⟨_, _, rfl⟩
  have phase : v.phase = st.phase := by cases n <;> rfl
  have entry : (s.setStream x v).classEntry x b = s.classEntry x b := by
    obtain ⟨Q, B, hv⟩ := same
    rw [State.classEntry_eq h, State.classEntry_eq stream, hv]
    rfl
  have next : v.nextByte = some b := by
    refine Stream.nextByte_eq current ?_
    rw [filled]
    exact (List.getElem?_append_left (show (st.buffer n).consumed < (st.buffer n).bytes.length by omega)).trans hb
  have kept := State.byteTaken_intake (b := b) stream
  have more : ((s.setStream x v).byteTaken x v b).streams[x].nextByte.isSome = true := by
    rw [Stream.nextByte_of_intake kept.intake, State.setStream_stream]
    refine Stream.advance_nextByte current ?_
    rw [filled]
    simp only [List.length_append, List.length_singleton]
    omega
  have taken : t = (s.setStream x v).byteTaken x v b := by
    rw [exec_streamByte (by exact on), State.streamByte_takenThen stream (by cases n <;> exact hr) next
      (by rw [phase, entry]; exact hh), State.exhaust_of_nextByte more] at run
    exact (Host.Outcome.next.inj run).symm
  have advanced : t.streams[x].Advanced v n := by
    rw [taken]
    refine Stream.advanced_of_intake current (kept.intake.trans ?_)
    rw [State.setStream_stream]
  have there : t.streams[x].buffer n.other = st.buffer n.other := by
    rw [advanced.there]
    exact st.buffer_setBuffer_other n _
  have swapped : v.advance.rebuffered st.advance.principal st.advance.alternate = st.advance := by
    rw [Stream.advance_eq hn, Stream.advance_eq current]
    cases n <;> rfl
  rw [State.byteTaken_rebuffered h swapped same, ← taken, ← Stream.rebuffered_advanced hn there]
  rfl

end

/-! ## Decimal texts (R59, R61) -/

/-- The bytes of a text are the digits of a list. -/
def spellsDigits (bytes : List Byte) (ds : List Nat) : Prop :=
  bytes = ds.map (fun d => BitVec.ofNat 8 (48 + d)) ∧ ∀ d ∈ ds, d ≤ 9

theorem digitOf_eq_some (b : Byte) (d : Nat) : digitOf b = some d ↔ b = BitVec.ofNat 8 (48 + d) ∧ d ≤ 9 := by
  unfold digitOf
  constructor
  · intro h
    split at h
    · next hb =>
      cases h
      exact ⟨BitVec.eq_of_toNat_eq (by rw [BitVec.toNat_ofNat]; omega), by omega⟩
    · cases h
  · rintro ⟨rfl, hd⟩
    have value : (BitVec.ofNat 8 (48 + d)).toNat = 48 + d := by
      rw [BitVec.toNat_ofNat, Nat.mod_eq_of_lt (by omega)]
    rw [value, if_pos (by omega), Nat.add_sub_cancel_left]

theorem digitsOf_eq_some (bytes : List Byte) (ds : List Nat) : digitsOf bytes = some ds ↔ spellsDigits bytes ds := by
  induction bytes generalizing ds with
  | nil => cases ds <;> simp [digitsOf, spellsDigits]
  | cons b rest ih =>
    cases ds with
    | nil =>
      refine iff_of_false ?_ (by simp [spellsDigits])
      unfold digitsOf
      split <;> simp
    | cons d ds =>
      have both : digitsOf (b :: rest) = some (d :: ds) ↔ digitOf b = some d ∧ digitsOf rest = some ds := by
        rw [digitsOf]
        cases digitOf b <;> cases digitsOf rest <;> simp
      rw [both, digitOf_eq_some, ih]
      simp only [spellsDigits, List.map_cons, List.cons.injEq, List.forall_mem_cons]
      tauto

/-- The number digits spell is that of their positions. -/
theorem decimal_eq_ofDigits (ds : List Nat) : decimal ds = Nat.ofDigits 10 ds.reverse := by
  induction ds using List.reverseRecOn with
  | nil => rfl
  | append_singleton ds d ih =>
    rw [List.reverse_append, List.reverse_singleton, List.singleton_append, Nat.ofDigits_cons, ← ih]
    simp only [decimal, List.foldl_append, List.foldl_cons, List.foldl_nil]
    omega

/-- A trailer field gives a number when it spells one, not empty and within its limit (R59). -/
theorem trailerNumber_eq_some (bytes : List Byte) (limit v : Nat) :
    trailerNumber bytes limit = some v ↔
      (∃ ds, (bytes = ds.map (fun d => BitVec.ofNat 8 (48 + d)) ∧ (∀ d ∈ ds, d ≤ 9) ∧ ds ≠ [])
        ∧ v = Nat.ofDigits 10 ds.reverse) ∧ v ≤ limit := by
  unfold trailerNumber upTo
  cases h : digitsOf bytes with
  | none =>
    refine iff_of_false (by simp) ?_
    rintro ⟨⟨ds, ⟨spelt, digits, -⟩, -⟩, -⟩
    rw [(digitsOf_eq_some bytes ds).mpr ⟨spelt, digits⟩] at h
    cases h
  | some ds =>
    have spelt := (digitsOf_eq_some bytes ds).mp h
    have empty : bytes.isEmpty = true ↔ ds = [] := by
      rw [spelt.1]
      simp
    simp only
    constructor
    · intro hv
      split at hv
      · cases hv
      · next some =>
        split at hv
        · next fits =>
          cases hv
          exact ⟨⟨ds, ⟨spelt.1, spelt.2, fun none => some (empty.mpr none)⟩, decimal_eq_ofDigits ds⟩, fits⟩
        · cases hv
    · rintro ⟨⟨es, ⟨bytesEq, digits, some⟩, rfl⟩, fits⟩
      obtain rfl : ds = es := by
        rw [(digitsOf_eq_some bytes es).mpr ⟨bytesEq, digits⟩] at h
        exact (Option.some.inj h).symm
      rw [← decimal_eq_ofDigits] at fits ⊢
      rw [if_neg (fun none => some (empty.mp none)), if_pos fits]

/-- A trailer that closes gives its three numbers, or nothing (R59). -/
theorem TrailerBuild.judge_eq_some (t : TrailerBuild) (v : Trailer) :
    t.judge = some v ↔ t.bad = false ∧ t.field = 3 ∧ trailerNumber t.text1 4294967295 = some v.count
      ∧ trailerNumber t.text2 999999999999999 = some v.duration
      ∧ trailerNumber t.text3 4294049520 = some v.check := by
  obtain ⟨count, duration, check⟩ := v
  unfold TrailerBuild.judge
  split
  · next bad =>
    refine iff_of_false (by simp) fun ⟨good, three, _⟩ => ?_
    simp [good, three] at bad
  · next good =>
    rw [not_or, Bool.not_eq_true, not_not] at good
    simp only [good, true_and, Config.durationLimit, Config.checkLimit]
    cases trailerNumber t.text1 4294967295 <;> cases trailerNumber t.text2 999999999999999 <;>
      cases trailerNumber t.text3 4294049520 <;> simp

end Sys2Proof.Machine

/-- Settles O31: the last byte is taken as any other, and `exhaust` passes its buffer on or ends the input; a closed trailer is
judged by its three texts. -/
theorem finalByteClosesInput : Obligations.FinalByteClosesInput := by
  refine ⟨fun s x st n b on h hr hn hb hl hf => ?_, fun s t x st n m b further on h hr hn hnm hb hl hh run => ?_, ?_⟩
  · intro consumed closes
    have takes (hh : st.phase = .afterTrailer ∨ (s.classEntry x b).hold = false) :
        exec (.streamByte x) s = .next ((s.byteTaken x st b).exhaust x) := by
      rw [exec_streamByte on, State.streamByte_takenThen h hr (Stream.nextByte_eq hn hb) hh]
    refine ⟨fun hp => ?_, fun e he hk hh => ?_⟩
    · have advanced : st.advance.Advanced st n := Stream.advanced_of_intake hn rfl
      have phase : st.advance.phase ≠ .record := by rw [Stream.advance_phase, hp]; decide
      have taken : s.byteTaken x st b = s.setStream x st.advance := if_pos hp
      refine (takes (.inl hp)).trans (congrArg _ ?_)
      rw [taken, advanced.exhaust_closes_untrailed (st.advance_state.trans hr) hl hf (fun all => phase all.1)
        (fun h => nomatch hp.symm.trans (st.advance_phase.symm.trans h)), Stream.advance_eq hn]
      cases n <;> rfl
    · intro taken
      have takes := takes (.inr (by rw [he]; exact hh))
      have advanced (feed : Bool) : (st.consumed e b feed).Advanced st n := Stream.advanced_of_intake hn rfl
      have running (feed : Bool) : (st.consumed e b feed).state = .running := st.advance_state.trans hr
      have kind : st.effectiveKind e ≠ .trailerStart := by rw [Stream.effectiveKind_skip hk]; decide
      have fed (hp : st.phase = .record) :
          s.byteTaken x st b = s.setStream x (st.consumed e b e.includeInCheck) := by
        rw [State.byteTaken_skip h he hk (by rw [hp]; decide), Stream.taken_fed hp kind]
      have moved : (st.consumed e b e.includeInCheck).withMode (st.buffer n).nextMode = consumed taken := by
        rw [Stream.consumed, Stream.advance_eq hn]
        cases n <;> rfl
      have phase (feed : Bool) : (st.consumed e b feed).phase = st.phase :=
        st.advance_phase
      have record (feed : Bool) : (st.consumed e b feed).record = st.record :=
        st.advance_record
      have skip (feed : Bool) : (st.consumed e b feed).skip = st.skip :=
        st.advance_skip
      refine ⟨fun hp whole => ?_, fun hp begun counts => ?_, fun hp => ?_⟩
      · have noReject : ¬((st.consumed e b e.includeInCheck).phase = .record
            ∧ (st.consumed e b e.includeInCheck).record.begun = true
            ∧ (st.consumed e b e.includeInCheck).skip = false) := by
          rw [record, skip]
          rintro ⟨-, begun, counts⟩
          obtain h | h := whole
          · rw [h] at begun
            cases begun
          · rw [h] at counts
            cases counts
        refine takes.trans (congrArg _ ?_)
        rw [fed hp, (advanced _).exhaust_closes_untrailed (running _) hl hf noReject
          (fun h => nomatch hp.symm.trans ((phase _).symm.trans h)), moved]
        rfl
      · intro base r
        refine takes.trans (congrArg _ ?_)
        rw [fed hp, (advanced _).exhaust_final (running _) hl hf, moved]
        have opened : base.streams[x] = consumed taken := s.setStream_stream x _
        have ready : base.streams[x].phase = .record ∧ base.streams[x].record.begun = true
            ∧ base.streams[x].skip = false := by
          rw [opened, ← moved]
          exact ⟨(phase e.includeInCheck).trans hp,
            (congrArg RecordBuild.begun (record e.includeInCheck)).trans begun, (skip e.includeInCheck).trans counts⟩
        exact base.endOfInput_truncates x ready
      · have unfed : s.byteTaken x st b = s.setStream x (st.consumed e b false) := by
          rw [State.byteTaken_skip h he hk (by rw [hp]; decide), Stream.taken_unfed (.inl (by rw [hp]; decide))]
        refine takes.trans (congrArg _ ?_)
        rw [unfed, (advanced _).exhaust_closes_trailer (running _) hl hf ((phase _).trans hp), Stream.consumed,
          Stream.advance_eq hn]
        cases n <;> rfl
  · intro u left becomes exhausted freed
    obtain rfl : m = n.other := BufferName.eq_other_of_ne hnm
    have takes : exec (.streamByte x) s = .next ((left u).exhaust x) := by
      rw [exec_streamByte on, State.streamByte_takenThen h hr (Stream.nextByte_eq hn hb) hh,
        State.byteTaken_last on h hr hn hb hl hh run]
      rfl
    have stream : (left u).streams[x] = u := t.setStream_stream x u
    have setLeft (v : Stream) : (left u).setStream x v = left v := t.setStream_setStream x u v
    have kept := State.byteTaken_intake (s := s) (x := x) (b := b) h
    rw [State.byteTaken_last on h hr hn hb hl hh run] at kept
    have advanced : u.Advanced st n := by
      refine Stream.advanced_of_intake hn ?_
      have intake := kept.intake
      rwa [State.setStream_stream, State.setStream_stream] at intake
    have movedTo : u.moved = exhausted := advanced.moved_eq
    have passedTo : u.passedOn = freed := by
      rw [Stream.passedOn_eq advanced.current, movedTo]
    rw [← advanced.there]
    refine ⟨fun idle => ?_, fun running more => ⟨fun bytes => ?_, fun bytes => ?_⟩, fun running final =>
      ⟨fun begun => ?_, fun whole => ?_⟩⟩
    · exact takes.trans (congrArg _ (State.exhaust_notRunning stream idle))
    · have notFinal : (u.buffer n).final = false := by rw [advanced.here]; exact more
      refine takes.trans (congrArg _ ?_)
      rw [State.exhaust_runsOn stream (advanced.exhausts running hl) notFinal bytes, setLeft, passedTo]
    · have notFinal : (u.buffer n).final = false := by rw [advanced.here]; exact more
      have owner : freed.owner = st.owner := (advanced.owner : u.owner = st.owner) ▸ by cases n <;> rfl
      have settings : (left u).settings = s.settings := kept.settings
      refine takes.trans (congrArg _ ?_)
      rw [State.exhaust_starves stream (advanced.exhausts running hl) notFinal bytes, setLeft, passedTo]
      simp only [State.waitingStream, Stream.port, owner, settings]
    · refine takes.trans (congrArg _ ((advanced.exhaust_final running hl final).trans ?_))
      have staging := (left exhausted).rejectRecord_phase x .truncated .endOfInput |>.staging
      have opened : (left exhausted).streams[x] = exhausted := t.setStream_stream x exhausted
      refine (State.endOfInput_truncates (left exhausted) x (by rw [opened]; exact begun)).trans ?_
      simp only [staging]
    · exact takes.trans (congrArg _ (advanced.exhaust_closes running hl final whole))
  · intro t v spells
    rw [TrailerBuild.judge_eq_some, trailerNumber_eq_some, trailerNumber_eq_some, trailerNumber_eq_some]
    simp only [spells]
    tauto
end

section
/-! PROOFS. Conversion and the end of a record: O29. -/

open Sys2Proof Sys2Proof.Machine
namespace Sys2Proof.Machine

/-! ## Columns in ascending order (R60) -/

/-- What one column makes of the conversion so far. -/
def convertStep (day : Nat) (key : OverflowKey) (map : Vector FieldTarget 16) (b : RecordBuild)
    (so : Except RejectReason CallRecord) (c : Fin 16) : Except RejectReason CallRecord :=
  match so with
  | .error reason => .error reason
  | .ok r =>
    match convertColumn day map[c] b.texts[c] r with
    | .value v => .ok v
    | .overflow v => if key = .reject then .error .overflow else .ok { v with clamped := true }
    | .bad reason => .error reason

section
variable {day : Nat} {key : OverflowKey} {map : Vector FieldTarget 16} {b : RecordBuild}

theorem foldl_convertStep_error (reason : RejectReason) (cs : List (Fin 16)) :
    cs.foldl (convertStep day key map b) (.error reason) = .error reason := by
  induction cs with
  | nil => rfl
  | cons c cs ih => exact ih

theorem convertColumns_eq_foldl (cs : List (Fin 16)) (r : CallRecord) :
    convertColumns day key (cs.map fun c => (map[c], b.texts[c])) r = cs.foldl (convertStep day key map b) (.ok r) := by
  induction cs generalizing r with
  | nil => rfl
  | cons c cs ih =>
    rw [List.map_cons, List.foldl_cons, convertColumns, convertStep]
    cases convertColumn day map[c] b.texts[c] r with
    | value v => exact ih v
    | overflow v =>
      cases key with
      | reject => exact (foldl_convertStep_error _ cs).symm
      | clamp => exact ih { v with clamped := true }
    | bad reason => exact (foldl_convertStep_error _ cs).symm

/-- A record converts its sixteen columns in ascending order (R60). -/
theorem convertRecord_eq_foldl :
    convertRecord day key map b = (List.finRange 16).foldl (convertStep day key map b) (.ok {}) := by
  unfold convertRecord
  rw [toList_eq_map_finRange, toList_eq_map_finRange, List.zip_map', convertColumns_eq_foldl]

end

/-! ## Texts (R61, R65) -/

/-- A text with a byte that is no digit. -/
def hasNonDigit (bytes : List Byte) : Prop := ∃ b ∈ bytes, b.toNat < 48 ∨ 57 < b.toNat

theorem toNat_of_spells {bytes : List Byte} {ds : List Nat} (h : spellsDigits bytes ds) {b : Byte} (hb : b ∈ bytes) :
    48 ≤ b.toNat ∧ b.toNat ≤ 57 := by
  obtain ⟨rfl, digits⟩ := h
  obtain ⟨d, hd, rfl⟩ := List.mem_map.mp hb
  have := digits d hd
  rw [BitVec.toNat_ofNat, Nat.mod_eq_of_lt (by omega)]
  omega

theorem digitsOf_eq_none {bytes : List Byte} (h : hasNonDigit bytes) : digitsOf bytes = none := by
  obtain ⟨b, hb, range⟩ := h
  cases hd : digitsOf bytes with
  | none => rfl
  | some ds =>
    have := toNat_of_spells ((digitsOf_eq_some bytes ds).mp hd) hb
    omega

theorem ne_nil_of_hasNonDigit {bytes : List Byte} (h : hasNonDigit bytes) : bytes ≠ [] := by
  obtain ⟨b, hb, -⟩ := h
  exact List.ne_nil_of_mem hb

theorem spellsDigits_nil_iff {bytes : List Byte} {ds : List Nat} (h : spellsDigits bytes ds) :
    bytes = [] ↔ ds = [] := by
  rw [h.1]
  simp

section
variable {t : FieldText} {ds : List Nat} {maximum : Nat}

theorem readNumber_digits (h : spellsDigits t.bytes ds) (hne : ds ≠ []) :
    readNumber maximum t =
      (if t.long = true ∨ maximum < Nat.ofDigits 10 ds.reverse then .overflow
        else .value (Nat.ofDigits 10 ds.reverse)) := by
  have some : ¬t.bytes.isEmpty = true := fun none => hne ((spellsDigits_nil_iff h).mp (List.isEmpty_iff.mp none))
  unfold readNumber
  rw [if_neg some, (digitsOf_eq_some _ ds).mpr h, ← decimal_eq_ofDigits]

theorem readNumber_format (h : hasNonDigit t.bytes) : readNumber maximum t = .format := by
  unfold readNumber
  rw [if_neg (fun none => ne_nil_of_hasNonDigit h (List.isEmpty_iff.mp none)), digitsOf_eq_none h]

theorem readNumber_absent (h : t.bytes = []) : readNumber maximum t = .absent := by
  simp [readNumber, h]

variable {r : CallRecord} {put : Nat → CallRecord} {absent : CallRecord}

/-- A decimal column with digits gives its value, or an OVERFLOW with the maximum put in (R61, R65). -/
theorem convertDecimal_digits (h : spellsDigits t.bytes ds) (hne : ds ≠ []) :
    convertDecimal maximum put absent t =
      (if t.long = true ∨ maximum < Nat.ofDigits 10 ds.reverse then .overflow (put maximum)
        else .value (put (Nat.ofDigits 10 ds.reverse))) := by
  unfold convertDecimal
  rw [readNumber_digits h hne]
  split
  · next hv => split at hv <;> cases hv
  · next hv => split at hv <;> cases hv
  · next hv =>
    split at hv
    · cases hv
    · next small =>
      cases hv
      rw [if_neg small]
  · next hv =>
    split at hv
    · next large => rw [if_pos large]
    · cases hv

theorem convertDecimal_format (h : hasNonDigit t.bytes) : convertDecimal maximum put absent t = .bad .format := by
  unfold convertDecimal
  rw [readNumber_format h]

theorem convertDecimal_absent (h : t.bytes = []) : convertDecimal maximum put absent t = .value absent := by
  unfold convertDecimal
  rw [readNumber_absent h]

/-- START_EPOCH converts as the other numbers do, but must not be missing (R61). -/
theorem convertEpoch_eq (hne : t.bytes ≠ []) :
    convertEpoch r t = convertDecimal 4294943999 (fun n => { r with start := n }) r t := by
  unfold convertEpoch convertDecimal
  cases h : readNumber Config.clockLimit t with
  | absent =>
    unfold readNumber at h
    rw [if_neg (fun none => hne (List.isEmpty_iff.mp none))] at h
    split at h
    · cases h
    · split at h <;> cases h
  | format => rfl
  | value n => rfl
  | overflow => rfl

theorem convertEpoch_absent (h : t.bytes = []) : convertEpoch r t = .bad .missingField := by
  unfold convertEpoch
  rw [readNumber_absent h]

/-! ## START_CLOCK (R62) -/

variable {day : Nat}

theorem convertClock_good {h m n : Nat} (hh : h ≤ 23) (hm : m ≤ 59) (hn : n ≤ 59) (short : t.long = false)
    (spelt : spellsDigits t.bytes [h / 10, h % 10, m / 10, m % 10, n / 10, n % 10]) :
    convertClock day r t = .value { r with start := day * 86400 + h * 3600 + m * 60 + n } := by
  have hour : h / 10 * 10 + h % 10 = h := by omega
  have minute : m / 10 * 10 + m % 10 = m := by omega
  have second : n / 10 * 10 + n % 10 = n := by omega
  have some : t.bytes.isEmpty = false := by rw [spelt.1]; rfl
  unfold convertClock
  rw [some, short, (digitsOf_eq_some _ _).mpr spelt]
  simp only [Bool.false_eq_true, if_false, hour, minute, second]
  rw [if_pos ⟨hh, hm, hn⟩]

/-- A clock text that is long, holds a non-digit, is not six digits or exceeds a day is bad (R62). -/
theorem convertClock_bad (hne : t.bytes ≠ [])
    (h : t.long = true ∨ hasNonDigit t.bytes ∨ t.bytes.length ≠ 6
      ∨ (∃ a b c d u v, spellsDigits t.bytes [a, b, c, d, u, v]
          ∧ (2 < a ∨ (a = 2 ∧ 3 < b) ∨ 5 < c ∨ 5 < u))) :
    convertClock day r t = .bad .format := by
  unfold convertClock
  rw [if_neg (fun none => hne (List.isEmpty_iff.mp none))]
  split
  · rfl
  · next notLong =>
    split
    · next a b c d u v hd =>
      have spelt := (digitsOf_eq_some _ _).mp hd
      refine if_neg ?_
      obtain long | foreign | length | ⟨a', b', c', d', u', v', spelt', large⟩ := h
      · exact absurd long notLong
      · rw [digitsOf_eq_none foreign] at hd
        cases hd
      · exact absurd (by rw [spelt.1]; rfl) length
      · rw [(digitsOf_eq_some _ _).mpr spelt'] at hd
        cases hd
        omega
    · rfl

/-! ## DURATION (R63) -/

theorem splitPoint_plain {bytes : List Byte} (h : ∀ b ∈ bytes, b.toNat ≠ 46) : splitPoint bytes = (bytes, none) := by
  induction bytes with
  | nil => rfl
  | cons b rest ih =>
    obtain ⟨hb, hrest⟩ := List.forall_mem_cons.mp h
    rw [splitPoint, if_neg hb, ih hrest]

theorem splitPoint_point {whole : List Byte} (fraction : List Byte) (h : ∀ b ∈ whole, b.toNat ≠ 46) :
    splitPoint (whole ++ 46 :: fraction) = (whole, some fraction) := by
  induction whole with
  | nil => rfl
  | cons b rest ih =>
    obtain ⟨hb, hrest⟩ := List.forall_mem_cons.mp h
    rw [List.cons_append, splitPoint, if_neg hb, ih hrest]

/-- A text is split at its first point, or has none. -/
theorem splitPoint_spec (bytes : List Byte) :
    splitPoint bytes = (bytes, none)
      ∨ ∃ whole fraction, bytes = whole ++ 46 :: fraction ∧ splitPoint bytes = (whole, some fraction) := by
  induction bytes with
  | nil => exact .inl rfl
  | cons b rest ih =>
    by_cases hb : b.toNat = 46
    · refine .inr ⟨[], rest, ?_, ?_⟩
      · rw [List.nil_append, show b = 46 from BitVec.eq_of_toNat_eq hb]
      · rw [splitPoint, if_pos hb]
    · obtain h | ⟨whole, fraction, spelt, h⟩ := ih
      · exact .inl (by rw [splitPoint, if_neg hb, h])
      · exact .inr ⟨b :: whole, fraction, by rw [spelt, List.cons_append], by rw [splitPoint, if_neg hb, h]⟩

theorem noPoint_of_spells {bytes : List Byte} (h : spellsDigits bytes ds) : ∀ b ∈ bytes, b.toNat ≠ 46 := by
  intro b hb
  have := toNat_of_spells h hb
  omega

theorem durationOf_whole {bytes : List Byte} (h : spellsDigits bytes ds) (hne : ds ≠ []) :
    durationOf bytes = some (Nat.ofDigits 10 ds.reverse * 10) := by
  have some : ¬ds.isEmpty = true := fun none => hne (List.isEmpty_iff.mp none)
  rw [durationOf, splitPoint_plain (noPoint_of_spells h)]
  simp only [(digitsOf_eq_some bytes ds).mpr h, if_neg some, decimal_eq_ofDigits]

theorem durationOf_point {whole fraction : List Byte} {fs : List Nat} (hw : spellsDigits whole ds)
    (hf : spellsDigits fraction fs) (hne : ds ++ fs ≠ []) :
    durationOf (whole ++ 46 :: fraction) = some (Nat.ofDigits 10 ds.reverse * 10 + fs.headD 0) := by
  have some : ¬(ds.isEmpty = true ∧ fs.isEmpty = true) := fun ⟨whole, fraction⟩ =>
    hne (by rw [List.isEmpty_iff.mp whole, List.isEmpty_iff.mp fraction]; rfl)
  rw [durationOf, splitPoint_point fraction (noPoint_of_spells hw)]
  simp only [(digitsOf_eq_some whole ds).mpr hw, (digitsOf_eq_some fraction fs).mpr hf, if_neg some,
    decimal_eq_ofDigits]

/-- A text of neither form is no duration (R63). -/
theorem durationOf_eq_none {bytes : List Byte} (plain : ∀ ds, ¬spellsDigits bytes ds)
    (pointed : ∀ whole fraction ds fs, bytes = whole ++ 46 :: fraction → spellsDigits whole ds →
      spellsDigits fraction fs → ds ++ fs = []) : durationOf bytes = none := by
  obtain h | ⟨whole, fraction, spelt, h⟩ := splitPoint_spec bytes
  · rw [durationOf, h]
    cases hd : digitsOf bytes with
    | none => simp only [hd]
    | some ds => exact absurd ((digitsOf_eq_some bytes ds).mp hd) (plain ds)
  · rw [durationOf, h]
    cases hw : digitsOf whole with
    | none => simp only [hw]
    | some ds =>
      cases hf : digitsOf fraction with
      | none => simp only [hw, hf]
      | some fs =>
        obtain ⟨rfl, rfl⟩ := List.append_eq_nil_iff.mp (pointed whole fraction ds fs spelt
          ((digitsOf_eq_some whole ds).mp hw) ((digitsOf_eq_some fraction fs).mp hf))
        simp only [hw, hf, List.isEmpty_nil, and_self, if_true]

theorem convertDuration_tenths {d : Nat} (h : durationOf t.bytes = some d) (hne : t.bytes ≠ []) :
    convertDuration r t =
      (if t.long = true ∨ 99999999 < d then .overflow { r with duration := 99999999 }
        else .value { r with duration := d }) := by
  unfold convertDuration
  rw [if_neg (fun none => hne (List.isEmpty_iff.mp none)), h]

end

section
/-! ## CALLING and CALLED (R64, R65) -/

variable {t : FieldText} {r : CallRecord} {ds : List Nat}

theorem convertCalling_digits (h : spellsDigits t.bytes ds) :
    convertCalling r t =
      (if t.long = true ∨ 20 < ds.length then .overflow { r with calling := ds.take 20 }
        else .value { r with calling := ds }) := by
  unfold convertCalling
  rw [(digitsOf_eq_some _ ds).mpr h]

theorem convertCalled_digits (h : spellsDigits t.bytes ds) (hne : ds ≠ []) :
    convertCalled r t =
      (if t.long = true ∨ 24 < ds.length then .overflow { r with called := ds.take 24 }
        else .value { r with called := ds }) := by
  unfold convertCalled
  rw [if_neg (fun none => hne ((spellsDigits_nil_iff h).mp (List.isEmpty_iff.mp none))), (digitsOf_eq_some _ ds).mpr h]

theorem convertCalling_format (h : hasNonDigit t.bytes) : convertCalling r t = .bad .format := by
  unfold convertCalling
  rw [digitsOf_eq_none h]

theorem convertCalled_format (h : hasNonDigit t.bytes) : convertCalled r t = .bad .format := by
  unfold convertCalled
  rw [if_neg (fun none => ne_nil_of_hasNonDigit h (List.isEmpty_iff.mp none)), digitsOf_eq_none h]

theorem convertCalling_absent (h : t.bytes = []) (hl : t.long = false) :
    convertCalling r t = .value { r with calling := [] } := by
  have spelt : spellsDigits t.bytes [] := by simp [spellsDigits, h]
  rw [convertCalling_digits spelt]
  simp [hl]

/-! ## The record handed on (R37, R68) -/

variable {s : State} {x : StreamId} {st : Stream}

theorem State.handRecord_stages (h : s.streams[x] = st) (hr : s.stagingRecords + s.blocked.length < 256) :
    s.handRecord x r =
      { s with
        staging := s.staging ++ [.record x r]
        streams := s.streams.set x
          { st with
            accepted := st.accepted + 1, duration := min (st.duration + r.duration) 999999999999999 } } := by
  unfold State.handRecord
  rw [if_pos (show s.stagingRoom = true from decide_eq_true hr), State.stageRecord, State.updateStream_eq h]
  rfl

theorem State.handRecord_blocks (h : s.streams[x] = st) (hr : 256 ≤ s.stagingRecords + s.blocked.length) :
    s.handRecord x r =
      { s with
        blocked := s.blocked ++ [x]
        streams := s.streams.set x { st with state := .blocked, ready := some r } } := by
  have full : ¬s.stagingRoom = true := fun room => absurd (of_decide_eq_true room) (by
    simp only [Config.stagingRecords]
    omega)
  unfold State.handRecord
  rw [if_neg full, State.updateStream_eq h]
  rfl

end

end Sys2Proof.Machine

/-- Settles O29: the converted record is handed on with room or kept; the columns convert by a fold, and each target by
reading its text. -/
theorem recordEndStagesRecord : Obligations.RecordEndStagesRecord := by
  refine ⟨fun s x st n f b e r on h hr hb hn hl hp hs begun hc he hk hh hf conv => ?_,
    fun day key map b => convertRecord_eq_foldl, fun day r t ds fs => ?_⟩
  · intro taken
    have inside : s.ByteInside x st n b e := ⟨on, h, hr, hn, hb, hl, he, hh⟩
    have taken_eq : ({ st.consumed e b e.includeInCheck with record := {} } : Stream) = taken := by
      rw [Stream.consumed, Stream.advance_eq hn]
    have fields : st.consumed e b e.includeInCheck = { st with
        principal := st.advance.principal, alternate := st.advance.alternate, mode := e.nextMode
        dualSum := if e.includeInCheck = true then st.dualSum.feed b else st.dualSum } := by
      rw [Stream.consumed, Stream.advance_fields]
    have stream := (s.setStream_stream x (st.consumed e b e.includeInCheck)).trans fields
    have hands : exec (.streamByte x) s = .next ((s.setStream x taken).handRecord x r) := by
      rw [inside.exec_fed hp (Stream.effectiveKind_recordEnd hk) (by decide)]
      refine congrArg Host.Outcome.next
        ((State.endRecord_converts stream hs begun ((State.conversion_of_file hf).trans conv)).trans ?_)
      rw [if_neg (by simp only; omega), State.setStream_setStream, ← taken_eq, fields]
    rw [hands]
    have handed := s.setStream_stream x taken
    refine ⟨fun room => ?_, fun full => ?_⟩
    · rw [State.handRecord_stages handed room]
      simp only [State.setStream, set_set_fin]
      cases n <;> rfl
    · rw [State.handRecord_blocks handed full]
      simp only [State.setStream, set_set_fin]
  · intro spells foreign converts number tenths
    have notEmpty (h : foreign) : t.bytes ≠ [] := ne_nil_of_hasNonDigit h
    have some {es : List Nat} (h : spells t.bytes es) (hne : es ≠ []) : t.bytes ≠ [] := fun none =>
      hne ((spellsDigits_nil_iff h).mp none)
    refine ⟨rfl, fun none short => ?_, ?_, ?_, ?_, ?_, ?_, ?_, ?_, ?_, ?_, ?_, ?_, ?_, ?_⟩
    · exact ⟨convertEpoch_absent none, by simp [converts, convertColumn, convertClock, none],
        by simp [converts, convertColumn, convertDuration, none], by simp [converts, convertColumn, convertCalled, none],
        convertCalling_absent none short, convertDecimal_absent none, convertDecimal_absent none,
        convertDecimal_absent none, convertDecimal_absent none⟩
    · exact ⟨fun h hne => (convertEpoch_eq (some h hne)).trans (convertDecimal_digits h hne),
        fun h => (convertEpoch_eq (notEmpty h)).trans (convertDecimal_format h)⟩
    · exact ⟨fun h hne => convertDecimal_digits h hne, convertDecimal_format⟩
    · exact ⟨fun h hne => convertDecimal_digits h hne, convertDecimal_format⟩
    · exact ⟨fun h hne => convertDecimal_digits h hne, convertDecimal_format⟩
    · exact ⟨fun h hne => convertDecimal_digits h hne, convertDecimal_format⟩
    · exact fun h m n hh hm hn short spelt => convertClock_good hh hm hn short spelt
    · exact fun hne bad => convertClock_bad hne bad
    · exact fun h hne => convertDuration_tenths (durationOf_whole h hne) (some h hne)
    · exact fun whole fraction spelt hw hf hne =>
        convertDuration_tenths (by rw [spelt]; exact durationOf_point hw hf hne) (by rw [spelt]; simp)
    · intro hne plain pointed
      have none := durationOf_eq_none plain pointed
      simp [converts, convertColumn, convertDuration, hne, none]
    · exact fun h => ⟨convertCalling_format h, convertCalled_format h⟩
    · exact convertCalling_digits
    · exact fun h hne => convertCalled_digits h hne
end

section
/-! PROOFS. The refusals of OPEN FILE: O21. -/

open Sys2Proof Sys2Proof.Machine
namespace Sys2Proof.Machine

/-! ## What OPEN FILE asks (R24) -/

section
variable {s : State} {w q d : Nat} {c f : Byte} {k : Fin 4}

theorem readUpTo_eq_none {limit : Nat} {b : Byte} (h : limit < b.toNat) : readUpTo limit b = none :=
  if_neg (Nat.not_le.mpr h)

theorem State.openFile_outOfRange (h : 1023 < w ∨ 49709 < d ∨ 7 < c.toNat ∨ 3 < f.toNat) :
    s.openFile w q d c f = .error .badRequest := by
  unfold State.openFile
  split
  · next w' d' c' f' hw hd hc hf =>
    obtain ⟨hw, -⟩ := upTo_eq_some.mp hw
    obtain ⟨hd, -⟩ := upTo_eq_some.mp hd
    have hw : w ≤ 1023 := hw
    have hd : d ≤ 49709 := hd
    obtain h | h | h | h := h
    · omega
    · omega
    · rw [readUpTo_eq_none h] at hc
      cases hc
    · rw [readIndex_eq_none h] at hf
      cases hf
  · rfl

/-- OPEN FILE with its arguments in range meets orders 2 to 5 first, then looks for a stream (R24). -/
theorem State.openFile_inRange (hw : w ≤ 1023) (hd : d ≤ 49709) (hc : c.toNat ≤ 7) (hf : f.toNat = k.val) :
    (∀ status, s.openFileBar d c.toNat k = some status → s.openFile w q d c f = .error status)
      ∧ (s.openFileBar d c.toNat k = none → s.freeStream = none →
        s.openFile w q d c f = .error (s.noStreamStatus w q)) := by
  have hw' : upTo Config.lastSwitch w = some w := if_pos hw
  have hd' : upTo Config.lastDay d = some d := if_pos hd
  have hc' : readUpTo 7 c = some c.toNat := if_pos hc
  constructor
  · intro status hb
    simp only [State.openFile, readIndex_of_toNat hf, hw', hd', hc', hb]
  · intro hb hx
    simp only [State.openFile, readIndex_of_toNat hf, hw', hd', hc', hb, hx]

theorem State.openFileBar_map (h : mapsRequired s.settings.profiles[k].map.toList = false) (d c : Nat) :
    s.openFileBar d c k = some .badRequest := by
  unfold State.openFileBar
  rw [h]
  rfl

theorem State.openFileBar_clock (hm : mapsRequired s.settings.profiles[k].map.toList = true)
    (h : s.clock.state = .unset) (d c : Nat) : s.openFileBar d c k = some .clockUnset := by
  have unset : s.clockIsSet = false := by simp [State.clockIsSet, h]
  unfold State.openFileBar
  rw [hm, unset]
  rfl

theorem State.openFileBar_days {c : Nat} (hm : mapsRequired s.settings.profiles[k].map.toList = true)
    (hc : s.clock.state ≠ .unset) :
    s.openFileBar d c k =
      (if s.clock.value / 86400 < d then some .fileDayFuture
        else if s.retentionOf c ≠ 0 ∧ d + s.retentionOf c ≤ s.clock.value / 86400 then some .alreadyExpired
        else none) := by
  have set : s.clockIsSet = true := decide_eq_true hc
  unfold State.openFileBar
  rw [hm, set]
  rfl

theorem State.newEntryAnswer_duplicate (h : (s.findFile w q).isSome = true) : s.newEntryAnswer w q = .duplicate :=
  if_pos h

theorem State.newEntryAnswer_full (hn : s.findFile w q = none) (hl : 131072 ≤ s.heldFiles.length) :
    s.newEntryAnswer w q = .full := by
  rw [State.newEntryAnswer, hn, if_neg (by simp)]
  exact if_pos hl

end

/-! ## The new-entry request answered (R24, R25) -/

section
variable {s : State} {p : PortId} {tag : Byte} {b : OpeningFile}

theorem State.openFileAnswer_duplicate (h : (s.findFile b.switchId b.sequence).isSome = true) :
    s.openFileAnswer p b = .refusal .duplicateFile s := by
  rw [State.openFileAnswer, State.newEntryAnswer_duplicate h]

theorem State.openFileAnswer_full (hn : s.findFile b.switchId b.sequence = none) (hl : 131072 ≤ s.heldFiles.length) :
    s.openFileAnswer p b = .refusal .tableFull s := by
  rw [State.openFileAnswer, State.newEntryAnswer_full hn hl]

/-- The refusals of OPEN FILE that ask nothing of the catalogue. -/
theorem exec_openFile_refused {w q d : Wire16} {c f : Byte} {status : Status} (ha : s.admits p tag)
    (hr : (s.roles p).ingest = true)
    (ask : s.openFile (wire16 (s.byteOrder p) w) (wire16 (s.byteOrder p) q) (wire16 (s.byteOrder p) d) c f
      = .error status) :
    exec (.openFile p tag w q d c f) s = .next (s.refuse p tag status) :=
  congrArg Host.Outcome.next
    (State.opening_refused (need := fun r => r.ingest) .file (fun b s => s.openFileAnswer p b) ha hr ask)

/-- A created entry is found by its pair (R2). -/
theorem State.findFile_createFile (s : State) (i : Nat) (f : File) :
    ((s.createFile i f).findFile f.switchId f.sequence).isSome = true := by
  have held : (s.createFile i f).file i = some f :=
    (show (s.createFile i f).file i = (s.setFile i f).file i from rfl).trans ((s.file_setFile i i f).trans (if_pos rfl))
  rw [State.findFile, List.find?_isSome]
  exact ⟨(i, f), State.mem_heldFiles_of_file held, by simp⟩

/-- What an answered request leaves in place, and the pair it leaves held. -/
structure State.LeavesPair (s t : State) (w q : Nat) : Prop where
  pending : t.pending = s.pending
  powered : t.powered = s.powered
  openings : t.openings = s.openings
  unsent : (∀ r : PortId, s.ports[r].unsent = []) → ∀ r : PortId, t.ports[r].unsent = []
  lineBusy : (∀ r : PortId, s.ports[r].lineBusy = false) → ∀ r : PortId, t.ports[r].lineBusy = false
  found : (t.findFile w q).isSome = true

/-- An entry that is asked for is held afterwards: it was before, or is created (R2). -/
theorem State.createOpened_leavesPair (s : State) (p : PortId) (b : OpeningFile) (i : Nat) :
    s.LeavesPair (s.createOpened p i b) b.switchId b.sequence :=
  ⟨rfl, rfl, rfl, id, id,
    s.findFile_createFile i (newFile s b.switchId b.sequence b.fileDay b.retentionClass b.profile p)⟩

theorem State.openFileAnswer_leavesPair (hl : s.heldFiles.length < 131072) :
    s.LeavesPair (s.openFileAnswer p b).state b.switchId b.sequence := by
  by_cases held : (s.findFile b.switchId b.sequence).isSome = true
  · rw [State.openFileAnswer_duplicate held]
    exact ⟨rfl, rfl, rfl, id, id, held⟩
  · rw [Bool.not_eq_true, Option.isSome_eq_false_iff, Option.isNone_iff_eq_none] at held
    rw [State.openFileAnswer_done held hl]
    have found := s.findFile_createFile s.lowestFreeFile
      (newFile s b.switchId b.sequence b.fileDay b.retentionClass b.profile p)
    by_cases gap : ∀ e ∈ (s.switch b.switchId).expected, e = b.sequence
    · simp only [Answer.ok]
      rw [State.startStream_noGap gap]
      exact ⟨rfl, rfl, rfl, id, id, found⟩
    · push Not at gap
      obtain ⟨e, he, hne⟩ := gap
      simp only [Answer.ok]
      rw [State.startStream_gap he hne]
      unfold State.openedWithGap
      split
      · exact ⟨rfl, rfl, rfl, id, id, found⟩
      · exact ⟨rfl, rfl, rfl, id, id, found⟩

theorem State.runOn_file_leavesPair (hl : s.heldFiles.length < 131072) :
    s.LeavesPair (s.runOn p (.file b)) b.switchId b.sequence := by
  by_cases held : (s.findFile b.switchId b.sequence).isSome = true
  · have same : s.runOn p (.file b) = s := by simp only [State.runOn, State.newEntryAnswer_duplicate held]
    rw [same]
    exact ⟨rfl, rfl, rfl, id, id, held⟩
  · rw [Bool.not_eq_true, Option.isSome_eq_false_iff, Option.isNone_iff_eq_none] at held
    have opened : (s.createOpened p s.lowestFreeFile b).streams[b.stream].state ≠ .closing := by
      rw [State.createOpened, State.setStream_stream]
      simp [openedStream]
    simp only [State.runOn, State.newEntryAnswer_eq held hl]
    rw [State.beginAbort_now _ (.inl opened)]
    obtain ⟨pending, powered, openings, unsent, lineBusy, found⟩ := s.createOpened_leavesPair p b s.lowestFreeFile
    exact ⟨pending, powered, openings, unsent, lineBusy, found⟩

/-- On a free line an answer frees the entry, if it still stands, and leaves at once. -/
theorem State.answer_lineFree (status : Status) (body : ReplyBody) (h : s.ports[p].lineBusy = false) :
    s.answer p tag status body = (s.freeTag p tag).reply p tag status body := by
  obtain ⟨-, e⟩ | ⟨none, e⟩ := s.answer_cases p tag status body
  · exact e
  · have kept : s.ports[p].outstanding.filter (fun o => o.tag ≠ tag) = s.ports[p].outstanding :=
      List.filter_eq_self.mpr fun o ho => by simpa using none o ho
    have noEntry : s.freeTag p tag = s := by
      unfold State.freeTag
      simp only [kept]
      rw [State.setPort, set_getElem_fin]
    rw [e, noEntry, State.reply, State.form_free tag status body _ h, State.form_free tag status body _ h]

theorem State.freeTag_line (s : State) (p r : PortId) (tag : Byte) :
    (s.freeTag p tag).ports[r].unsent = s.ports[r].unsent
      ∧ (s.freeTag p tag).ports[r].lineBusy = s.ports[r].lineBusy := by
  unfold State.freeTag State.setPort
  by_cases h : p = r
  · subst h
    rw [getElem_set_fin]
    exact ⟨rfl, rfl⟩
  · rw [getElem_set_fin_ne _ _ _ _ h]
    exact ⟨rfl, rfl⟩

/-- On free lines an answer that leaves at once leaves the rest in place. -/
theorem State.LeavesPair.answer {t : State} {w q : Nat} (h : s.LeavesPair t w q)
    (free : ∀ r : PortId, s.ports[r].lineBusy = false) (r : PortId) (ft : Byte) (status : Status) (body : ReplyBody) :
    s.LeavesPair (t.answer r ft status body) w q := by
  have line := h.lineBusy free
  have freed : (t.freeTag r ft).ports[r].lineBusy = false := (t.freeTag_line r r ft).2.trans (line r)
  rw [State.answer_lineFree status body (line r), State.reply, State.form_free ft status body _ freed]
  exact ⟨h.pending, h.powered, h.openings,
    fun hu r' => (t.freeTag_line r r' ft).1.trans (h.unsent hu r'),
    fun hb r' => (t.freeTag_line r r' ft).2.trans (h.lineBusy hb r'), h.found⟩

/-- What an answered opening leaves: the pair of an OPEN FILE is held, whether its port waits for a reply or not (R24,
R158). -/
theorem State.answerOpening_leavesPair (o : Opening) (a : OpeningFile) (ho : o.request = .file a)
    (hl : s.heldFiles.length < 131072) (free : ∀ r : PortId, s.ports[r].lineBusy = false) :
    s.LeavesPair (s.answerOpening o) a.switchId a.sequence := by
  unfold State.answerOpening
  rw [ho]
  cases o.tag with
  | none => exact State.runOn_file_leavesPair hl
  | some ft => exact (State.openFileAnswer_leavesPair hl).answer free o.port ft _ _

theorem step_answers {o : Opening} {rest : List Opening} (hq : s.pending = []) (hp : s.powered = true)
    (hu : ∀ q : PortId, s.ports[q].unsent = []) (ho : s.openings = o :: rest) :
    step s = .next (({ s with openings := rest } : State).answerOpening o) := by
  have none_waits : (List.finRange 4).find? (fun p => s.ports[p].unsent ≠ []) = none := by
    rw [List.find?_eq_none]
    intro q _
    simpa using hu q
  simp only [step, hq, State.idle, hp, Bool.not_true, Bool.false_eq_true, if_false, none_waits, ho]

end

end Sys2Proof.Machine

/-- Settles O21: the orders of R24 are met one after another, and of two requests of a pair the one answered first leaves it
held. -/
theorem openFileRefusedInOrder : Obligations.OpenFileRefusedInOrder := by
  refine ⟨fun s p tag w q d c f => ?_, fun s p tag b rest hq hp hu hm => ?_⟩
  · intro wn qn dn refused ha hr
    have refuses {status : Status} (ask : s.openFile wn qn dn c f = .error status) : refused status :=
      exec_openFile_refused ha hr ask
    refine ⟨fun range => refuses (State.openFile_outOfRange range), fun k hw hd hc hf => ?_⟩
    obtain ⟨barred, noStream⟩ := State.openFile_inRange (s := s) (w := wn) (q := qn) (d := dn) (c := c) (f := f) hw hd hc hf
    refine ⟨fun map => refuses (barred _ (State.openFileBar_map map _ _)), fun hm unset =>
      refuses (barred _ (State.openFileBar_clock hm unset _ _)), fun hm set => ?_⟩
    have days := State.openFileBar_days (d := dn) (c := c.toNat) hm set
    refine ⟨fun future => ?_, fun today class_ expired => ?_, fun today eligible => ?_⟩
    · exact refuses (barred _ (days.trans (if_pos future)))
    · exact refuses (barred _ (days.trans ((if_neg (Nat.not_lt.mpr today)).trans (if_pos ⟨class_, expired⟩))))
    have noBar := State.openFileBar_none hm set today eligible
    have askedOr {status : Status} (way : (s.catalogueBusy = false ∧ s.openings = []) ∨ ∀ x, ¬s.streamOpenable x)
        (read : s.noStreamStatus wn qn = status)
        (answered : ∀ b : OpeningFile, b.switchId = wn → b.sequence = qn → s.openFileAnswer p b = .refusal status s) :
        refused status := by
      cases hx : s.freeStream with
      | none => exact refuses ((noStream noBar hx).trans (congrArg _ read))
      | some x =>
        have free : s.catalogueBusy = false ∧ s.openings = [] := way.resolve_right fun noneOpen => by
          rw [State.freeStream_eq_none noneOpen] at hx
          cases hx
        refine (exec_openFile_free ha hr (State.openFile_ok hw hd hc hf noBar hx) free.1 free.2).trans ?_
        rw [answered _ rfl rfl]
        rfl
    refine ⟨fun way => ⟨fun held => ?_, fun none full => ?_⟩, fun none few noneOpen => ?_⟩
    · refine askedOr way ?_ fun b hb hs => State.openFileAnswer_duplicate (by rw [hb, hs]; exact held)
      rw [State.noStreamStatus, State.newEntryAnswer_duplicate held]
    · refine askedOr way ?_ fun b hb hs => State.openFileAnswer_full (by rw [hb, hs]; exact none) full
      rw [State.noStreamStatus, State.newEntryAnswer_full none full]
    · refine refuses ((noStream noBar (State.freeStream_eq_none noneOpen)).trans ?_)
      rw [State.noStreamStatus, State.newEntryAnswer_eq none few]
  · intro answered
    have refuses {status : Status} (ho : s.openings = ⟨p, some tag, .file b⟩ :: rest)
        (answer : ({ s with openings := rest } : State).openFileAnswer p b
          = .refusal status { s with openings := rest }) :
        step s = .next ((answered s).refuse p tag status) := by
      rw [step_answersOpening hq hp hu ho, State.openingAnswer, answer]
      exact congrArg Host.Outcome.next (State.answer_of_mem (s := { s with openings := rest }) status .empty hm)
    refine ⟨fun ho => ⟨fun held => refuses ho (State.openFileAnswer_duplicate held),
      fun none full => refuses ho (State.openFileAnswer_full none full)⟩, fun first firstTag a t ho hw hs few free run => ?_⟩
    rw [step_answers hq hp hu ho] at run
    have leaves := State.answerOpening_leavesPair (s := { s with openings := ⟨p, some tag, .file b⟩ :: rest })
      ⟨first, firstTag, .file a⟩ a rfl few free
    rw [Host.Outcome.next.inj run, hw, hs] at leaves
    have found : (({ t with openings := rest } : State).findFile b.switchId b.sequence).isSome = true := leaves.found
    rw [step_answersOpening (leaves.pending.trans hq) (leaves.powered.trans hp) (leaves.unsent hu) leaves.openings,
      State.openingAnswer, State.openFileAnswer_duplicate found]
    exact congrArg Host.Outcome.next (State.answer_lineFree (s := { t with openings := rest }) .duplicateFile .empty
      (leaves.lineBusy free p))
end

section
/-! PROOFS. The requests that write stored settings, and how a withdrawn role reaches its work: O56. -/

open Sys2Proof Sys2Proof.Machine
namespace Sys2Proof.Machine

/-! ## Operands of the settings requests (R47, R48, R160, R161) -/

theorem readRoles_of_sum {a b c d : Bool} {code : Byte}
    (h : code.toNat = a.toNat + 2 * b.toNat + 4 * c.toNat + 8 * d.toNat) : readRoles code = some ⟨a, b, c, d⟩ := by
  have sum : ∀ a b c d : Bool,
      readRoles (BitVec.ofNat 8 (a.toNat + 2 * b.toNat + 4 * c.toNat + 8 * d.toNat)) = some ⟨a, b, c, d⟩ := by decide
  rw [← sum a b c d, ← h, BitVec.ofNat_toNat, BitVec.setWidth_eq]

theorem readRoles_eq_none {code : Byte} (h : 15 < code.toNat) : readRoles code = none := if_neg (Nat.not_le.mpr h)

theorem readByteOrder_eq_none {code : Byte} (h : 1 < code.toNat) : readByteOrder code = none := by
  unfold readByteOrder
  split
  · omega
  · omega
  · rfl

theorem readUpTo_ofNat {limit n : Nat} (hl : limit < 256) (h : n ≤ limit) :
    readUpTo limit (BitVec.ofNat 8 n) = some n := by
  have value : (BitVec.ofNat 8 n).toNat = n := by rw [BitVec.toNat_ofNat, Nat.mod_eq_of_lt (by omega)]
  rw [readUpTo, value, if_pos h]

theorem length_readClassEntries {entries : List WireClassEntry} {es : List ClassEntry}
    (h : readClassEntries entries = some es) : es.length = entries.length := by
  induction entries generalizing es with
  | nil =>
    obtain rfl : [] = es := Option.some.inj h
    rfl
  | cons w rest ih =>
    rw [readClassEntries] at h
    split at h
    · next e es' _ hes =>
      obtain rfl : e :: es' = es := Option.some.inj h
      rw [List.length_cons, List.length_cons, ih hes]
    · cases h

theorem length_readTargets {targets : List Byte} {ts : List FieldTarget} (h : readTargets targets = some ts) :
    ts.length = targets.length := by
  induction targets generalizing ts with
  | nil =>
    obtain rfl : [] = ts := Option.some.inj h
    rfl
  | cons b rest ih =>
    rw [readTargets] at h
    split at h
    · next t ts' _ hts =>
      obtain rfl : t :: ts' = ts := Option.some.inj h
      rw [List.length_cons, List.length_cons, ih hts]
    · cases h

theorem mapsOnce_iff (map : List FieldTarget) :
    mapsOnce map = true ↔ ∀ t : FieldTarget, t ≠ .ignore → targetCount t map ≤ 1 := by
  simp only [mapsOnce, List.all_eq_true, decide_eq_true_iff]
  refine ⟨fun h t ht => h t ?_, fun h t ht => h t ?_⟩
  · cases t <;> simp at ht ⊢
  · rintro rfl
    simp at ht

/-- Class entries written from a key on: those keys hold the new entries, every other one what it held (R47). -/
theorem get_writeEntries (k key : Nat) (es : List ClassEntry) (m : Sparse ClassEntry) :
    Sparse.get {} key (writeEntries k es m)
      = if k ≤ key then (es[key - k]?).getD (Sparse.get {} key m) else Sparse.get {} key m := by
  induction es generalizing k m with
  | nil => simp [writeEntries]
  | cons e es ih =>
    rw [writeEntries, ih, Sparse.get_set]
    rcases Nat.lt_trichotomy key k with h | rfl | h
    · rw [if_neg (by omega), if_neg (by omega), if_neg (by omega)]
    · rw [if_neg (by omega), if_pos rfl, if_pos (Nat.le_refl _), Nat.sub_self]
      rfl
    · obtain ⟨n, rfl⟩ : ∃ n, key = k + 1 + n := ⟨key - (k + 1), by omega⟩
      rw [if_pos (by omega), if_neg (by omega), if_pos (by omega), show k + 1 + n - (k + 1) = n by omega,
        show k + 1 + n - k = n + 1 by omega, List.getElem?_cons_succ]

/-! ## SET RETENTION (R90) -/

section
variable {s : State} {p : PortId} {tag : Byte}

theorem exec_setRetention (ha : s.admits p tag) (hr : (s.roles p).admin = true) (code : Byte) (days : Wire16) :
    exec (.setRetention p tag code days) s
      = .next ((s.setRetention p code (wire16 (s.byteOrder p) days)).send p tag) :=
  congrArg Host.Outcome.next (State.request_admitted _ ha hr)

theorem exec_setRetention_class (ha : s.admits p tag) (hr : (s.roles p).admin = true) (k : Fin 8) (days : Wire16)
    (room : s.trail.entries.length < 128) :
    exec (.setRetention p tag (BitVec.ofNat 8 k.val) days) s
      = .next (({ s with
          settings := { s.settings with retention := s.settings.retention.set k (min (wire16 (s.byteOrder p) days) 16383) }
          trail := s.trail.append s.stamp .retentionChanged (some p) (.index k.val)
            (min (wire16 (s.byteOrder p) days) 16383) } : State).reply p tag .ok
              (.retentionSet (min (wire16 (s.byteOrder p) days) 16383))) := by
  rw [exec_setRetention ha hr, State.setRetention, readIndex_ofNat (by decide) k]
  simp only [State.trailRoom_eq, room, decide_true, if_true]
  rfl

theorem exec_setRetention_refused (ha : s.admits p tag) (hr : (s.roles p).admin = true) (code : Byte) (days : Wire16) :
    (7 < code.toNat → exec (.setRetention p tag code days) s = .next (s.refuse p tag .badRequest))
      ∧ (code.toNat ≤ 7 → 128 ≤ s.trail.entries.length →
        exec (.setRetention p tag code days) s = .next (s.refuse p tag .trailFull)) := by
  refine ⟨fun h => ?_, fun h full => ?_⟩
  · rw [exec_setRetention ha hr, State.setRetention, readIndex_eq_none h]
    rfl
  · rw [exec_setRetention ha hr, State.setRetention,
      readIndex_of_toNat (n := 8) (b := code) (i := ⟨code.toNat, by omega⟩) rfl]
    simp only [State.trailRoom_eq, Nat.not_lt.mpr full, decide_false, Bool.false_eq_true, if_false]
    rfl

/-! ## SET PORT SETTINGS (R161) -/

theorem exec_setPortSettings (ha : s.admits p tag) (hr : (s.roles p).admin = true) (target : PortId)
    {order : ByteOrder} {code : Byte} (n m : Byte) (hc : readByteOrder code = some order) :
    exec (.setPortSettings p tag (BitVec.ofNat 8 target.val) code n m) s
      = .next ((s.setPortSettings target
          { s.settings.ports[target] with
            byteOrder := order, streamTimeout := n.toNat, cursorTimeout := m.toNat }).reply p tag .ok .empty) := by
  rw [show exec (.setPortSettings p tag (BitVec.ofNat 8 target.val) code n m) s = .next _ from
    congrArg Host.Outcome.next (State.request_admitted _ ha hr), State.setPortSettingsOf,
    readIndex_ofNat (by decide) target, hc]
  rfl

theorem exec_setPortSettings_refused (ha : s.admits p tag) (hr : (s.roles p).admin = true) {target code : Byte}
    (n m : Byte) (h : 3 < target.toNat ∨ 1 < code.toNat) :
    exec (.setPortSettings p tag target code n m) s = .next (s.refuse p tag .badRequest) := by
  refine congrArg Host.Outcome.next (State.request_badRequest ha hr ?_)
  unfold State.setPortSettingsOf
  obtain h | h := h
  · rw [readIndex_eq_none h]
  · rw [readByteOrder_eq_none h]
    split
    · next heq => cases heq
    · rfl

/-! ## LOAD CLASS ENTRIES (R47) -/

theorem exec_loadClassEntries (ha : s.admits p tag) (hr : (s.roles p).admin = true) (k : Fin 4) (m : Fin 8)
    {first : Byte} {count : Wire16} {entries : List WireClassEntry} {es : List ClassEntry}
    (he : readClassEntries entries = some es) (hn : entries.length = wire16 (s.byteOrder p) count)
    (nonempty : 1 ≤ entries.length) (fit : first.toNat + entries.length ≤ 256) :
    exec (.loadClassEntries p tag (BitVec.ofNat 8 k.val) (BitVec.ofNat 8 m.val) first count entries) s
      = .next ((s.setProfile k
          { s.settings.profiles[k] with
            classes := writeEntries (m.val * 256 + first.toNat) es s.settings.profiles[k].classes }).reply p tag .ok
          .empty) := by
  have form : entriesFormOk entries = true := decide_eq_true ⟨nonempty, by omega⟩
  have range : ¬(wire16 (s.byteOrder p) count = 0 ∨ 256 < first.toNat + wire16 (s.byteOrder p) count
      ∨ entries.length ≠ wire16 (s.byteOrder p) count) := by omega
  refine congrArg Host.Outcome.next ?_
  rw [form, State.request_admitted _ ha hr, State.loadClassEntries, readIndex_ofNat (by decide) k,
    readUpTo_ofNat (by decide) (by omega), he]
  simp only [if_neg range]
  rfl

theorem exec_loadClassEntries_refused (ha : s.admits p tag) (hr : (s.roles p).admin = true)
    {profile mode first : Byte} {count : Wire16} {entries : List WireClassEntry}
    (h : 3 < profile.toNat ∨ 7 < mode.toNat ∨ entries = [] ∨ entries.length ≠ wire16 (s.byteOrder p) count
      ∨ 256 < first.toNat + entries.length ∨ readClassEntries entries = none) :
    exec (.loadClassEntries p tag profile mode first count entries) s = .next (s.refuse p tag .badRequest) := by
  refine congrArg Host.Outcome.next (State.request_badRequest ha hr ?_)
  unfold State.loadClassEntries
  split
  · next i m es hi hm he =>
    refine if_pos ?_
    obtain h | h | rfl | h | h | h := h
    · rw [readIndex_eq_none h] at hi
      cases hi
    · rw [readUpTo_eq_none h] at hm
      cases hm
    · rw [List.length_nil]
      omega
    · exact .inr (.inr h)
    · omega
    · rw [h] at he
      cases he
  · rfl

/-! ## LOAD FIELD MAP (R48) -/

theorem exec_loadFieldMap (ha : s.admits p tag) (hr : (s.roles p).admin = true) (k : Fin 4) {targets : List Byte}
    {r o : Byte} {map : Vector FieldTarget 16} {rounding : Rounding} {overflow : OverflowKey}
    (hl : targets.length = 16) (ht : readTargets targets = some map.toList) (hrd : readRounding r = some rounding)
    (hov : readOverflow o = some overflow) (hreq : mapsRequired map.toList = true)
    (once : ∀ t : FieldTarget, t ≠ .ignore → targetCount t map.toList ≤ 1) :
    exec (.loadFieldMap p tag (BitVec.ofNat 8 k.val) targets r o) s
      = .next ((s.setProfile k { s.settings.profiles[k] with map, rounding, overflow }).reply p tag .ok .empty) := by
  have form : mapFormOk targets = true := decide_eq_true hl
  have len : map.toList.length = 16 := by simp
  refine congrArg Host.Outcome.next ?_
  rw [form, State.request_admitted _ ha hr, State.loadFieldMap, readIndex_ofNat (by decide) k, ht, hrd, hov]
  simp only [dif_pos len, (mapsOnce_iff _).mpr once, hreq, and_self, if_true]
  rfl

theorem exec_loadFieldMap_refused (ha : s.admits p tag) (hr : (s.roles p).admin = true) {profile : Byte}
    {targets : List Byte} {r o : Byte}
    (h : 3 < profile.toNat ∨ targets.length ≠ 16 ∨ readTargets targets = none ∨ readRounding r = none
      ∨ readOverflow o = none
      ∨ ∃ map, readTargets targets = some map
        ∧ (mapsRequired map = false ∨ ∃ t : FieldTarget, t ≠ .ignore ∧ 1 < targetCount t map)) :
    exec (.loadFieldMap p tag profile targets r o) s = .next (s.refuse p tag .badRequest) := by
  refine congrArg Host.Outcome.next (State.request_badRequest ha hr ?_)
  unfold State.loadFieldMap
  split
  · next i ts rd ov hi hts hrd hov =>
    split
    · next hl =>
      refine if_neg ?_
      rintro ⟨once, required⟩
      obtain h | h | h | h | h | ⟨map, hm, h⟩ := h
      · rw [readIndex_eq_none h] at hi
        cases hi
      · exact h (by rw [← length_readTargets hts, hl])
      · rw [h] at hts
        cases hts
      · rw [h] at hrd
        cases hrd
      · rw [h] at hov
        cases hov
      · obtain rfl : map = ts := Option.some.inj (hm.symm.trans hts)
        obtain h | ⟨t, ht, many⟩ := h
        · rw [h] at required
          cases required
        · exact absurd ((mapsOnce_iff map).mp once t ht) (by omega)
    · rfl
  · rfl

/-! ## SET ROLES (R160) -/

theorem State.adminRemains_iff (target : PortId) (r : RoleSet) :
    s.adminRemains target r = true ↔ r.admin = true ∨ ∃ o : PortId, o ≠ target ∧ (s.roles o).admin = true := by
  simp [State.adminRemains]

theorem exec_setRoles (ha : s.admits p tag) (hr : (s.roles p).admin = true) (target : PortId) {code : Byte}
    {r : RoleSet} (hc : readRoles code = some r) :
    exec (.setRoles p tag (BitVec.ofNat 8 target.val) code) s
      = .next (if s.adminRemains target r = true then
          if s.trail.entries.length < 128 then
            (((s.record .rolesChanged (some p) (.roles target r) 0).writeRoles target r).withdrawRoles target r).reply p
              tag .ok .empty
          else s.refuse p tag .trailFull
        else s.refuse p tag .lastAdmin) := by
  rw [show exec (.setRoles p tag (BitVec.ofNat 8 target.val) code) s = .next _ from
    congrArg Host.Outcome.next (State.request_admitted _ ha hr), State.setRoles, readIndex_ofNat (by decide) target, hc]
  cases h : s.adminRemains target r with
  | false =>
    simp only [h]
    rfl
  | true =>
    simp only [h, State.trailRoom_eq, decide_eq_true_eq, Bool.not_true, Bool.false_eq_true, if_false, if_true]
    split <;> rfl

theorem exec_setRoles_outOfRange (ha : s.admits p tag) (hr : (s.roles p).admin = true) {target code : Byte}
    (h : 3 < target.toNat ∨ 15 < code.toNat) :
    exec (.setRoles p tag target code) s = .next (s.refuse p tag .badRequest) := by
  refine congrArg Host.Outcome.next (State.request_badRequest ha hr ?_)
  unfold State.setRoles
  obtain h | h := h
  · rw [readIndex_eq_none h]
  · rw [readRoles_eq_none h]
    split
    · next heq => cases heq
    · rfl

end

/-! ## INGEST withdrawn (R35) -/

section
variable {s : State} {x : StreamId}

/-- An abort begins at once, or after the close, in which case only the mark on the head's wait is set (R33, R34). -/
theorem State.beginAbort_cases (s : State) (x : StreamId) (cause : AbortCause) :
    s.beginAbort x cause = s.abortedNow x cause ∨ s.beginAbort x cause = s.abortedAfterClose x cause := by
  by_cases hc : s.streams[x].state = .closing
  · cases hv : s.streams[x].verdict with
    | none => exact .inr (State.beginAbort_afterClose cause hc hv)
    | some v => exact .inl (State.beginAbort_now cause (.inr (by rw [hv]; rfl)))
  · exact .inl (State.beginAbort_now cause (.inl hc))

theorem State.beginAbort_cursors (cause : AbortCause) : (s.beginAbort x cause).cursors = s.cursors := by
  rcases s.beginAbort_cases x cause with h | h <;> rw [h] <;> rfl

theorem State.withdrawStream_cursors (s : State) (x : StreamId) : (s.withdrawStream x).cursors = s.cursors := by
  unfold State.withdrawStream
  split
  · exact State.beginAbort_cursors _
  · rfl

theorem State.withdrawStreams_cursors (l : List StreamId) (s : State) :
    (l.foldl State.withdrawStream s).cursors = s.cursors := by
  induction l generalizing s with
  | nil => rfl
  | cons x l ih => exact (ih _).trans (s.withdrawStream_cursors x)

theorem Stream.abortable_of_unbegun {st : Stream} (busy : st.state ≠ .idle) (unbegun : st.abortBegun = false)
    (unsettled : st.settled = false) : st.abortable = true := by
  simp [Stream.abortable, busy, unbegun, unsettled]

theorem Stream.not_abortable {st : Stream} (h : st.state = .idle ∨ st.abortBegun = true ∨ st.settled = true) :
    st.abortable = false := by
  obtain h | h | h := h <;> simp [Stream.abortable, h]

end

/-! ## SET ROLES reaches the port's work (R160) -/

section
variable {s : State} {p : PortId} {tag : Byte}

/-- SET ROLES with its arguments in range (R160): refused LAST_ADMIN, then TRAIL_FULL; otherwise the set is written and
the withdrawn roles reach the port's streams and then its cursors. -/
theorem exec_setRoles_cases (ha : s.admits p tag) (hr : (s.roles p).admin = true) (target : PortId) {code : Byte}
    {a b c d : Bool} (hc : readRoles code = some ⟨a, b, c, d⟩) :
    let set : State :=
      { s with
        settings := { s.settings with
          ports := s.settings.ports.set target { s.settings.ports[target] with roles := ⟨a, b, c, d⟩ } }
        trail := s.trail.append s.stamp .rolesChanged (some p) (.roles target ⟨a, b, c, d⟩) 0 }
    let stopped : State := if a = true then set else (s.streamsOf target).foldl State.withdrawStream set
    let freed : State :=
      if b = true then stopped else (s.cursorsOf target).foldl (fun u c => u.withdrawCursor target c) stopped
    ((d = true ∨ ∃ o : PortId, o ≠ target ∧ (s.roles o).admin = true) →
        (s.trail.entries.length < 128 →
          exec (.setRoles p tag (BitVec.ofNat 8 target.val) code) s = .next (freed.reply p tag .ok .empty))
        ∧ (128 ≤ s.trail.entries.length →
          exec (.setRoles p tag (BitVec.ofNat 8 target.val) code) s = .next (s.refuse p tag .trailFull)))
      ∧ (d = false → (∀ o : PortId, o ≠ target → (s.roles o).admin = false) →
        exec (.setRoles p tag (BitVec.ofNat 8 target.val) code) s = .next (s.refuse p tag .lastAdmin)) := by
  intro set stopped freed
  rw [exec_setRoles ha hr target hc]
  refine ⟨fun remains => ⟨fun room => ?_, fun full => ?_⟩, fun without others => ?_⟩
  · have written : (s.record .rolesChanged (some p) (.roles target ⟨a, b, c, d⟩) 0).writeRoles target ⟨a, b, c, d⟩ = set :=
      rfl
    have cursors : stopped.cursorsOf target = s.cursorsOf target := by
      have same : stopped.cursors = s.cursors := by
        cases a
        · exact State.withdrawStreams_cursors _ set
        · rfl
      rw [State.cursorsOf, same]
      rfl
    rw [if_pos ((State.adminRemains_iff target _).mpr remains), if_pos room, written]
    refine congrArg (fun u : State => Host.Outcome.next (u.reply p tag .ok .empty)) ?_
    change (if b = true then stopped
      else (stopped.cursorsOf target).foldl (fun u c => u.withdrawCursor target c) stopped) = _
    rw [cursors]
  · rw [if_pos ((State.adminRemains_iff target _).mpr remains), if_neg (Nat.not_lt.mpr full)]
  · rw [if_neg]
    intro remains
    obtain h | ⟨o, ho, h⟩ := (State.adminRemains_iff target _).mp remains
    · rw [without] at h
      cases h
    · rw [others o ho] at h
      cases h

end

/-! ## The freeing of a cursor reads neither its countdown nor the ports -/

section
variable {s : State} {c : CursorId} {p : PortId}

/-- The unpin behind the freeing of a cursor, with the pin-release reclaim it may lead to (R104). -/
def State.unpinFreed (s : State) (i : Nat) : State :=
  match s.unpin i with
  | some (0, .expiring, t) => t.pinReleased i
  | some (_, _, t) => t
  | none => s

theorem State.freeCursorOf_eq (s : State) (c : CursorId) :
    s.freeCursorOf c = s.cursors[c].fileIndex.elim (s.releaseCursor c) (s.releaseCursor c).unpinFreed := by
  cases h : s.cursors[c].fileIndex with
  | none => exact s.freeCursorOf_of_fileIndex_none c h
  | some i =>
    simp only [State.freeCursorOf, h]
    rfl

theorem State.freeCursorOf_idle (s : State) (c : CursorId) (idle : Countdown) :
    ({ s with cursors := s.cursors.set c { s.cursors[c] with idle } } : State).freeCursorOf c = s.freeCursorOf c := by
  rw [State.freeCursorOf_eq, State.freeCursorOf_eq]
  have released : ({ s with cursors := s.cursors.set c { s.cursors[c] with idle } } : State).releaseCursor c
      = s.releaseCursor c := by
    simp only [State.releaseCursor, State.setCursor, State.abandonRead, set_set_fin]
  rw [released]
  simp only [getElem_set_fin]

/-- A cursor freed at its idle expiry (R143). -/
theorem exec_cursorIdleExpiry_due (on : s.powered = true) (isOpen : s.cursors[c].isOpen = true) :
    exec (.cursorIdleExpiry c) { s with cursors := s.cursors.set c { s.cursors[c] with idle := .due } }
      = .next (s.freeCursorOf c) := by
  rw [exec_cursorIdleExpiry (by exact on) (by rw [getElem_set_fin]; exact isOpen) (by rw [getElem_set_fin]),
    State.freeCursorOf_idle]

/-- Nothing but the catalogue, the Free Segment List and the trail differs. -/
structure CatalogueOnly (s t : State) : Prop where
  eq : t = { s with
    files := t.files, segments := t.segments, freeList := t.freeList, switches := t.switches, trail := t.trail }

theorem CatalogueOnly.trans {s t u : State} (h : CatalogueOnly s t) (h' : CatalogueOnly t u) : CatalogueOnly s u :=
  ⟨by rw [h'.eq, h.eq]⟩

theorem CatalogueOnly.ports {s t : State} (h : CatalogueOnly s t) : t.ports = s.ports := by rw [h.eq]

theorem CatalogueOnly.settings {s t : State} (h : CatalogueOnly s t) : t.settings = s.settings := by rw [h.eq]

theorem State.releaseFile_catalogueOnly (s : State) (i : Nat) (f : File) : CatalogueOnly s (s.releaseFile i f) := by
  rw [State.releaseFile_eq (s := s) (t := s) rfl rfl rfl rfl]
  exact ⟨rfl⟩

theorem State.reclaimStep_catalogueOnly (s : State) (i : Nat) (f : File) :
    CatalogueOnly s (s.reclaimStep i f).2 := by
  unfold State.reclaimStep
  split
  · unfold State.returnAccepted
    split
    · split <;> exact ⟨rfl⟩
    · exact ⟨rfl⟩
  · split
    · unfold State.reclaimFile
      split
      · split
        · exact CatalogueOnly.trans ⟨rfl⟩ (State.releaseFile_catalogueOnly _ _ _)
        · exact ⟨rfl⟩
      · exact ⟨rfl⟩
    · exact ⟨rfl⟩

theorem State.pinReleased_catalogueOnly (s : State) (i : Nat) : CatalogueOnly s (s.pinReleased i) := by
  unfold State.pinReleased
  split
  · exact ⟨rfl⟩
  · split
    · split
      · exact s.reclaimStep_catalogueOnly i _
      · exact ⟨rfl⟩
    · exact ⟨rfl⟩

theorem State.freeCursorOf_frame (s : State) (c : CursorId) : CatalogueOnly (s.releaseCursor c) (s.freeCursorOf c) := by
  rcases s.freeCursorOf_cases c with ⟨i, f, -, -, -, e⟩ | ⟨-, e⟩ <;> rw [e]
  · split
    · exact CatalogueOnly.trans ⟨rfl⟩ (State.pinReleased_catalogueOnly _ i)
    · exact ⟨rfl⟩
  · exact ⟨rfl⟩

theorem State.freeCursorOf_settings (s : State) (c : CursorId) : (s.freeCursorOf c).settings = s.settings :=
  (s.freeCursorOf_frame c).settings

variable {v : Vector PortState 4}

theorem State.returnAccepted_ports (i : Nat) :
    ({ s with ports := v } : State).returnAccepted i = (s.returnAccepted i).map ({ · with ports := v }) := by
  have file : ({ s with ports := v } : State).file i = s.file i := rfl
  unfold State.returnAccepted
  rw [file]
  cases s.file i with
  | none => rfl
  | some f => simp only; split <;> rfl

theorem State.reclaimFile_ports (i : Nat) :
    ({ s with ports := v } : State).reclaimFile i = (s.reclaimFile i).map ({ · with ports := v }) := by
  have file : ({ s with ports := v } : State).file i = s.file i := rfl
  unfold State.reclaimFile
  rw [file]
  cases s.file i with
  | none => rfl
  | some f =>
    simp only
    split
    · rw [State.releaseFile_eq (t := { s with ports := v }) (s := s) rfl rfl rfl rfl,
        State.releaseFile_eq (t := s) (s := s) rfl rfl rfl rfl]
      rfl
    · rfl

theorem State.reclaimStep_ports (i : Nat) (f : File) :
    (({ s with ports := v } : State).reclaimStep i f).2 = { (s.reclaimStep i f).2 with ports := v } := by
  have due : ({ s with ports := v } : State).dueToExpire f = s.dueToExpire f := rfl
  have room : ({ s with ports := v } : State).trailRoom = s.trailRoom := rfl
  have reclaimed := State.reclaimFile_ports (s := s.record .fileExpired none (f.subject i) f.recordCount) (v := v) i
  unfold State.reclaimStep
  rw [due, room]
  split
  · rw [State.returnAccepted_ports]
    cases s.returnAccepted i <;> rfl
  · split
    · change (State.reclaimFile { s.record .fileExpired none (f.subject i) f.recordCount with ports := v } i).getD _ = _
      rw [reclaimed]
      cases (s.record .fileExpired none (f.subject i) f.recordCount).reclaimFile i <;> rfl
    · rfl

theorem State.pinReleased_ports (i : Nat) :
    ({ s with ports := v } : State).pinReleased i = { s.pinReleased i with ports := v } := by
  have file : ({ s with ports := v } : State).file i = s.file i := rfl
  have paused : ({ s with ports := v } : State).pass = s.pass := rfl
  unfold State.pinReleased
  rw [file, paused]
  split
  · rfl
  · cases s.file i with
    | none => rfl
    | some f =>
      simp only
      split
      · exact State.reclaimStep_ports i f
      · rfl

theorem State.unpinFreed_ports (i : Nat) :
    ({ s with ports := v } : State).unpinFreed i = { s.unpinFreed i with ports := v } := by
  have file : ({ s with ports := v } : State).file i = s.file i := rfl
  unfold State.unpinFreed State.unpin
  rw [file]
  cases s.file i with
  | none => rfl
  | some f =>
    by_cases hp : f.pinCount = 0
    · simp only [if_pos hp]
    · simp only [if_neg hp]
      by_cases last : f.pinCount - 1 = 0
      · rw [last]
        cases f.state with
        | expiring => exact State.pinReleased_ports (s := s.setFile i { f with pinCount := 0, state := .expiring }) i
        | ingesting => rfl
        | accepted => rfl
        | disputed => rfl
      · obtain ⟨n, hn⟩ := Nat.exists_eq_succ_of_ne_zero last
        rw [hn]
        rfl

theorem State.freeCursorOf_withPorts :
    ({ s with ports := v } : State).freeCursorOf c = { s.freeCursorOf c with ports := v } := by
  have released : ({ s with ports := v } : State).releaseCursor c = { s.releaseCursor c with ports := v } := rfl
  rw [State.freeCursorOf_eq, State.freeCursorOf_eq, released]
  cases s.cursors[c].fileIndex with
  | none => rfl
  | some i => exact State.unpinFreed_ports i

theorem State.freeCursorOf_ports (s : State) (c : CursorId) : (s.freeCursorOf c).ports = s.ports :=
  (s.freeCursorOf_frame c).ports

theorem State.freeTag_freeCursorOf (tag : Byte) :
    (s.freeCursorOf c).freeTag p tag = (s.freeTag p tag).freeCursorOf c := by
  rw [State.freeTag, State.setPort, State.freeCursorOf_ports]
  exact State.freeCursorOf_withPorts.symm

theorem State.freeTag_reply_other {tag tag' : Byte} {status : Status} {body : ReplyBody} (h : tag ≠ tag') :
    (s.reply p tag status body).freeTag p tag' = (s.freeTag p tag').reply p tag status body := by
  cases line : s.ports[p].lineBusy with
  | false => exact State.freeTag_reply line
  | true =>
    have line' : (s.freeTag p tag').ports[p].lineBusy = true := by
      rw [State.freeTag, State.setPort_ports, getElem_set_fin]
      exact line
    rw [State.reply, State.reply, State.form_busy _ _ _ _ line, State.form_busy _ _ _ _ line']
    simp only [State.freeTag, State.setPort, getElem_set_fin, set_set_fin, List.filter_append, ne_eq, h,
      not_false_eq_true, decide_true, List.filter_cons_of_pos, List.filter_nil]
    rfl

end

/-! ## RETRIEVE withdrawn (R144, R156) -/

section
variable {s : State} {c : CursorId} {p : PortId}

theorem State.withdrawCursor_unfetched (h : s.cursors[c].fetch = none) :
    s.withdrawCursor p c = s.freeCursorOf c := by
  simp only [State.withdrawCursor, h]

/-- The fetch of a cursor is answered NOT_PERMITTED, its records dropped, with what is then outstanding of the port. -/
def State.fetchDenied (s : State) (p : PortId) (tag : Byte) (left : List Outstanding) : State :=
  ({ s with
    ports := s.ports.set p
      { s.ports[p] with
        outstanding := left
        unsent := s.ports[p].unsent.filter (fun r => r.fetched tag = false) } } : State).reply p tag .notPermitted .empty

variable {q : Fetch} {os : List Outstanding}

theorem State.withdrawCursor_fetched (hq : s.cursors[c].fetch = some q) (ho : s.ports[p].outstanding = os)
    (hm : ⟨q.tag, .fetching c⟩ ∈ os ∨ ⟨q.tag, .delivering c⟩ ∈ os) :
    s.withdrawCursor p c
      = State.takeHeld p c 8 ((s.fetchDenied p q.tag (os.filter (fun o => o.tag ≠ q.tag))).freeCursorOf c) := by
  subst ho
  have port : (s.dropFetched p q.tag).ports[p]
      = { s.ports[p] with unsent := s.ports[p].unsent.filter (fun r => !r.fetched q.tag) } := getElem_set_fin ..
  have kept : s.ports[p].unsent.filter (fun r => !r.fetched q.tag)
      = s.ports[p].unsent.filter (fun r => r.fetched q.tag = false) :=
    List.filter_congr fun r _ => by cases r.fetched q.tag <;> rfl
  obtain ⟨standing, mem⟩ : ∃ standing, (⟨q.tag, standing⟩ : Outstanding) ∈ (s.dropFetched p q.tag).ports[p].outstanding := by
    rw [port]
    exact hm.elim (fun h => ⟨_, h⟩) (fun h => ⟨_, h⟩)
  have dropped : (s.dropFetched p q.tag).freeTag p q.tag
      = ({ s with
          ports := s.ports.set p
            { s.ports[p] with
              outstanding := s.ports[p].outstanding.filter (fun o => o.tag ≠ q.tag)
              unsent := s.ports[p].unsent.filter (fun r => r.fetched q.tag = false) } } : State) := by
    simp only [State.dropFetched, State.freeTag, State.setPort, getElem_set_fin, set_set_fin, kept]
  have answered : (s.dropFetched p q.tag).answer p q.tag .notPermitted .empty
      = s.fetchDenied p q.tag (s.ports[p].outstanding.filter (fun o => o.tag ≠ q.tag)) := by
    rw [State.answer_of_mem _ _ mem, dropped]
    rfl
  simp only [State.withdrawCursor, hq, answered]

theorem State.mem_fetchDenied {tag : Byte} {left : List Outstanding} {o : Outstanding}
    (h : o ∈ (s.fetchDenied p tag left).ports[p].outstanding) : o ∈ left ∨ o = ⟨tag, .answered⟩ := by
  rcases State.mem_form h with h | ⟨-, h⟩
  · rw [getElem_set_fin] at h
    exact .inl h
  · exact .inr (List.mem_singleton.mp h)

theorem State.mem_fetchDenied_left {tag : Byte} {left : List Outstanding} {o : Outstanding} (h : o ∈ left) :
    o ∈ (s.fetchDenied p tag left).ports[p].outstanding := by
  rw [State.fetchDenied, State.reply_ports]
  split
  · simp [h]
  · simp [h]

theorem State.freeTag_fetchDenied {tag tag' : Byte} {left : List Outstanding} (h : tag ≠ tag') :
    (s.fetchDenied p tag left).freeTag p tag' = s.fetchDenied p tag (left.filter (fun o => o.tag ≠ tag')) := by
  rw [State.fetchDenied, State.freeTag_reply_other h, State.fetchDenied]
  simp only [State.freeTag, State.setPort, getElem_set_fin, set_set_fin]

theorem State.fetchDenied_cursors {tag : Byte} {left : List Outstanding} :
    (s.fetchDenied p tag left).cursors = s.cursors := State.reply_cursors ..

theorem State.fetchDenied_powered {tag : Byte} {left : List Outstanding} :
    (s.fetchDenied p tag left).powered = s.powered := State.reply_powered ..

theorem exec_expired_fetchDenied {tag : Byte} {left : List Outstanding} (on : s.powered = true)
    (isOpen : s.cursors[c].isOpen = true) :
    exec (.cursorIdleExpiry c)
      { s.fetchDenied p tag left with
        cursors := (s.fetchDenied p tag left).cursors.set c
          { (s.fetchDenied p tag left).cursors[c] with idle := .due } }
      = .next ((s.fetchDenied p tag left).freeCursorOf c) :=
  exec_cursorIdleExpiry_due (by rw [State.fetchDenied_powered]; exact on)
    (by simp only [State.fetchDenied_cursors]; exact isOpen)

/-- Without a request held behind the fetch the cursor is freed, and no more. -/
theorem State.withdrawCursor_alone (hq : s.cursors[c].fetch = some q) (ho : s.ports[p].outstanding = os)
    (hm : ⟨q.tag, .fetching c⟩ ∈ os ∨ ⟨q.tag, .delivering c⟩ ∈ os)
    (alone : ∀ o ∈ os, o.standing.cursor = some c → o.tag = q.tag) :
    s.withdrawCursor p c = (s.fetchDenied p q.tag (os.filter (fun o => o.tag ≠ q.tag))).freeCursorOf c := by
  rw [State.withdrawCursor_fetched hq ho hm]
  refine State.takeHeld_noneHeld 8 (State.noneHeld_freeCursorOf fun o h hc => ?_)
  rcases State.mem_fetchDenied h with h | rfl
  · obtain ⟨h, other⟩ := List.mem_filter.mp h
    simp [alone o h hc] at other
  · rfl

/-- A request held behind the fetch is refused NOT_PERMITTED behind it (R156). -/
theorem State.withdrawCursor_held {held : Outstanding} (hq : s.cursors[c].fetch = some q)
    (ho : s.ports[p].outstanding = os) (hm : ⟨q.tag, .fetching c⟩ ∈ os ∨ ⟨q.tag, .delivering c⟩ ∈ os)
    (hh : held ∈ os) (other : held.tag ≠ q.tag) (names : held.standing.cursor = some c)
    (isHeld : held.standing.held = true)
    (only : ∀ o ∈ os, o.standing.cursor = some c → o.tag = q.tag ∨ o = held) (hr : (s.roles p).retrieve = false) :
    s.withdrawCursor p c
      = ((s.fetchDenied p q.tag (os.filter (fun o => o.tag ≠ q.tag ∧ o.tag ≠ held.tag))).freeCursorOf c).refuse p
          held.tag .notPermitted := by
  set denied := s.fetchDenied p q.tag (os.filter (fun o => o.tag ≠ q.tag)) with hd
  have outstanding : (denied.freeCursorOf c).ports = denied.ports := denied.freeCursorOf_ports c
  have mem : held ∈ (denied.freeCursorOf c).ports[p].outstanding := by
    rw [outstanding]
    exact State.mem_fetchDenied_left (List.mem_filter.mpr ⟨hh, by simpa using other⟩)
  have unique : ∀ o ∈ (denied.freeCursorOf c).ports[p].outstanding, o.standing.cursor = some c → o = held := by
    intro o h hc
    rw [outstanding] at h
    rcases State.mem_fetchDenied h with h | rfl
    · obtain ⟨h, differs⟩ := List.mem_filter.mp h
      exact (only o h hc).resolve_left (by simpa using differs)
    · cases hc
  have roles : (((denied.freeCursorOf c).freeTag p held.tag).roles p).retrieve = false := by
    have settings : ((denied.freeCursorOf c).freeTag p held.tag).settings = s.settings := by
      rw [State.freeTag_settings, State.freeCursorOf_settings]
      exact State.reply_settings ..
    rw [State.roles, settings]
    exact hr
  have freed : (denied.freeCursorOf c).freeTag p held.tag
      = (s.fetchDenied p q.tag (os.filter (fun o => o.tag ≠ q.tag ∧ o.tag ≠ held.tag))).freeCursorOf c := by
    rw [State.freeTag_freeCursorOf, hd, State.freeTag_fetchDenied (Ne.symm other), List.filter_filter]
    congr 2
    exact List.filter_congr fun o _ => by simp [Bool.and_comm]
  rw [freed] at roles
  rw [State.withdrawCursor_fetched hq ho hm, State.takeHeld_one mem names isHeld unique, State.takeHeldRequest]
  simp only [freed, roles, Bool.not_false, if_true]

end

end Sys2Proof.Machine

/-- Settles O56: each request by its own equation; the freeing of a cursor reads neither its countdown nor the ports, so that
a withdrawn cursor is freed as at its idle expiry. -/
theorem settingsWrittenWhole : Obligations.SettingsWrittenWhole := by
  unfold Obligations.SettingsWrittenWhole
  refine ⟨fun s p tag ha hr => ⟨?_, ?_, ?_, ?_, ?_, ?_, ?_, ?_, ?_⟩, fun s x st hst => ⟨?_, ?_⟩,
    fun s target c on isOpen => ⟨?_, ?_⟩⟩
  · exact fun k days room => exec_setRetention_class ha hr k days room
  · exact fun code days => exec_setRetention_refused ha hr code days
  · exact fun target code n m => ⟨exec_setRoles_outOfRange ha hr, exec_setPortSettings_refused ha hr n m⟩
  · exact fun profile mode first count entries => exec_loadClassEntries_refused ha hr
  · exact fun profile targets r o => exec_loadFieldMap_refused ha hr
  · intro target a b c d code hc
    obtain ⟨remains, last⟩ := exec_setRoles_cases ha hr target (readRoles_of_sum hc)
    refine ⟨fun h room ha hb => ?_, fun h => (remains h).2, fun h => (remains h).1, last⟩
    subst ha hb
    exact (remains h).1 room
  · intro target order code n m hc
    have read : readByteOrder code = some order := by
      cases order <;> subst hc <;> rfl
    exact exec_setPortSettings ha hr target n m read
  · intro k m first count entries es he hn h1 h256
    refine ⟨_, exec_loadClassEntries ha hr k m he hn h1 h256, fun key => get_writeEntries _ key es _⟩
  · exact fun k targets r o map rounding overflow hl ht hrd hov hreq once =>
      exec_loadFieldMap ha hr k hl ht hrd hov hreq once
  · exact fun h => if_neg (by rw [Stream.not_abortable (by rw [hst]; exact h)]; decide)
  · intro busy unbegun unsettled
    subst hst
    have begins : s.withdrawStream x = s.beginAbort x .roleWithdrawn :=
      if_pos (Stream.abortable_of_unbegun busy unbegun unsettled)
    exact ⟨fun hc hv => begins.trans (State.beginAbort_afterClose _ hc hv),
      fun h => begins.trans (State.beginAbort_now _ h)⟩
  · intro hq
    rw [State.withdrawCursor_unfetched hq]
    exact exec_cursorIdleExpiry_due on isOpen
  · intro q os hq ho hm
    refine ⟨fun alone => ?_, fun held t hh other names only role expired => ?_⟩
    · rw [State.withdrawCursor_alone hq ho hm alone]
      exact exec_expired_fetchDenied on isOpen
    · have next := (exec_expired_fetchDenied on isOpen).symm.trans expired
      obtain ⟨hc, hd⟩ : held.standing.cursor = some c ∧ held.standing.held = true := by
        obtain ⟨n, h⟩ | h := names <;> rw [h] <;> exact ⟨rfl, rfl⟩
      rw [State.withdrawCursor_held hq ho hm hh other hc hd only role, Host.Outcome.next.inj next]

end

section
/-! PROOFS. Links, resets, the supply and the start-up clean-up, for O57. -/

open Sys2Proof Sys2Proof.Machine
namespace Sys2Proof.Machine

/-! ## A module reset and a power-on (R163, R165) -/

section
variable {s : State} {p : PortId} {tag : Byte}

/-- The volatile parts at their reset values but for the Day Clock and the links, in STARTING (R165). -/
def State.volatileReset (s : State) : State :=
  { s with
    controller := .starting, resetLow := false
    openings := []
    ports := mapVector (fun q : PortState => { q with outstanding := [], unsent := [] }) s.ports
    files := s.files.map (fun e => (e.1, e.2.map (fun f => { f with pinCount := 0 })))
    streams := Vector.replicate 12 {}, staging := [], blocked := [], completions := [], waiting := []
    encodings := Vector.replicate 12 {}, headWait := none, storeFullEpisode := false, storePort := {}
    pass := {}, passWoken := false, sweep := {}, findings := [], cursors := Vector.replicate 16 {} }

/-- The first-ever contents stand until a clean-up has ended (R163). -/
theorem State.takeReset_eq (s : State) :
    s.takeReset = if s.initialised = true then s.volatileReset else s.volatileReset.firstEver := by
  have marked : (s.clearWork.clearPins.discardAllRequests).initialised = s.initialised := rfl
  unfold State.takeReset State.initialise
  rw [marked]
  split <;> rfl

theorem exec_moduleReset (ha : s.admits p tag) (hr : (s.roles p).admin = true) :
    exec (.moduleReset p tag) s
      = .next { s.takeReset with replies := s.replies ++ [⟨p, tag, .ok, s.byteOrder p, .empty⟩] } := by
  refine congrArg Host.Outcome.next ?_
  rw [State.receive_admitted _ ha, State.permit, if_pos hr, State.moduleReset, State.takeReset_eq, State.takeReset_eq]
  split <;> rfl

theorem exec_resetInputReleased (on : s.powered = true) (low : s.resetLow = true) :
    exec .resetInputReleased s = .next s.takeReset := by
  refine congrArg Host.Outcome.next ?_
  rw [State.event, if_pos on, State.releaseReset, if_pos low]

theorem exec_resetInputAsserted (on : s.powered = true) (n : Nat) :
    exec (.resetInputAsserted n) s = .next (if 10 ≤ n then { s with resetLow := true } else s) := by
  refine congrArg Host.Outcome.next ?_
  rw [State.event, if_pos on]
  rfl

theorem exec_linkEstablished (on : s.powered = true) (down : s.ports[p].up = false) :
    exec (.linkEstablished p) s
      = .next { s with
          openings := s.openings.map (fun o => if o.port = p then { o with tag := none } else o)
          ports := s.ports.set p { s.ports[p] with up := true, outstanding := [], unsent := [] } } := by
  refine congrArg Host.Outcome.next ?_
  rw [State.event, if_pos on, State.establish, if_neg (by rw [down]; decide)]
  simp only [State.setLink, State.setPort, State.discardRequests, getElem_set_fin, set_set_fin]

theorem exec_linkReset (on : s.powered = true) (up : s.ports[p].up = true) :
    exec (.linkReset p) s = .next (s.portReset p) := by
  refine congrArg Host.Outcome.next ?_
  rw [State.event, if_pos on, State.linkReset, if_pos up]

theorem exec_linkLoss (on : s.powered = true) (up : s.ports[p].up = true) :
    exec (.linkLoss p) s = .next ((s.portReset p).setLink p false) := by
  refine congrArg Host.Outcome.next ?_
  rw [State.event, if_pos on, State.linkLost, if_pos up]

/-! ## The clean-up (R166, R167) -/

theorem State.removeFile_ingesting {i : Nat} {f : File} (hf : s.file i = some f) (hs : f.state = .ingesting) :
    s.removeFile i = some (s.releaseFile i f) := by
  simp only [State.removeFile, hf, hs, if_true]

theorem CatalogueOnly.refl (s : State) : CatalogueOnly s s := ⟨rfl⟩

theorem CatalogueOnly.foldl {α : Type} {f : State → α → State} (h : ∀ s a, CatalogueOnly s (f s a)) (l : List α)
    (s : State) : CatalogueOnly s (l.foldl f s) := by
  induction l generalizing s with
  | nil => exact .refl s
  | cons a l ih => exact (h s a).trans (ih _)

theorem State.removeFile_catalogueOnly (s : State) (i : Nat) : CatalogueOnly s ((s.removeFile i).getD s) := by
  unfold State.removeFile
  split
  · split
    · exact s.releaseFile_catalogueOnly i _
    · exact .refl s
  · exact .refl s

theorem CatalogueOnly.pass {s t : State} (h : CatalogueOnly s t) : t.pass = s.pass := by rw [h.eq]

theorem CatalogueOnly.clock {s t : State} (h : CatalogueOnly s t) : t.clock = s.clock := by rw [h.eq]

/-- The start-up cause behind a reset, which leaves no pass in progress and none to come (R95, R167). -/
theorem State.startCause_fresh (hp : s.pass = {}) :
    s.startCause = { s with pass := if s.clock.state = .unset then { again := true } else { state := .walking } } := by
  unfold State.startCause
  by_cases unset : s.clock.state = .unset
  · have stopped : s.clockIsSet = false := decide_eq_false (not_not.mpr unset)
    rw [if_neg (by rw [stopped]; simp), if_pos unset, hp]
  · have runs : s.clockIsSet = true := decide_eq_true unset
    rw [if_pos ⟨by rw [hp], runs⟩, if_neg unset, hp]
    rfl

theorem State.cleanUp_eq (hp : s.pass = {}) :
    s.cleanUp
      = { ({ s with initialised := true } : State).removeIngesting.freeFilling.markAllUnreported with
          controller := .ready
          pass := if s.clock.state = .unset then { again := true } else { state := .walking } } := by
  have removed : CatalogueOnly { s with initialised := true } ({ s with initialised := true } : State).removeIngesting :=
    CatalogueOnly.foldl State.removeFile_catalogueOnly _ _
  have freed := removed.trans (CatalogueOnly.foldl (fun u n => ⟨rfl⟩)
    ({ s with initialised := true } : State).removeIngesting.fillingSegments _ (f := State.freeSegment))
  have marked := freed.trans (u := (State.freeFilling _).markAllUnreported) ⟨rfl⟩
  have pass : ({ s with initialised := true } : State).removeIngesting.freeFilling.markAllUnreported.pass = {} :=
    marked.pass.trans hp
  have clock : ({ s with initialised := true } : State).removeIngesting.freeFilling.markAllUnreported.clock = s.clock :=
    marked.clock
  unfold State.cleanUp
  simp only [State.startCause_fresh pass, clock]

theorem exec_startupCleanup (on : s.powered = true) (starting : s.controller = .starting) (high : s.resetLow = false) :
    exec .startupCleanup s = .next s.cleanUp := by
  refine congrArg Host.Outcome.next ?_
  rw [State.event, if_pos on, State.startupCleanup, if_pos ⟨starting, by rw [high]; rfl⟩]

end

/-! ## A port reset reaches a stream (R35) -/

section
variable {s : State} {x : StreamId} {st : Stream}

theorem State.resetStream_abortable (h : s.streams[x].abortable = true) :
    s.resetStream x = s.beginAbort x .portReset := if_pos h

theorem Stream.unbegun_unsettled_of_idle (h : st.state = .idle) : st.abortBegun = false ∧ st.settled = false := by
  simp [Stream.abortBegun, Stream.settled, h]

theorem State.resetStream_idle (h : s.streams[x].state = .idle) : s.resetStream x = s := by
  rcases s.resetStream_cases x with ⟨able, -⟩ | ⟨begun, -⟩ | ⟨settled, -⟩ | ⟨-, e⟩
  · exact absurd h (Stream.abortable_iff.mp able).1
  · exact absurd begun (by rw [(Stream.unbegun_unsettled_of_idle h).1]; decide)
  · exact absurd settled (by rw [(Stream.unbegun_unsettled_of_idle h).2]; decide)
  · exact e

theorem State.resetStream_begun (h : s.streams[x].abortBegun = true) :
    s.resetStream x = s.recordCause x .portReset := by
  have able : s.streams[x].abortable = false := Stream.not_abortable (.inr (.inl h))
  simp only [State.resetStream, able, h, Bool.false_eq_true, if_false, if_true]

theorem Stream.not_abortBegun_of_settled (h : st.settled = true) : st.abortBegun = false := by
  have posting : st.state = .posting := by
    by_contra no
    simp [Stream.settled, no] at h
  simp [Stream.abortBegun, posting]

theorem State.resetStream_settled (h : s.streams[x].settled = true) : s.resetStream x = s.streamIdle x := by
  have able : s.streams[x].abortable = false := Stream.not_abortable (.inr (.inr h))
  have unbegun : s.streams[x].abortBegun = false := Stream.not_abortBegun_of_settled h
  simp only [State.resetStream, able, unbegun, h, Bool.false_eq_true, if_false, if_true]

end

/-! ## What a reset took runs on (R158) -/

section
variable {s : State} {p : PortId} {rest : List Opening}

theorem State.runOn_file_refused {b : OpeningFile}
    (h : (s.findFile b.switchId b.sequence).isSome = true ∨ 131072 ≤ s.heldFiles.length) :
    s.runOn p (.file b) = s := by
  cases hf : s.findFile b.switchId b.sequence with
  | some e => simp only [State.runOn, State.newEntryAnswer_duplicate (s := s) (by rw [hf]; rfl)]
  | none => simp only [State.runOn, State.newEntryAnswer_full hf (h.resolve_left (by rw [hf]; decide))]

/-- The stream set up for a port that was reset begins its abort at once. -/
theorem State.runOn_file_created {b : OpeningFile} (hf : s.findFile b.switchId b.sequence = none)
    (hl : s.heldFiles.length < 131072) :
    s.runOn p (.file b) = (s.createOpened p s.lowestFreeFile b).abortedNow b.stream .portReset := by
  have opened : (s.createOpened p s.lowestFreeFile b).streams[b.stream].state ≠ .closing := by
    rw [State.createOpened, State.setStream_streams, getElem_set_fin]
    exact nofun
  simp only [State.runOn, State.newEntryAnswer_eq hf hl]
  exact State.beginAbort_now _ (.inl opened)

/-- A cursor of which no read is outstanding or in progress leaves no read to abandon (R144). -/
theorem State.abandonRead_unread {c : CursorId} (unread : ∀ r ∈ s.storePort.reads, r.1 ≠ c)
    (idle : ∀ d n live, s.storePort.current = some (.read d n live) → live = true → d ≠ c) : s.abandonRead c = s := by
  have reads : s.storePort.reads.filter (fun r => r.1 ≠ c) = s.storePort.reads :=
    List.filter_eq_self.mpr fun r hr => decide_eq_true (unread r hr)
  unfold State.abandonRead
  rw [reads]
  split
  · next d n live h =>
    have kept : (live && decide (d ≠ c)) = live := by
      cases live
      · rfl
      · exact decide_eq_true (idle d n true h rfl)
    rw [kept, ← h]
  · rfl

variable {b : OpeningCursor} {i : Nat} {f : File}

theorem State.runOn_cursor_refused (h : s.findFile b.switchId b.sequence = none
      ∨ ∃ i f, s.findFile b.switchId b.sequence = some (i, f) ∧ (f.state = .ingesting ∨ f.state = .expiring)) :
    s.runOn p (.cursor b) = s := by
  obtain h | ⟨i, f, h, hs | hs⟩ := h
  · simp only [State.runOn, State.pinAnswer, h]
  · simp only [State.runOn, State.pinAnswer, h, hs]
  · simp only [State.runOn, State.pinAnswer, h, hs]

/-- The cursor opened for a port that was reset is freed at once: its file is pinned and unpinned. -/
theorem State.runOn_cursor_freed (hf : s.findFile b.switchId b.sequence = some (i, f)) (hi : s.file i = some f)
    (hs : f.state = .accepted ∨ f.state = .disputed) (free : s.cursors[b.cursor] = {})
    (unread : ∀ r ∈ s.storePort.reads, r.1 ≠ b.cursor)
    (idle : ∀ d n live, s.storePort.current = some (.read d n live) → live = true → d ≠ b.cursor) :
    ∃ files : Sparse (Option File),
      s.runOn p (.cursor b) = { s with files } ∧ ∀ j, Sparse.get none j files = s.file j := by
  have pinned : s.pin i = s.setFile i { f with pinCount := f.pinCount + 1 } := by simp only [State.pin, hi]
  have place : (s.pinOpened p i f b).cursors[b.cursor].fileIndex = some i := by
    rw [State.pinOpened, State.setCursor_cursors, getElem_set_fin]
    rfl
  have entry : (s.pinOpened p i f b).file i = some { f with pinCount := f.pinCount + 1 } := by
    rw [State.pinOpened, pinned, State.file, State.setCursor_files, State.setFile_files, Sparse.get_set_same]
  have alive : f.state ≠ .expiring := by
    obtain hs | hs := hs <;> rw [hs] <;> decide
  have runs : s.runOn p (.cursor b)
      = (s.pinOpened p i f b).cursorFreed b.cursor i { f with pinCount := f.pinCount + 1 } := by
    have closed : s.cursors[b.cursor].isOpen = false := by rw [free]
    simp only [State.runOn, State.pinAnswer_eq_done hf hs, closed, Bool.false_eq_true, if_false]
    exact State.freeCursorOf_kept place entry (by simp) (.inl alive)
  have unread' : (s.pinOpened p i f b).abandonRead b.cursor = s.pinOpened p i f b := by
    rw [State.pinOpened, pinned]
    exact State.abandonRead_unread unread idle
  have cursors : s.cursors.set b.cursor {} = s.cursors := by
    rw [← free]
    exact Vector.set_getElem_self _
  refine ⟨Sparse.set none i (some f) (Sparse.set none i (some { f with pinCount := f.pinCount + 1 }) s.files), ?_, ?_⟩
  · rw [runs, ← State.releaseCursor_setFile, State.releaseCursor, unread', State.pinOpened, pinned]
    simp only [File.unpinned, State.setCursor, State.setFile, set_set_fin, cursors, Nat.add_sub_cancel]
  · intro j
    rw [Sparse.get_set, Sparse.get_set]
    split
    · next h => rw [h, hi]
    · rfl

end

end Sys2Proof.Machine

end

section
/-! PROOFS. What a port reset leaves of a port, and O57. -/

open Sys2Proof Sys2Proof.Machine
namespace Sys2Proof.Machine

/-! ## The streams of the port (R35) -/

/-- Nothing but the streams and the lists on which they wait differs. -/
structure StreamsOnly (s t : State) : Prop where
  eq : t = { s with
    streams := t.streams, staging := t.staging, waiting := t.waiting, blocked := t.blocked, headWait := t.headWait }

namespace StreamsOnly

variable {s t u : State}

theorem refl (s : State) : StreamsOnly s s := ⟨rfl⟩

theorem trans (h : StreamsOnly s t) (k : StreamsOnly t u) : StreamsOnly s u := ⟨by rw [k.eq, h.eq]⟩

theorem foldl {α : Type} {f : State → α → State} (h : ∀ s a, StreamsOnly s (f s a)) (l : List α) (s : State) :
    StreamsOnly s (l.foldl f s) := by
  induction l generalizing s with
  | nil => exact refl s
  | cons a l ih => exact (h s a).trans (ih _)

theorem powered (h : StreamsOnly s t) : t.powered = s.powered := by rw [h.eq]

theorem ports (h : StreamsOnly s t) : t.ports = s.ports := by rw [h.eq]

theorem cursors (h : StreamsOnly s t) : t.cursors = s.cursors := by rw [h.eq]

theorem completions (h : StreamsOnly s t) : t.completions = s.completions := by rw [h.eq]

end StreamsOnly

section
variable {s : State} {x y : StreamId}

theorem State.resetStream_streamsOnly (s : State) (x : StreamId) : StreamsOnly s (s.resetStream x) := by
  rcases s.resetStream_cases x with ⟨-, e⟩ | ⟨-, e⟩ | ⟨-, e⟩ | ⟨-, e⟩
  · rw [e]
    rcases s.beginAbort_cases x .portReset with e | e <;> rw [e] <;> exact ⟨rfl⟩
  · rw [e]
    exact ⟨rfl⟩
  · rw [e]
    exact ⟨rfl⟩
  · rw [e]
    exact ⟨rfl⟩

/-- The abort of a stream has begun, or it is IDLE: what a port reset brings each of the port's streams to. -/
def Stream.isStopped (st : Stream) : Prop := st.abortBegun = true ∨ st.state = .idle

/-- A member of the wait list is a stream's. -/
def WaitItem.isOf (i : WaitItem) (x : StreamId) : Prop := i = .post x ∨ i = .notice x

/-- What the reset of one stream is: the stream stopped and, unless it was IDLE, off the wait list; no other stream
changed and no member added. -/
structure StreamReset (x : StreamId) (s t : State) : Prop where
  others : ∀ y : StreamId, y ≠ x → t.streams[y] = s.streams[y]
  stopped : t.streams[x].isStopped
  kept : ∀ i ∈ t.waiting, i ∈ s.waiting
  left : s.streams[x].state ≠ .idle → ∀ i ∈ t.waiting, ¬i.isOf x

theorem StreamReset.of_set {t : State} {u : Stream} (streams : t.streams = s.streams.set x u) (stopped : u.isStopped)
    (waiting : t.waiting = s.waiting.filter (fun i => i ≠ WaitItem.post x ∧ i ≠ WaitItem.notice x)) :
    StreamReset x s t where
  others y hy := by rw [streams]; exact getElem_set_fin_ne _ _ _ _ (Ne.symm hy)
  stopped := by rw [streams, getElem_set_fin]; exact stopped
  kept i hi := by
    rw [waiting] at hi
    exact (List.mem_filter.mp hi).1
  left _ i hi of := by
    rw [waiting] at hi
    obtain ⟨notPost, notNotice⟩ := of_decide_eq_true (List.mem_filter.mp hi).2
    exact of.elim notPost notNotice

theorem State.resetStream_reset (s : State) (x : StreamId) : StreamReset x s (s.resetStream x) := by
  rcases s.resetStream_cases x with ⟨-, e⟩ | ⟨begun, e⟩ | ⟨-, e⟩ | ⟨idle, e⟩
  · rw [e]
    by_cases hc : s.streams[x].state = .closing ∧ s.streams[x].verdict = none
    · rw [State.beginAbort_afterClose _ hc.1 hc.2]
      refine .of_set rfl (.inl ?_) rfl
      simp only [Stream.abortBegun, hc.1]
      rfl
    · have now : s.streams[x].state ≠ .closing ∨ s.streams[x].verdict.isSome = true := by
        by_contra no
        push Not at no
        exact hc ⟨no.1, by simpa using no.2⟩
      rw [State.beginAbort_now _ now]
      exact .of_set rfl (.inl rfl) rfl
  · rw [e]
    exact .of_set (State.recordCause_streams ..) (.inl begun) (State.recordCause_waiting ..)
  · rw [e]
    exact .of_set (u := {}) rfl (.inr rfl) rfl
  · rw [e]
    exact ⟨fun _ _ => rfl, .inr idle, fun _ hi => hi, fun busy => absurd idle busy⟩

/-- The streams of a walk of resets are stopped and off the wait list; the others stay as they were. -/
theorem State.resetStreams_spec (l : List StreamId) (s : State) :
    let t := l.foldl State.resetStream s
    (∀ y, y ∉ l → t.streams[y] = s.streams[y])
      ∧ (∀ y, y ∈ l ∨ s.streams[y].isStopped → t.streams[y].isStopped)
      ∧ (∀ i ∈ t.waiting, i ∈ s.waiting)
      ∧ ∀ y ∈ l, s.streams[y].state ≠ .idle → ∀ i ∈ t.waiting, ¬i.isOf y := by
  induction l generalizing s with
  | nil =>
    exact ⟨fun _ _ => rfl, fun y h => h.resolve_left List.not_mem_nil, fun _ hi => hi, fun y hy => nomatch hy⟩
  | cons x l ih =>
    obtain ⟨others, stopped, kept, left⟩ := ih (s.resetStream x)
    have reset := s.resetStream_reset x
    refine ⟨fun y hy => ?_, fun y hy => ?_, fun i hi => reset.kept i (kept i hi), fun y hy busy i hi => ?_⟩
    · exact (others y (List.not_mem_of_not_mem_cons hy)).trans (reset.others y (List.ne_of_not_mem_cons hy))
    · by_cases hyx : y = x
      · subst hyx
        exact stopped y (.inr reset.stopped)
      · refine stopped y (hy.imp (fun h => (List.mem_cons.mp h).resolve_left hyx) fun h => ?_)
        rw [reset.others y hyx]
        exact h
    · by_cases hyx : y = x
      · subst hyx
        exact reset.left busy i (kept i hi)
      · exact left y ((List.mem_cons.mp hy).resolve_left hyx) (by rw [reset.others y hyx]; exact busy) i hi

end

/-! ## The cursors of the port (R144) -/

/-- Nothing but the cursors with their reads, the catalogue, the Free Segment List and the trail differs. -/
structure CursorsOnly (s t : State) : Prop where
  eq : t = { s with
    cursors := t.cursors, storePort := t.storePort
    files := t.files, segments := t.segments, freeList := t.freeList, switches := t.switches, trail := t.trail }

namespace CursorsOnly

variable {s t u : State}

theorem refl (s : State) : CursorsOnly s s := ⟨rfl⟩

theorem trans (h : CursorsOnly s t) (k : CursorsOnly t u) : CursorsOnly s u := ⟨by rw [k.eq, h.eq]⟩

theorem foldl {α : Type} {f : State → α → State} (h : ∀ s a, CursorsOnly s (f s a)) (l : List α) (s : State) :
    CursorsOnly s (l.foldl f s) := by
  induction l generalizing s with
  | nil => exact refl s
  | cons a l ih => exact (h s a).trans (ih _)

theorem powered (h : CursorsOnly s t) : t.powered = s.powered := by rw [h.eq]

theorem ports (h : CursorsOnly s t) : t.ports = s.ports := by rw [h.eq]

theorem streams (h : CursorsOnly s t) : t.streams = s.streams := by rw [h.eq]

theorem waiting (h : CursorsOnly s t) : t.waiting = s.waiting := by rw [h.eq]

theorem completions (h : CursorsOnly s t) : t.completions = s.completions := by rw [h.eq]

end CursorsOnly

theorem CatalogueOnly.cursors {s t : State} (h : CatalogueOnly s t) : t.cursors = s.cursors := by rw [h.eq]

theorem State.freeCursorOf_cursorsOnly (s : State) (c : CursorId) : CursorsOnly s (s.freeCursorOf c) := by
  have frame := (s.freeCursorOf_frame c).eq
  generalize s.freeCursorOf c = t at frame ⊢
  rw [frame]
  exact ⟨rfl⟩

theorem State.cursors_freeCursorOf (s : State) (c d : CursorId) :
    (s.freeCursorOf c).cursors[d] = if d = c then {} else s.cursors[d] := by
  rw [(s.freeCursorOf_frame c).cursors, State.cursors_releaseCursor]

theorem State.cursors_freeCursors (l : List CursorId) (s : State) (d : CursorId) :
    (l.foldl State.freeCursorOf s).cursors[d] = if d ∈ l then {} else s.cursors[d] := by
  induction l generalizing s with
  | nil => rfl
  | cons c l ih =>
    rw [List.foldl_cons, ih, State.cursors_freeCursorOf]
    by_cases hl : d ∈ l
    · rw [if_pos hl, if_pos (List.mem_cons_of_mem _ hl)]
    · simp only [hl, List.mem_cons, or_false, if_false]

/-! ## The wait list is served for the ports of its members (R42) -/

/-- Work of one stream, its owner kept: neither ports nor cursors nor other streams differ, and what joins the Completion
Queue is for the port of the stream. -/
structure StreamWork (x : StreamId) (s t : State) : Prop where
  ports : t.ports = s.ports
  cursors : t.cursors = s.cursors
  others : ∀ y : StreamId, y ≠ x → t.streams[y] = s.streams[y]
  owner : t.streams[x].owner = s.streams[x].owner
  posts : ∀ e ∈ t.completions, e ∈ s.completions ∨ e.port = s.streams[x].port

namespace StreamWork

variable {s t u : State} {x : StreamId}

theorem refl (x : StreamId) (s : State) : StreamWork x s s := ⟨rfl, rfl, fun _ _ => rfl, rfl, fun _ he => .inl he⟩

theorem trans (h : StreamWork x s t) (k : StreamWork x t u) : StreamWork x s u where
  ports := k.ports.trans h.ports
  cursors := k.cursors.trans h.cursors
  others y hy := (k.others y hy).trans (h.others y hy)
  owner := k.owner.trans h.owner
  posts e he := by
    rcases k.posts e he with he | he
    · exact h.posts e he
    · exact .inr (he.trans (congrArg (fun o : Option PortId => o.getD 0) h.owner))

theorem of_set {st : Stream} (ports : t.ports = s.ports) (cursors : t.cursors = s.cursors)
    (completions : t.completions = s.completions) (streams : t.streams = s.streams.set x st)
    (owner : st.owner = s.streams[x].owner) : StreamWork x s t where
  ports := ports
  cursors := cursors
  others y hy := by rw [streams]; exact getElem_set_fin_ne _ _ _ _ (Ne.symm hy)
  owner := by rw [streams, getElem_set_fin]; exact owner
  posts e he := .inl (completions ▸ he)

theorem updateStream {f : Stream → Stream} (h : (f s.streams[x]).owner = s.streams[x].owner) :
    StreamWork x s (s.updateStream x f) := of_set rfl rfl rfl rfl h

theorem post (s : State) (x : StreamId) (d : CompletionDetail) : StreamWork x s (s.post x d) where
  ports := rfl
  cursors := rfl
  others _ _ := rfl
  owner := rfl
  posts e he := by
    rcases List.mem_append.mp he with he | he
    · exact .inl he
    · rw [List.mem_singleton.mp he]
      exact .inr rfl

theorem postNotice (s : State) (x : StreamId) : StreamWork x s (s.postNotice x) := by
  rcases s.postNotice_cases x with ⟨-, -, e⟩ | e <;> rw [e]
  · exact (post s x .storeFull).trans (of_set rfl rfl rfl rfl rfl)
  · exact refl x s

theorem tryPost (s : State) (x : StreamId) (d : CompletionDetail) : StreamWork x s (s.tryPost x d).1 := by
  rcases s.tryPost_cases x d with ⟨-, e⟩ | e <;> rw [e]
  · exact (postNotice s x).trans (post _ x d)
  · exact postNotice s x

theorem waitPost (s : State) (x : StreamId) (d : CompletionDetail) (after : AfterPost) :
    StreamWork x s (s.waitPost x d after) := of_set rfl rfl rfl rfl rfl

theorem enterWaiting (s : State) (x : StreamId) (state : StreamState) : StreamWork x s (s.enterWaiting x state) :=
  updateStream rfl

theorem rejectRecord (s : State) (x : StreamId) (reason : RejectReason) (after : AfterPost) :
    StreamWork x s (s.rejectRecord x reason after).1 := by
  unfold State.rejectRecord
  simp only
  split
  · exact of_set rfl rfl rfl rfl rfl
  · split
    · next u e =>
      rw [show u = (State.tryPost _ x _).1 from (congrArg Prod.fst e).symm]
      refine StreamWork.trans ?_ (tryPost _ x _)
      exact updateStream rfl
    · next u e =>
      rw [show u = (State.tryPost _ x _).1 from (congrArg Prod.fst e).symm]
      refine (StreamWork.trans ?_ (tryPost _ x _)).trans (waitPost _ x _ _)
      exact updateStream rfl

theorem closeInput (s : State) (x : StreamId) : StreamWork x s (s.closeInput x) := by
  unfold State.closeInput
  refine (updateStream ?_).trans (of_set rfl rfl rfl rfl rfl)
  split <;> rfl

theorem endOfInput (s : State) (x : StreamId) : StreamWork x s (s.endOfInput x) := by
  unfold State.endOfInput
  simp only
  split
  · have reject := rejectRecord s x .truncated .endOfInput
    split
    · next t e =>
      rw [e] at reject
      exact reject.trans (closeInput t x)
    · next t e =>
      rw [e] at reject
      exact reject
  · exact closeInput s x

theorem exhaust (s : State) (x : StreamId) : StreamWork x s (s.exhaust x) := by
  have passes : ∀ (st : Stream) (n : BufferName), (st.setBuffer n {}).owner = st.owner := fun st n => by cases n <;> rfl
  unfold State.exhaust
  simp only
  split
  · split
    · exact (updateStream rfl).trans (endOfInput _ x)
    · split
      · exact (updateStream rfl).trans (updateStream (passes _ _))
      · exact ((updateStream rfl).trans (updateStream (passes _ _))).trans (enterWaiting _ x _)
  · exact refl x s

theorem markAccepted (s : State) (x : StreamId) (reasons : DisputeReasons) :
    StreamWork x s (s.markAccepted x reasons) := by
  unfold State.markAccepted
  refine StreamWork.trans ?_ (updateStream rfl)
  unfold State.acceptFile
  split
  · split <;> exact ⟨rfl, rfl, fun _ _ => rfl, rfl, fun _ he => .inl he⟩
  · exact ⟨rfl, rfl, fun _ _ => rfl, rfl, fun _ he => .inl he⟩

end StreamWork

/-- A member of the wait list is served: the work of its stream, which may leave the stream IDLE. -/
def Served (x : StreamId) (s t : State) : Prop :=
  StreamWork x s t ∨ ∃ u : State, StreamWork x s u ∧ t = u.streamIdle x

section
variable {s t u : State} {x : StreamId}

theorem StreamWork.served (h : StreamWork x s t) (k : Served x t u) : Served x s u :=
  k.imp h.trans fun ⟨v, work, e⟩ => ⟨v, h.trans work, e⟩

theorem State.acceptStream_served (s : State) (x : StreamId) (reasons : DisputeReasons) :
    Served x s (s.acceptStream x reasons) := by
  cases h : s.trailRoom with
  | false =>
    rw [State.acceptStream_full h]
    exact .inl (.updateStream rfl)
  | true =>
    rw [s.acceptStream_room x h]
    refine (StreamWork.markAccepted s x reasons).served ?_
    unfold State.postThen
    have posts := StreamWork.tryPost (s.markAccepted x reasons) x (s.streams[x].closingEntry reasons)
    split
    · next t e =>
      rw [e] at posts
      exact .inr ⟨t, posts, rfl⟩
    · next t e =>
      rw [e] at posts
      exact .inl (posts.trans (.waitPost t x _ _))

theorem State.afterPost_served (s : State) (x : StreamId) (after : AfterPost) : Served x s (s.afterPost x after) := by
  cases after with
  | running => exact .inl ((StreamWork.updateStream rfl).trans (.exhaust _ x))
  | starved => exact .inl (.enterWaiting s x _)
  | held => exact .inl (.enterWaiting s x _)
  | idle => exact .inr ⟨s, .refl x s, rfl⟩
  | endOfInput => exact .inl (.closeInput s x)
  | reconcile => exact s.acceptStream_served x _

/-- The stream of a member of the wait list. -/
def WaitItem.stream : WaitItem → StreamId
  | .post x => x
  | .notice x => x

theorem State.serveWaiting_served (s : State) (i : WaitItem) : Served i.stream s (s.serveWaiting i) := by
  cases i with
  | notice x => exact .inl (.postNotice s x)
  | post x =>
    unfold State.serveWaiting
    simp only
    split
    · exact .inl (.refl x s)
    · next q _ =>
      have posts := StreamWork.tryPost s x q.detail
      split
      · next t e =>
        rw [e] at posts
        refine (posts.trans ?_).served (State.afterPost_served _ x _)
        exact .of_set rfl rfl rfl rfl rfl
      · next t e =>
        rw [e] at posts
        exact .inl posts

/-- An IDLE stream with nothing pending is passed over. -/
theorem State.serveWaiting_blank (i : WaitItem) (h : s.streams[i.stream] = {}) : s.serveWaiting i = s := by
  cases i with
  | notice x =>
    have unset : s.streams[x].storeFullNotice = false := by
      rw [show s.streams[x] = {} from h]
    rcases s.postNotice_cases x with ⟨set, -, -⟩ | e
    · rw [unset] at set
      cases set
    · exact e
  | post x => exact State.serveWaiting_none (st := {}) h rfl

/-- What a walk of the wait list none of whose members is a stream of a port leaves of the port. -/
structure PortSpared (p : PortId) (s t : State) : Prop where
  ports : t.ports = s.ports
  cursors : t.cursors = s.cursors
  streams : ∀ y : StreamId, t.streams[y].owner = some p → t.streams[y] = s.streams[y]
  posts : ∀ e ∈ t.completions, e ∈ s.completions ∨ e.port ≠ p

variable {p : PortId}

theorem Served.spared (h : Served x s t) (foreign : ∃ q, s.streams[x].owner = some q ∧ q ≠ p) : PortSpared p s t := by
  obtain ⟨q, own, other⟩ := foreign
  have work : ∀ u, StreamWork x s u → PortSpared p s u := fun u h =>
    { ports := h.ports
      cursors := h.cursors
      streams := fun y hy => h.others y fun e => by
        subst e
        rw [h.owner, own] at hy
        exact other (Option.some.inj hy)
      posts := fun e he => (h.posts e he).imp id fun port => by
        rw [port, Stream.port, own]
        exact other }
  rcases h with h | ⟨u, h, rfl⟩
  · exact work t h
  · obtain ⟨ports, cursors, streams, posts⟩ := work u h
    refine ⟨ports, cursors, fun y hy => ?_, posts⟩
    have set : (u.streamIdle x).streams = u.streams.set x {} := rfl
    by_cases hyx : y = x
    · subst hyx
      rw [set, getElem_set_fin] at hy
      cases hy
    · rw [set, getElem_set_fin_ne _ _ _ _ (Ne.symm hyx)] at hy ⊢
      exact streams y hy

/-- A stream of another port, or one that has become IDLE. -/
def Stream.foreign (st : Stream) (p : PortId) : Prop := (∃ q, st.owner = some q ∧ q ≠ p) ∨ st = {}

theorem Served.foreign (h : Served x s t) {y : StreamId} (hy : s.streams[y].foreign p)
    (hx : s.streams[x].owner.isSome = true) : t.streams[y].foreign p := by
  rcases h with h | ⟨u, h, rfl⟩
  · by_cases hyx : y = x
    · subst hyx
      rcases hy with ⟨q, own, other⟩ | blank
      · exact .inl ⟨q, h.owner.trans own, other⟩
      · rw [blank] at hx
        cases hx
    · rw [h.others y hyx]
      exact hy
  · have set : (u.streamIdle x).streams = u.streams.set x {} := rfl
    by_cases hyx : y = x
    · subst hyx
      rw [set, getElem_set_fin]
      exact .inr rfl
    · rw [set, getElem_set_fin_ne _ _ _ _ (Ne.symm hyx), h.others y hyx]
      exact hy

theorem PortSpared.refl (p : PortId) (s : State) : PortSpared p s s :=
  ⟨rfl, rfl, fun _ _ => rfl, fun _ he => .inl he⟩

theorem PortSpared.trans (h : PortSpared p s t) (k : PortSpared p t u) : PortSpared p s u where
  ports := k.ports.trans h.ports
  cursors := k.cursors.trans h.cursors
  streams y hy := by
    have same := k.streams y hy
    exact same.trans (h.streams y (by rw [← same]; exact hy))
  posts e he := (k.posts e he).elim (h.posts e) .inr

theorem State.serveAll_spared (l : List WaitItem) (h : ∀ i ∈ l, s.streams[i.stream].foreign p) :
    PortSpared p s (l.foldl State.serveWaiting s) := by
  induction l generalizing s with
  | nil => exact .refl p s
  | cons i l ih =>
    have rest : ∀ j ∈ l, s.streams[j.stream].foreign p := fun j hj => h j (List.mem_cons_of_mem _ hj)
    rw [List.foldl_cons]
    rcases h i (List.mem_cons_self ..) with ⟨q, own, other⟩ | blank
    · have served := s.serveWaiting_served i
      exact (served.spared ⟨q, own, other⟩).trans (ih fun j hj => served.foreign (rest j hj) (by rw [own]; rfl))
    · rw [State.serveWaiting_blank i blank]
      exact ih rest

end

/-! ## A port reset (R157) -/

section
variable {s : State} {p : PortId}

/-- A port reset as far as its streams (R35): the requests discarded and the streams reached. -/
def State.portStopped (s : State) (p : PortId) : State :=
  (s.streamsOf p).foldl State.resetStream (s.discardRequests p)

/-- A port reset as far as its cursors (R144). -/
def State.portFreed (s : State) (p : PortId) : State := (s.cursorsOf p).foldl State.freeCursorOf (s.portStopped p)

theorem State.portStopped_streamsOnly (s : State) (p : PortId) : StreamsOnly (s.discardRequests p) (s.portStopped p) :=
  .foldl State.resetStream_streamsOnly _ _

theorem State.portFreed_cursorsOnly (s : State) (p : PortId) : CursorsOnly (s.portStopped p) (s.portFreed p) :=
  .foldl State.freeCursorOf_cursorsOnly _ _

theorem State.portStopped_cursors (s : State) (p : PortId) : (s.portStopped p).cursors = s.cursors :=
  (s.portStopped_streamsOnly p).cursors

theorem State.portFreed_completions (s : State) (p : PortId) : (s.portFreed p).completions = s.completions :=
  (s.portFreed_cursorsOnly p).completions.trans (s.portStopped_streamsOnly p).completions

theorem State.portFreed_powered (s : State) (p : PortId) : (s.portFreed p).powered = s.powered :=
  (s.portFreed_cursorsOnly p).powered.trans (s.portStopped_streamsOnly p).powered

theorem State.portReset_eq (s : State) (p : PortId) : s.portReset p = (s.portFreed p).dropCompletions p := by
  have cursors : (s.portStopped p).cursorsOf p = s.cursorsOf p := by
    rw [State.cursorsOf, s.portStopped_cursors p]
    rfl
  rw [State.portFreed, ← cursors]
  rfl

theorem State.mem_streamsOf {x : StreamId} : x ∈ s.streamsOf p ↔ s.streams[x].owner = some p := by
  simp [State.streamsOf]

theorem State.mem_cursorsOf_iff {c : CursorId} :
    c ∈ s.cursorsOf p ↔ s.cursors[c].isOpen = true ∧ s.cursors[c].owner = some p := by
  simp [State.cursorsOf]

/-- A port none of whose entries stands in the Completion Queue loses none, and the wait list is not served (R45). -/
theorem State.portReset_unposted (h : s.completionsOf p = []) : s.portReset p = s.portFreed p := by
  have all : s.completions.filter (fun e => e.port ≠ p) = s.completions := by
    rw [List.filter_eq_self]
    intro e he
    refine decide_eq_true fun port => ?_
    have mem : e ∈ s.completionsOf p := List.mem_filter.mpr ⟨he, decide_eq_true port⟩
    rw [h] at mem
    cases mem
  rw [State.portReset_eq, State.dropCompletions, State.removeCompletions, s.portFreed_completions p, all]
  exact if_neg (Nat.lt_irrefl _)

/-- Otherwise the removal of its entries serves the wait list (R42, R45). -/
theorem State.portReset_posted (h : s.completionsOf p ≠ []) :
    s.portReset p
      = ({ s.portFreed p with completions := s.completions.filter (fun e => e.port ≠ p) } : State).serveWaitList := by
  obtain ⟨e, he⟩ := List.exists_mem_of_ne_nil _ h
  obtain ⟨he, port⟩ := List.mem_filter.mp he
  have fewer : (s.completions.filter (fun e => e.port ≠ p)).length < s.completions.length :=
    List.length_filter_lt_length_iff_exists.mpr ⟨e, he, by simpa using port⟩
  rw [State.portReset_eq, State.dropCompletions, State.removeCompletions, s.portFreed_completions p]
  exact if_pos fewer

theorem State.portFreed_port (s : State) (p : PortId) :
    (s.portFreed p).ports[p].outstanding = [] ∧ (s.portFreed p).ports[p].unsent = [] := by
  have port : (s.portFreed p).ports[p] = { s.ports[p] with outstanding := [], unsent := [] } := by
    rw [(s.portFreed_cursorsOnly p).ports, (s.portStopped_streamsOnly p).ports]
    exact getElem_set_fin ..
  rw [port]
  exact ⟨rfl, rfl⟩

theorem State.portFreed_cursor {c : CursorId} (isOpen : (s.portFreed p).cursors[c].isOpen = true) :
    (s.portFreed p).cursors[c].owner ≠ some p := by
  rw [State.portFreed, State.cursors_freeCursors, s.portStopped_cursors p] at isOpen ⊢
  split at isOpen
  · cases isOpen
  · next other =>
    rw [if_neg other]
    exact fun own => other (State.mem_cursorsOf_iff.mpr ⟨isOpen, own⟩)

theorem State.portFreed_stream {x : StreamId} (own : (s.portFreed p).streams[x].owner = some p) :
    (s.portFreed p).streams[x].isStopped := by
  obtain ⟨others, stopped, -, -⟩ := State.resetStreams_spec (s.streamsOf p) (s.discardRequests p)
  rw [(s.portFreed_cursorsOnly p).streams] at own ⊢
  refine stopped x (.inl ?_)
  by_contra other
  have same : (s.portStopped p).streams[x] = s.streams[x] := others x other
  rw [same] at own
  exact other (State.mem_streamsOf.mpr own)

/-- With every member of the wait list a stream in use, those left on it after the reset are streams of other ports. -/
theorem State.portFreed_waiting (used : ∀ (i : WaitItem) (x : StreamId), i ∈ s.waiting → i = .post x ∨ i = .notice x →
      s.streams[x].state ≠ .idle ∧ s.streams[x].owner.isSome = true) {i : WaitItem}
    (hi : i ∈ (s.portFreed p).waiting) : (s.portFreed p).streams[i.stream].foreign p := by
  obtain ⟨others, -, kept, left⟩ := State.resetStreams_spec (s.streamsOf p) (s.discardRequests p)
  have of : i.isOf i.stream := by
    cases i
    · exact .inl rfl
    · exact .inr rfl
  rw [(s.portFreed_cursorsOnly p).waiting] at hi
  rw [(s.portFreed_cursorsOnly p).streams]
  obtain ⟨busy, owned⟩ := used i i.stream (kept i hi) of
  have other : i.stream ∉ s.streamsOf p := fun mem => left i.stream mem busy i hi of
  have same : (s.portStopped p).streams[i.stream] = s.streams[i.stream] := others i.stream other
  obtain ⟨q, own⟩ := Option.isSome_iff_exists.mp owned
  rw [same]
  exact .inl ⟨q, own, fun e => other (State.mem_streamsOf.mpr (by rw [own, e]))⟩

/-- With every member of the wait list a stream in use, the reset leaves nothing of the port but streams whose abort has
begun. -/
theorem State.portReset_leaves (used : ∀ (i : WaitItem) (x : StreamId), i ∈ s.waiting → i = .post x ∨ i = .notice x →
      s.streams[x].state ≠ .idle ∧ s.streams[x].owner.isSome = true) :
    let t := s.portReset p
    t.ports[p].outstanding = [] ∧ t.ports[p].unsent = [] ∧ (∀ e ∈ t.completions, e.port ≠ p)
      ∧ (∀ c : CursorId, t.cursors[c].isOpen = true → t.cursors[c].owner ≠ some p)
      ∧ ∀ x : StreamId, t.streams[x].owner = some p → t.streams[x].isStopped := by
  have spared : PortSpared p { s.portFreed p with completions := s.completions.filter (fun e => e.port ≠ p) }
      (s.portReset p) := by
    by_cases h : s.completionsOf p = []
    · rw [State.portReset_unposted h]
      refine ⟨rfl, rfl, fun _ _ => rfl, fun e he => .inr fun port => ?_⟩
      have mem : e ∈ s.completionsOf p :=
        List.mem_filter.mpr ⟨(s.portFreed_completions p) ▸ he, decide_eq_true port⟩
      rw [h] at mem
      cases mem
    · rw [State.portReset_posted h]
      exact State.serveAll_spared _ fun i hi => State.portFreed_waiting used hi
  obtain ⟨ports, cursors, streams, posts⟩ := spared
  intro t
  have port : t.ports = (s.portFreed p).ports := ports
  have cursor : t.cursors = (s.portFreed p).cursors := cursors
  rw [port, cursor]
  refine ⟨(s.portFreed_port p).1, (s.portFreed_port p).2, fun e he => ?_, fun c => State.portFreed_cursor, fun x own => ?_⟩
  · exact (posts e he).elim (fun he => of_decide_eq_true (List.mem_filter.mp he).2) id
  · have same : t.streams[x] = (s.portFreed p).streams[x] := streams x own
    rw [same] at own ⊢
    exact State.portFreed_stream own

theorem exec_completionWaitServed (on : s.powered = true) : exec .completionWaitServed s = .next s.serveWaitList := by
  refine congrArg Host.Outcome.next ?_
  rw [State.event, if_pos on]

end

end Sys2Proof.Machine

/-- Settles O57: each event by its own equation; a port reset leaves of the port only streams whose abort has begun, since
the wait list then serves streams of other ports alone. -/
theorem linksAndResets : Obligations.LinksAndResets := by
  unfold Obligations.LinksAndResets
  intro discarded
  refine ⟨fun s p => ?_, fun s p on up => ?_, fun s t p on up reset => ?_, fun s x st hst => ?_,
    fun s c => exec_cursorIdleExpiry_due, fun s p rest hq on unsent => ?_⟩
  · refine ⟨exec_linkEstablished, fun tag ha hr => ?_, fun on low => ?_, ?_, exec_resetInputAsserted, rfl, ?_, ?_⟩
    · rw [exec_moduleReset ha hr, State.takeReset_eq]
      rfl
    · rw [exec_resetInputReleased on low, State.takeReset_eq]
      rfl
    · rw [show exec .powerOn s = .next s.powerUp from rfl, State.powerUp, State.takeReset_eq]
      rfl
    · intro on starting high hp
      rw [exec_startupCleanup on starting high, State.cleanUp_eq hp]
      rfl
    · exact fun i f => State.removeFile_ingesting
  · refine ⟨s.portReset p, ?_, exec_linkReset on up, State.portReset_leaves⟩
    simp only
    split
    · next h => exact State.portReset_unposted h
    · next h =>
      rw [State.portReset_posted h]
      exact exec_completionWaitServed ((s.portFreed_powered p).trans on)
  · obtain rfl : s.portReset p = t := Host.Outcome.next.inj ((exec_linkReset on up).symm.trans reset)
    exact exec_linkLoss on up
  · subst hst
    refine ⟨State.resetStream_idle, State.resetStream_begun, State.resetStream_settled, fun busy unbegun unsettled => ?_⟩
    have begins : s.resetStream x = s.beginAbort x .portReset :=
      State.resetStream_abortable (Stream.abortable_of_unbegun busy unbegun unsettled)
    exact ⟨fun hc hv => begins.trans (State.beginAbort_afterClose _ hc hv),
      fun h => begins.trans (State.beginAbort_now _ h)⟩
  · refine ⟨fun b ho => ?_, fun b ho => ?_⟩
    · rw [step_answers hq on unsent ho]
      refine ⟨fun h => congrArg _ (State.runOn_file_refused h), fun hf hl => congrArg _ ?_⟩
      refine (State.runOn_file_created (s := { s with openings := rest }) (p := p) hf hl).trans ?_
      simp only [State.abortedNow, State.createOpened, State.setStream, getElem_set_fin, set_set_fin]
      rfl
    · rw [step_answers hq on unsent ho]
      refine ⟨fun h => congrArg _ (State.runOn_cursor_refused (.inl h)), fun i f hf hi => ⟨fun h => ?_, ?_⟩⟩
      · exact congrArg _ (State.runOn_cursor_refused (.inr ⟨i, f, hf, h⟩))
      · intro hs free unread idle
        obtain ⟨files, e, same⟩ := State.runOn_cursor_freed (s := { s with openings := rest }) (p := p) hf hi hs free
          unread idle
        exact ⟨files, congrArg _ e, same⟩

end

section
/-! PROOFS. The dual-sum, and the canonical form a trail entry's chain value is made of: O60. -/

open Sys2Proof Sys2Proof.Machine
namespace Sys2Proof.Machine

/-! ## The dual-sum (R52) -/

/-- Both accumulators are residues of the modulus. -/
def DualSum.InRange (d : DualSum) : Prop := d.a < Config.dualSumModulus ∧ d.b < Config.dualSumModulus

theorem DualSum.feed_inRange (d : DualSum) (b : Byte) : (d.feed b).InRange :=
  ⟨Nat.mod_lt _ (by decide), Nat.mod_lt _ (by decide)⟩

theorem DualSum.feedAll_inRange {d : DualSum} (h : d.InRange) (bytes : List Byte) : (d.feedAll bytes).InRange := by
  induction bytes generalizing d with
  | nil => exact h
  | cons b _ ih => exact ih (d.feed_inRange b)

theorem DualSum.InRange.value_le {d : DualSum} (h : d.InRange) : d.value ≤ 65520 * 65536 + 65520 := by
  obtain ⟨ha, hb⟩ := h
  simp only [Config.dualSumModulus] at ha hb
  simp only [DualSum.value]
  omega

theorem dualSumOf_le (bytes : List Byte) : dualSumOf bytes ≤ 65520 * 65536 + 65520 :=
  (DualSum.feedAll_inRange ⟨by decide, by decide⟩ bytes).value_le

/-! ## Numbers, most significant byte first -/

@[simp] theorem length_beBytes (width n : Nat) : (beBytes width n).length = width := by
  induction width with
  | zero => rfl
  | succ width ih => rw [beBytes, List.length_cons, ih]

/-- Byte `k` from the front has the weight of the `width - 1 - k` bytes behind it. -/
theorem beBytes_eq_map_range (width n : Nat) :
    beBytes width n = (List.range width).map (fun k => BitVec.ofNat 8 (n / 256 ^ (width - 1 - k))) := by
  induction width with
  | zero => rfl
  | succ width ih =>
    rw [beBytes, ih, List.range_succ_eq_map, List.map_cons, List.map_map]
    refine congrArg _ (List.map_congr_left fun k _ => ?_)
    simp only [Function.comp_apply, Nat.sub_add_eq, Nat.add_sub_cancel, Nat.succ_eq_add_one, Nat.sub_right_comm _ k]

/-! ## The canonical form (R127, 12.5) -/

theorem mul_toNat_eq_ite (weight : Nat) (b : Bool) : weight * b.toNat = if b = true then weight else 0 := by
  cases b
  · rfl
  · exact Nat.mul_one weight

/-- The bit of each reason, in the order of 12.1. -/
theorem DisputeReasons.code_eq (r : DisputeReasons) :
    r.code = (if r.count = true then 1 else 0) + (if r.duration = true then 2 else 0)
      + (if r.check = true then 4 else 0) + (if r.noTrailer = true then 8 else 0)
      + (if r.trailerBad = true then 16 else 0) + (if r.rejects = true then 32 else 0) := by
  simp only [DisputeReasons.code, ← mul_toNat_eq_ite, one_mul]

/-- The bit of each role, in the order of 12.1. -/
theorem RoleSet.code_eq (r : RoleSet) :
    r.code = (if r.ingest = true then 1 else 0) + (if r.retrieve = true then 2 else 0)
      + (if r.audit = true then 4 else 0) + (if r.admin = true then 8 else 0) := by
  simp only [RoleSet.code, ← mul_toNat_eq_ite, one_mul]

theorem trailPortByte_eq_elim (port : Option PortId) :
    trailPortByte port = port.elim 255 (fun p => BitVec.ofNat 8 p.val) := by
  cases port <;> rfl

theorem Subject.bytes_index (n : Nat) : (Subject.index n).bytes = beBytes 1 n ++ List.replicate 9 0 := by
  simp only [Subject.bytes, beBytes, pow_zero, Nat.div_one, List.cons_append, List.nil_append]

theorem Subject.bytes_roles (p : PortId) (r : RoleSet) :
    (Subject.roles p r).bytes = beBytes 1 p.val ++ [BitVec.ofNat 8 r.code] ++ List.replicate 8 0 := by
  simp only [Subject.bytes, beBytes, pow_zero, Nat.div_one, List.cons_append, List.nil_append]

@[simp] theorem Subject.length_bytes (subject : Subject) : subject.bytes.length = 10 := by
  cases subject <;> simp only [Subject.bytes, List.length_append, List.length_cons, List.length_nil,
    List.length_replicate, length_beBytes]

theorem TrailEntry.length_canonical (e : TrailEntry) : e.canonical.length = 24 := by
  simp only [TrailEntry.canonical, canonicalForm, List.length_append, List.length_cons, List.length_nil,
    length_beBytes, Subject.length_bytes]

end Sys2Proof.Machine

/-- Settles O60: the appended entry is the one the trail makes for the event, and each part of its canonical form is
respelled by that part's own equation. -/
theorem chainValueFollowsRule : Obligations.ChainValueFollowsRule := by
  unfold Obligations.ChainValueFollowsRule
  refine ⟨fun _ _ => rfl, fun bytes => (dualSumOf_le bytes).trans (by decide), ?_⟩
  intro t clock value kind port subject be code bit reasons roles
  have be_eq : ∀ width n, be width n = beBytes width n := fun width n => (beBytes_eq_map_range width n).symm
  have code_eq : BitVec.ofNat 8 kind.code = code kind := by cases kind <;> rfl
  have reasons_eq : ∀ r, reasons r = BitVec.ofNat 8 r.code := fun r => congrArg (BitVec.ofNat 8) r.code_eq.symm
  have roles_eq : ∀ r, roles r = BitVec.ofNat 8 r.code := fun r => congrArg (BitVec.ofNat 8) r.code_eq.symm
  refine ⟨t.entryFor clock kind port subject value, _, rfl, rfl, rfl, rfl, rfl, rfl, rfl, rfl, ?_,
    TrailEntry.length_canonical _, rfl⟩
  simp only [TrailEntry.canonical, Trail.entryFor, canonicalForm, be_eq, code_eq, reasons_eq, roles_eq,
    trailPortByte_eq_elim]
  cases subject with
  | file => rfl
  | index n => rw [Subject.bytes_index]
  | clock => rfl
  | roles p r => rw [Subject.bytes_roles]

end

section
/-! PROOFS. The operation the Store Port starts next: O44. -/

open Sys2Proof Sys2Proof.Machine
namespace Sys2Proof.Machine

/-! ## The next store operation (R87) -/

theorem State.startStore_write {s : State} {x : StreamId} {n : Nat} {rest : List (StreamId × Nat)}
    (free : s.storePort.current = none) (h : s.storePort.writes = (x, n) :: rest) :
    s.startStore = { s with
      storePort := { s.storePort with current := some (.write x n), writes := rest }
      encodings := s.encodings.set x
        { s.encodings[x] with image := s.encodings[x].image.map (fun i => { i with writing := true }) } } := by
  simp only [State.startStore, free, h]
  rfl

theorem State.startStore_read {s : State} {c : CursorId} {n : Nat} {rest : List (CursorId × Nat)}
    (free : s.storePort.current = none) (noWrite : s.storePort.writes = []) (h : s.storePort.reads = (c, n) :: rest) :
    s.startStore = { s with
      storePort := { s.storePort with current := some (.read c n true), reads := rest }
      cursors := s.cursors.set c
        { s.cursors[c] with read := s.cursors[c].read.map (fun r => { r with reading := true }) } } := by
  simp only [State.startStore, free, noWrite, h]
  rfl

theorem State.startStore_sweep {s : State} {n : Nat} (free : s.storePort.current = none)
    (noWrite : s.storePort.writes = []) (noRead : s.storePort.reads = []) (h : s.storePort.sweep = some n) :
    s.startStore = { s with storePort := { s.storePort with current := some (.sweep n), sweep := none } } := by
  simp only [State.startStore, free, noWrite, noRead, h]

theorem State.startStore_nothing {s : State} (noWrite : s.storePort.writes = []) (noRead : s.storePort.reads = [])
    (noSweep : s.storePort.sweep = none) : s.startStore = s := by
  cases h : s.storePort.current with
  | some op => exact State.startStore_busy (Option.isSome_of_eq_some h)
  | none => simp only [State.startStore, h, noWrite, noRead, noSweep]

end Sys2Proof.Machine

/-- Settles O44: the report frees the port, and the arbiter starts the first operation waiting in the order of R87. -/
theorem storeServesInOrder : Obligations.StoreServesInOrder := by
  intro s
  refine ⟨fun x n rest writes => ?_, fun c n rest noWrite reads => ?_, fun n noWrite noRead sweep => ?_,
    fun noWrite noRead noSweep => ?_⟩
  · exact State.startStore_write rfl writes
  · exact State.startStore_read rfl noWrite reads
  · exact State.startStore_sweep rfl noWrite noRead sweep
  · exact State.startStore_nothing noWrite noRead noSweep
end

section
/-! PROOFS. The head entry of the Staging Queue, and a record that joins its segment: O37. -/

open Sys2Proof Sys2Proof.Machine
namespace Sys2Proof.Machine

/-! ## The head entry (R71) -/

section
variable {s t : State} {x : StreamId} {r : CallRecord} {rest : List StagingEntry} {g : Filling} {v : Previous}

theorem State.takeHead_waiting {w : HeadWait} (hw : s.headWait = some w) (hs : s.staging = .record x r :: rest) :
    s.takeHead = if s.discardable x then s.leaveHead else s := by
  simp only [State.takeHead, hw, hs]

theorem State.discardable_eq_false (ha : s.streams[x].state ≠ .aborting) (hw : s.headWait ≠ some .abandoned) :
    s.discardable x = false := by
  rw [State.discardable, decide_eq_false ha, decide_eq_false hw]
  rfl

theorem State.discardable_iff :
    s.discardable x = true ↔ s.streams[x].state = .aborting ∨ s.headWait = some .abandoned := by
  simp [State.discardable]

/-- A record of an aborted stream leaves whether or not it waits. -/
theorem State.takeHead_discards (hs : s.staging = .record x r :: rest) (h : s.discardable x = true) :
    s.takeHead = s.leaveHead := by
  cases hw : s.headWait with
  | none => simp only [State.takeHead, hw, State.dealHead, hs, h, if_true]
  | some w => rw [State.takeHead_waiting hw hs, if_pos h]

theorem State.leaveHead_eq {e : StagingEntry} (hs : s.staging = e :: rest) :
    s.leaveHead = { s with staging := rest, headWait := none } := by
  simp only [State.leaveHead, hs, List.tail_cons]

theorem State.dealHead_record (hs : s.staging = .record x r :: rest) (ha : s.streams[x].state ≠ .aborting)
    (hw : s.headWait ≠ some .abandoned) :
    s.dealHead = if s.encodings[x].chainFull then s.discardCounted x r else s.placeRecord x r := by
  simp only [State.dealHead, hs, State.discardable_eq_false ha hw, Bool.false_eq_true, if_false]

/-! ## The fill test and the finish of a segment (R82, R84) -/

/-- For a segment that holds records the fill test is its two limits. -/
theorem Encoding.fits_iff {c : Encoding} (hv : c.previous = some v) (held : 1 ≤ c.recordCount) :
    c.fits r = true ↔ c.recordCount < 32768 ∧ c.payload.length + (encodeRecord v r).length ≤ 1048512 := by
  have some_held : c.recordCount ≠ 0 := by omega
  simp [Encoding.fits, hv, some_held, Config.segmentRecordLimit, Config.payloadLimit]

/-- The encoding context after one more record in a segment that holds some. -/
theorem Encoding.append_eq {c : Encoding} (hv : c.previous = some v) (held : 1 ≤ c.recordCount) :
    c.append r = { c with
      payload := c.payload ++ encodeRecord v r
      dualSum := c.dualSum.feedAll (encodeRecord v r)
      recordCount := c.recordCount + 1
      durationSum := c.durationSum + r.duration
      previous := some { start := r.start, calling := r.calling, called := r.called } } := by
  have some_held : c.recordCount ≠ 0 := by omega
  simp only [Encoding.append, hv, Option.getD_some, some_held, if_false]
  rfl

theorem State.placeRecord_fits (hg : s.encodings[x].filling = some g) (hf : s.encodings[x].fits r = true) :
    s.placeRecord x r = (s.updateEncoding x (·.append r)).leaveHead := by
  simp only [State.placeRecord, hg, hf, Option.isSome_some, and_self, if_true]

theorem State.placeRecord_waits (full : s.encodings[x].fits r ≠ true) (h : s.finishSegment x = none) :
    s.placeRecord x r = { s with headWait := some .image } := by
  simp only [State.placeRecord, full, h, Bool.false_eq_true, and_false, if_false]

theorem State.placeRecord_finishes (full : s.encodings[x].fits r ≠ true) (h : s.finishSegment x = some t) :
    s.placeRecord x r = t.placeFirst x r := by
  simp only [State.placeRecord, full, h, Bool.false_eq_true, and_false, if_false]

end

end Sys2Proof.Machine

/-- Settles O37: the case split of R71 on the head's wait, and, with room, the one append of R72. -/
theorem recordJoinsFillingSegment : Obligations.RecordJoinsFillingSegment := by
  intro s x r rest g v on hs
  have looks : exec .encoderTakeHead s = .next s.takeHead := by
    rw [show exec .encoderTakeHead s = .next (s.event State.takeHead) from rfl, State.event, if_pos on]
  refine ⟨fun hw ha hc hg hv few room held => ?_, fun stopped => ?_, fun waits ha => ?_, fun hw ha hc => ?_⟩
  · have fits := (Encoding.fits_iff (r := r) hv held).mpr ⟨few, room⟩
    rw [exec_encoderTakeHead on hw, State.dealHead_record hs ha (by simp [hw]), hc, if_neg Bool.false_ne_true,
      State.placeRecord_fits hg fits, State.leaveHead_eq (by exact hs), State.updateEncoding,
      Encoding.append_eq hv held, ← hw]
    rfl
  · rw [looks, State.takeHead_discards hs (State.discardable_iff.mpr stopped), State.leaveHead_eq hs]
  · have stays : s.discardable x = false :=
      State.discardable_eq_false ha (by rcases waits with hw | hw <;> simp [hw])
    rw [looks]
    rcases waits with hw | hw <;> rw [State.takeHead_waiting hw hs, stays, if_neg Bool.false_ne_true]
  · rw [exec_encoderTakeHead on hw, State.dealHead_record hs ha (by simp [hw]), if_pos hc, State.discardCounted,
      State.leaveHead_eq (by exact hs), State.updateEncoding, ← hw, ← hc]
    rfl
end

section
/-! PROOFS. The finish of a segment into its write image: O40. -/

open Sys2Proof Sys2Proof.Machine
namespace Sys2Proof.Machine

/-! ## A finished segment (R84) -/

/-- The write image of a stream's filling segment. -/
def State.segmentImage (s : State) (x : StreamId) (g : Filling) (writing : Bool) : WriteImage :=
  { segment := g.segment, allocation := g.allocation
    header := Header.bytes
      { segment := g.segment, allocation := g.allocation, ordinal := g.ordinal
        fileIndex := s.streams[x].fileIndex.getD 0, switchId := s.streams[x].switchId.getD 0
        sequence := s.streams[x].sequence.getD 0, figures := s.encodings[x].figures }
    payload := s.encodings[x].payload, figures := s.encodings[x].figures, writing }

/-- The encoding context once its segment has moved into the write image. -/
def Encoding.imaged (c : Encoding) (image : WriteImage) : Encoding :=
  { c with
    filling := none, previous := none, recordCount := 0, durationSum := 0, dualSum := {}, baseTime := 0
    payload := [], image := some image }

/-- A finished segment whose write waits behind the operation in progress. -/
def State.finishedWaiting (s : State) (x : StreamId) (g : Filling) : State :=
  { s with
    encodings := s.encodings.set x (s.encodings[x].imaged (s.segmentImage x g false))
    storePort := { s.storePort with writes := s.storePort.writes ++ [(x, g.segment)] } }

/-- A finished segment whose write starts at once. -/
def State.finishedWriting (s : State) (x : StreamId) (g : Filling) : State :=
  { s with
    encodings := s.encodings.set x (s.encodings[x].imaged (s.segmentImage x g true))
    storePort := { s.storePort with current := some (.write x g.segment) } }

section
variable {s t : State} {x : StreamId} {r : CallRecord} {rest : List StagingEntry} {g : Filling}

theorem State.finishSegment_held (hg : s.encodings[x].filling = some g) (held : s.encodings[x].image.isSome = true) :
    s.finishSegment x = none := by
  obtain ⟨image, hi⟩ := Option.isSome_iff_exists.mp held
  simp only [State.finishSegment, hg, hi]

theorem State.finishSegment_free (hg : s.encodings[x].filling = some g) (hi : s.encodings[x].image = none) :
    s.finishSegment x
      = some ((s.setEncoding x (s.encodings[x].imaged (s.segmentImage x g false))).askWrite x g.segment) := by
  simp only [State.finishSegment, hg, hi]
  rfl

theorem State.finishSegment_waiting (hg : s.encodings[x].filling = some g) (hi : s.encodings[x].image = none)
    (busy : s.storePort.current.isSome = true) : s.finishSegment x = some (s.finishedWaiting x g) := by
  rw [State.finishSegment_free hg hi]
  exact congrArg some (State.startStore_busy (by exact busy))

theorem State.finishSegment_writing (hg : s.encodings[x].filling = some g) (hi : s.encodings[x].image = none)
    (idle : s.storePort.current = none ∧ s.storePort.writes = []) :
    s.finishSegment x = some (s.finishedWriting x g) := by
  obtain ⟨free, empty⟩ := idle
  have queued :
      (s.setEncoding x (s.encodings[x].imaged (s.segmentImage x g false))).storePort.writes ++ [(x, g.segment)]
      = (x, g.segment) :: [] := by
    rw [State.setEncoding_storePort, empty]
    rfl
  rw [State.finishSegment_free hg hi, State.askWrite, State.startStore_write (by exact free) (by exact queued),
    ← empty]
  simp only [State.setEncoding_encodings, getElem_set_fin, set_set_fin]
  rfl

/-! ## The marker and the record that finish a segment (R72, R76) -/

theorem State.takeCloseMarker_none (hg : s.encodings[x].filling = none) (hs : s.staging = .close x :: rest) :
    s.takeCloseMarker x
      = { s with
          staging := rest, headWait := none
          encodings := s.encodings.set x { s.encodings[x] with closePending := true } } := by
  rw [State.takeCloseMarker, if_pos (Option.isNone_iff_eq_none.mpr hg), State.leaveHead_eq (by exact hs)]
  rfl

theorem State.takeCloseMarker_waits (hg : s.encodings[x].filling = some g) (h : s.finishSegment x = none) :
    s.takeCloseMarker x = { s with headWait := some .image } := by
  simp only [State.takeCloseMarker, hg, h, Option.isNone_some, Bool.false_eq_true, if_false]

theorem State.takeCloseMarker_finishes (hg : s.encodings[x].filling = some g) (h : s.finishSegment x = some t)
    (hs : t.staging = .close x :: rest) :
    s.takeCloseMarker x
      = { t with
          staging := rest, headWait := none
          encodings := t.encodings.set x { t.encodings[x] with closePending := true } } := by
  simp only [State.takeCloseMarker, hg, h, Option.isNone_some, Bool.false_eq_true, if_false]
  rw [State.leaveHead_eq (by exact hs)]
  rfl

theorem State.dealHead_close (hs : s.staging = .close x :: rest) : s.dealHead = s.takeCloseMarker x := by
  simp only [State.dealHead, hs]

/-- The end of an image wait deals with the head as a first look does (4.3). -/
theorem exec_imageWaitEnd (on : s.powered = true) (hw : s.headWait = some .image) (hh : s.headStream = some x)
    (free : s.encodings[x].image = none) : exec .imageWaitEnd s = .next s.dealHead := by
  rw [show exec .imageWaitEnd s = .next (s.event State.endImageWait) from rfl, State.event, if_pos on]
  simp only [State.endImageWait, hw, hh, free, Option.isNone_none, if_true]

/-! ## Placing a first record reads no image wait -/

/-- An allocation, its state with another head wait. -/
def Allocation.withHeadWait (w : Option HeadWait) : Allocation → Allocation
  | .done g s => .done g { s with headWait := w }
  | a => a

theorem State.allocate_withHeadWait (s : State) (w : Option HeadWait) (i : Nat) :
    ({ s with headWait := w } : State).allocate i = (s.allocate i).withHeadWait w := by
  unfold State.allocate
  rw [show ({ s with headWait := w } : State).file i = s.file i from rfl]
  cases s.file i with
  | none => rfl
  | some f =>
    simp only
    split
    · rfl
    cases Runs.pop s.freeList with
    | none => rfl
    | some head =>
      obtain ⟨n, rest⟩ := head
      simp only
      split
      · rfl
      · cases f.lastSegment <;> rfl

theorem State.placeFirst_unwaited (hw : s.headWait ≠ some .storeFull) :
    ({ s with headWait := none } : State).placeFirst x r = s.placeFirst x r := by
  unfold State.placeFirst
  rw [State.allocate_withHeadWait]
  cases s.allocate (s.streams[x].fileIndex.getD 0) with
  | stale => rfl
  | empty => simp only [Allocation.withHeadWait, State.waitStoreFull, hw, reduceCtorEq, if_false]
  | chainFull => rfl
  | done g t => simp only [Allocation.withHeadWait, State.endEpisode_eq]; rfl

/-- A record without room finishes the segment and is placed as the first record of a new one (R72). -/
theorem State.dealHead_finishes (hs : s.staging = .record x r :: rest) (ha : s.streams[x].state ≠ .aborting)
    (hc : s.encodings[x].chainFull = false) (full : s.encodings[x].fits r ≠ true)
    (wait : s.headWait = none ∨ s.headWait = some .image)
    (h : s.finishSegment x = some { t with headWait := s.headWait }) (look : t.headWait = none) :
    s.dealHead = t.placeFirst x r := by
  have kept : s.headWait ≠ some .abandoned ∧ s.headWait ≠ some .storeFull := by
    rcases wait with hw | hw <;> simp [hw]
  rw [State.dealHead_record hs ha kept.1, hc, if_neg Bool.false_ne_true, State.placeRecord_finishes full h,
    ← State.placeFirst_unwaited (by exact kept.2), ← look]

end

end Sys2Proof.Machine

/-- Settles O40: the segment's finish is one lemma for a busy and one for an idle store; a marker then leaves, and a
record without room is placed as a first one, which reads no image wait. -/
theorem closeMarkerFinishesSegment : Obligations.CloseMarkerFinishesSegment := by
  refine ⟨fun s x rest on hg hs hw => ?_, fun s x g i w q on hg hi hw hq => ?_⟩
  · rw [exec_encoderTakeHead on hw, State.dealHead_close hs, State.takeCloseMarker_none hg hs, ← hw]
  intro figures header finished busy idle storeIdle
  have waiting : s.finishedWaiting x g = { busy false s.staging with headWait := s.headWait } := by
    simp only [State.finishedWaiting, State.segmentImage, hi, hw, hq]
    rfl
  have writing : s.finishedWriting x g = { idle false s.staging with headWait := s.headWait } := by
    simp only [State.finishedWriting, State.segmentImage, hi, hw, hq]
    rfl
  refine ⟨fun rest hs => ?_, fun r rest v hs ha hc hv held full => ?_⟩
  · have waits (free : s.encodings[x].image = none) (op : s.storePort.current.isSome = true) :
        s.dealHead = busy true rest := by
      rw [State.dealHead_close hs, State.takeCloseMarker_finishes hg
        ((State.finishSegment_waiting hg free op).trans (congrArg some waiting)) (by exact hs)]
      simp only [busy, getElem_set_fin, set_set_fin]
      rfl
    have starts (free : s.encodings[x].image = none) (still : storeIdle) : s.dealHead = idle true rest := by
      rw [State.dealHead_close hs, State.takeCloseMarker_finishes hg
        ((State.finishSegment_writing hg free still).trans (congrArg some writing)) (by exact hs)]
      simp only [idle, getElem_set_fin, set_set_fin]
      rfl
    have head : s.headStream = some x := by simp only [State.headStream, hs]
    refine ⟨fun free look => ⟨fun op => ?_, fun still => ?_⟩, fun free wait => ⟨fun op => ?_, fun still => ?_⟩,
      fun image look => ?_⟩
    · rw [exec_encoderTakeHead on look, waits free op]
    · rw [exec_encoderTakeHead on look, starts free still]
    · rw [exec_imageWaitEnd on wait head free, waits free op]
    · rw [exec_imageWaitEnd on wait head free, starts free still]
    · rw [exec_encoderTakeHead on look, State.dealHead_close hs,
        State.takeCloseMarker_waits hg (State.finishSegment_held hg image)]
  · have noRoom : s.encodings[x].fits r ≠ true := fun fits => by
      obtain ⟨few, room⟩ := (Encoding.fits_iff hv held).mp fits
      omega
    have busyLooks : exec .encoderTakeHead (busy false s.staging) = .next ((busy false s.staging).placeFirst x r) := by
      rw [exec_encoderTakeHead (by exact on) (by exact rfl), State.dealHead_first (by exact hs) (by exact ha)
        (by simp [busy]) (by simpa [busy, finished] using hc) (by simp [busy, finished])]
    have idleLooks : exec .encoderTakeHead (idle false s.staging) = .next ((idle false s.staging).placeFirst x r) := by
      rw [exec_encoderTakeHead (by exact on) (by exact rfl), State.dealHead_first (by exact hs) (by exact ha)
        (by simp [idle]) (by simpa [idle, finished] using hc) (by simp [idle, finished])]
    have waits (free : s.encodings[x].image = none) (wait : s.headWait = none ∨ s.headWait = some .image)
        (op : s.storePort.current.isSome = true) :
        .next s.dealHead = exec .encoderTakeHead (busy false s.staging) := by
      rw [busyLooks, State.dealHead_finishes hs ha hc noRoom wait
        ((State.finishSegment_waiting hg free op).trans (congrArg some waiting)) (by exact rfl)]
    have starts (free : s.encodings[x].image = none) (wait : s.headWait = none ∨ s.headWait = some .image)
        (still : storeIdle) : .next s.dealHead = exec .encoderTakeHead (idle false s.staging) := by
      rw [idleLooks, State.dealHead_finishes hs ha hc noRoom wait
        ((State.finishSegment_writing hg free still).trans (congrArg some writing)) (by exact rfl)]
    have head : s.headStream = some x := by simp only [State.headStream, hs]
    refine ⟨fun free look => ⟨fun op => ?_, fun still => ?_⟩, fun free wait => ⟨fun op => ?_, fun still => ?_⟩,
      fun image look => ?_⟩
    · rw [exec_encoderTakeHead on look, waits free (.inl look) op]
    · rw [exec_encoderTakeHead on look, starts free (.inl look) still]
    · rw [exec_imageWaitEnd on wait head free, waits free (.inr wait) op]
    · rw [exec_imageWaitEnd on wait head free, starts free (.inr wait) still]
    · rw [exec_encoderTakeHead on look, State.dealHead_record hs ha (by simp [look]), hc, if_neg Bool.false_ne_true,
        State.placeRecord_waits noRoom (State.finishSegment_held hg image)]
end

section
/-! PROOFS. The record encoding and its decoding: O14. -/

open Sys2Proof Sys2Proof.Machine
namespace Sys2Proof.Machine

/-! ## Start deltas and varints (R78, R79) -/

theorem unzigzag_zigzag (d : Int) : unzigzag (zigzag d) = d := by
  unfold unzigzag zigzag
  split <;> split <;> simp only [Int.ofNat_eq_natCast] <;> omega

/-- The delta of two times of the clock takes at most five groups of seven bits. -/
theorem zigzag_delta_lt {a b : Nat} (ha : a ≤ 4294943999) (hb : b ≤ 4294943999) :
    zigzag (Int.ofNat a - Int.ofNat b) < 128 ^ 5 := by
  simp only [zigzag, Int.ofNat_eq_natCast]
  split <;> omega

theorem decodeVarint_varint {n v : Nat} (h : v < 128 ^ (n + 1)) (rest : List Byte) :
    decodeVarint (n + 1) (varint n v ++ rest) = some (v, rest) := by
  have small {n v : Nat} (hv : v < 128) : decodeVarint (n + 1) (BitVec.ofNat 8 v :: rest) = some (v, rest) := by
    have byte : (BitVec.ofNat 8 v).toNat = v := by simp; omega
    simp only [decodeVarint, byte, hv, if_true]
  induction n generalizing v with
  | zero => exact small (by simpa using h)
  | succ n ih =>
    unfold varint
    split
    · next hv => exact small hv
    · next hv =>
      have byte : (BitVec.ofNat 8 (v % 128 + 128)).toNat = v % 128 + 128 := by simp; omega
      have fewer : v / 128 < 128 ^ (n + 1) := Nat.div_lt_of_lt_mul (by rw [Nat.pow_succ] at h; omega)
      have more : ¬v % 128 + 128 < 128 := by omega
      rw [List.cons_append, decodeVarint, byte, if_neg more, ih fewer]
      have whole : v % 128 + 128 - 128 + 128 * (v / 128) = v := by omega
      simp only [whole]

theorem decodeVarint_varintBytes {v : Nat} (h : v < 128 ^ 5) (rest : List Byte) :
    decodeVarint 5 (varintBytes v ++ rest) = some (v, rest) := decodeVarint_varint h rest

theorem decodeStart_zigzag {start : Nat} (h : start ≤ 4294943999) (previous : Nat) :
    decodeStart previous (zigzag (Int.ofNat start - Int.ofNat previous)) = some start := by
  have sum : Int.ofNat previous + (Int.ofNat start - Int.ofNat previous) = Int.ofNat start := by omega
  have inRange : 0 ≤ Int.ofNat start ∧ Int.ofNat start ≤ Int.ofNat Config.clockLimit := by
    simp only [Config.clockLimit, Int.ofNat_eq_natCast]
    omega
  simp only [decodeStart, unzigzag_zigzag, sum, inRange, and_self, if_true]
  rfl

/-! ## Calling and called numbers (R80) -/

/-- The digits two numbers share stand at the front of both. -/
theorem take_sharedDigits (previous number : List Nat) :
    previous.take (sharedDigits previous number) = number.take (sharedDigits previous number) := by
  induction previous generalizing number with
  | nil => simp [sharedDigits]
  | cons a as ih =>
    cases number with
    | nil => simp [sharedDigits]
    | cons b bs =>
      unfold sharedDigits
      split
      · next h => simp [h, ih bs]
      · simp

theorem sharedDigits_le (previous number : List Nat) :
    sharedDigits previous number ≤ previous.length ∧ sharedDigits previous number ≤ number.length := by
  induction previous generalizing number with
  | nil => simp [sharedDigits]
  | cons a as ih =>
    cases number with
    | nil => simp [sharedDigits]
    | cons b bs =>
      obtain ⟨h1, h2⟩ := ih bs
      unfold sharedDigits
      split <;> simp only [List.length_cons] <;> omega

theorem unpackDigits_packDigits {ds : List Nat} (h : ∀ d ∈ ds, d ≤ 9) (rest : List Byte) :
    unpackDigits ds.length (packDigits ds ++ rest) = some (ds, rest) := by
  have packed {d e : Nat} (hd : d ≤ 9) (he : e ≤ 15) :
      (BitVec.ofNat 8 (d * 16 + e)).toNat / 16 = d ∧ (BitVec.ofNat 8 (d * 16 + e)).toNat % 16 = e := by
    simp only [BitVec.toNat_ofNat]
    omega
  induction ds using packDigits.induct with
  | case1 => rfl
  | case2 d =>
    have hd : d ≤ 9 := h d (by simp)
    obtain ⟨first, second⟩ := packed (e := 15) hd (by omega)
    simp only [packDigits, List.cons_append, List.nil_append, List.length_singleton, unpackDigits, first, second, hd,
      or_true, and_self, if_true]
  | case3 d e ds ih =>
    have hd : d ≤ 9 := h d (by simp)
    have he : e ≤ 9 := h e (by simp)
    obtain ⟨first, second⟩ := packed hd (e := e) (by omega)
    have tail := ih fun x hx => h x (by simp [hx])
    simp only [packDigits, List.cons_append, List.length_cons, unpackDigits, first, second, hd, he, and_self, if_true,
      tail]

theorem decodeNumber_encodeNumber {number : List Nat} {low high : Nat} (digits : ∀ d ∈ number, d ≤ 9)
    (hl : low ≤ number.length) (hh : number.length ≤ high) (short : high ≤ 255) (previous : List Nat)
    (rest : List Byte) :
    decodeNumber previous low high (encodeNumber previous number ++ rest) = some (number, rest) := by
  obtain ⟨inPrevious, inNumber⟩ := sharedDigits_le previous number
  have shared := take_sharedDigits previous number
  unfold encodeNumber
  generalize sharedDigits previous number = p at *
  have countByte {n : Nat} (hn : n ≤ number.length) : (BitVec.ofNat 8 n).toNat = n := by simp; omega
  have whole : p + (number.drop p).length = number.length := by rw [List.length_drop]; omega
  have lengthByte : (BitVec.ofNat 8 (number.drop p).length).toNat = (number.drop p).length := countByte (by omega)
  have unpacked := unpackDigits_packDigits (fun d hd => digits d (List.mem_of_mem_drop hd)) (ds := number.drop p) rest
  simp only [oneByte, List.cons_append, List.nil_append, decodeNumber, countByte inNumber, lengthByte, unpacked,
    inPrevious, whole, hl, hh, and_self, if_true, shared, List.take_append_drop]

/-! ## The optional fields and the lead byte (R78, R81) -/

theorem decodeTrunk_encodeTrunk {trunk : Option Nat} (h : ∀ t ∈ trunk, t ≤ 65535) (rest : List Byte) :
    decodeTrunk trunk.isSome (encodeTrunk trunk ++ rest) = some (trunk, rest) := by
  cases trunk with
  | none => rfl
  | some t =>
    have inRange : t ≤ 65535 := h t rfl
    have decoded := decodeVarint_varintBytes (v := t) (by omega) rest
    simp only [decodeTrunk, encodeTrunk, Option.isSome_some, decoded, inRange, if_true]

/-- The cause of a record as it is encoded. -/
def encodeCause : Option Nat → List Byte
  | some c => oneByte c
  | none => []

theorem decodeCause_encodeCause {cause : Option Nat} (h : ∀ c ∈ cause, c ≤ 255) (rest : List Byte) :
    decodeCause cause.isSome (encodeCause cause ++ rest) = some (cause, rest) := by
  cases cause with
  | none => cases rest <;> rfl
  | some c =>
    have byte : (BitVec.ofNat 8 c).toNat = c := by
      have := h c rfl
      simp
      omega
    simp only [encodeCause, oneByte, List.cons_append, List.nil_append, decodeCause, Option.isSome_some, if_true, byte]

theorem getLsbD_ofNat_eq {n k : Nat} {b : Bool} (hk : k < 8) (h : n / 2 ^ k % 2 = b.toNat) :
    (BitVec.ofNat 8 n).getLsbD k = b := by
  rw [BitVec.getLsbD_ofNat, Nat.testBit_eq_decide_div_mod_eq, h]
  cases b <;> simp [hk]

/-- The lead byte's flags and service, each at its place. -/
theorem leadByte_fields {r : CallRecord} (h : r.service ≤ 15) :
    (BitVec.ofNat 8 (leadByte r)).getLsbD 0 = r.trunkIn.isSome
      ∧ (BitVec.ofNat 8 (leadByte r)).getLsbD 1 = r.trunkOut.isSome
      ∧ (BitVec.ofNat 8 (leadByte r)).getLsbD 2 = r.cause.isSome
      ∧ (BitVec.ofNat 8 (leadByte r)).getLsbD 3 = r.clamped
      ∧ (BitVec.ofNat 8 (leadByte r)).toNat / 16 = r.service := by
  unfold leadByte
  have hasIn := r.trunkIn.isSome.toNat_le
  have hasOut := r.trunkOut.isSome.toNat_le
  have hasCause := r.cause.isSome.toNat_le
  have clamped := r.clamped.toNat_le
  refine ⟨getLsbD_ofNat_eq (by decide) (by omega), getLsbD_ofNat_eq (by decide) (by omega),
    getLsbD_ofNat_eq (by decide) (by omega), getLsbD_ofNat_eq (by decide) (by omega), ?_⟩
  rw [BitVec.toNat_ofNat]
  omega

/-! ## Records and payloads (R82, R83) -/

/-- The ranges of a normalised record's fields. -/
structure CallRecord.InRange (r : CallRecord) : Prop where
  start : r.start ≤ 4294943999
  duration : r.duration ≤ 99999999
  callingLength : r.calling.length ≤ 20
  callingDigits : ∀ d ∈ r.calling, d ≤ 9
  calledNonempty : 1 ≤ r.called.length
  calledLength : r.called.length ≤ 24
  calledDigits : ∀ d ∈ r.called, d ≤ 9
  trunkIn : ∀ t ∈ r.trunkIn, t ≤ 65535
  trunkOut : ∀ t ∈ r.trunkOut, t ≤ 65535
  cause : ∀ c ∈ r.cause, c ≤ 255
  service : r.service ≤ 15

theorem encodeRecord_eq (previous : Previous) (r : CallRecord) :
    encodeRecord previous r
      = BitVec.ofNat 8 (leadByte r) :: (varintBytes (zigzag (Int.ofNat r.start - Int.ofNat previous.start))
        ++ (varintBytes r.duration ++ (encodeNumber previous.calling r.calling ++ (encodeNumber previous.called r.called
        ++ (encodeTrunk r.trunkIn ++ (encodeTrunk r.trunkOut ++ encodeCause r.cause)))))) := by
  simp only [encodeRecord, oneByte, List.append_assoc, List.cons_append, List.nil_append]
  cases r.cause <;> rfl

theorem decodeRecord_encodeRecord {r : CallRecord} (h : r.InRange) {previous : Previous}
    (hp : previous.start ≤ 4294943999) (rest : List Byte) :
    decodeRecord previous (encodeRecord previous r ++ rest) = some (r, rest) := by
  obtain ⟨hasIn, hasOut, hasCause, clamped, service⟩ := leadByte_fields h.service
  have duration : upTo Config.recordDurationLimit r.duration = some r.duration := if_pos h.duration
  have durationBytes : r.duration < 128 ^ 5 := by have := h.duration; omega
  rw [encodeRecord_eq]
  simp only [decodeRecord, List.cons_append, List.append_assoc, List.head?_cons, List.tail_cons,
    Option.bind_eq_bind, Option.bind_some,
    decodeVarint_varintBytes (zigzag_delta_lt h.start hp), decodeStart_zigzag h.start,
    decodeVarint_varintBytes durationBytes, duration,
    decodeNumber_encodeNumber h.callingDigits (Nat.zero_le _) h.callingLength (by omega),
    decodeNumber_encodeNumber h.calledDigits h.calledNonempty h.calledLength (by omega),
    hasIn, hasOut, hasCause, clamped, service, decodeTrunk_encodeTrunk h.trunkIn, decodeTrunk_encodeTrunk h.trunkOut,
    decodeCause_encodeCause h.cause]

theorem length_le_encodeRecords (previous : Previous) (rs : List CallRecord) :
    rs.length ≤ (encodeRecords previous rs).length := by
  induction rs generalizing previous with
  | nil => exact Nat.zero_le _
  | cons r rs ih =>
    have := ih r.asPrevious
    simp only [encodeRecords, encodeRecord_eq, List.length_cons, List.length_append]
    omega

theorem decodeRecords_encodeRecords {rs : List CallRecord} (h : ∀ r ∈ rs, r.InRange) {previous : Previous}
    (hp : previous.start ≤ 4294943999) {n : Nat} (hn : rs.length ≤ n) :
    decodeRecords n previous (encodeRecords previous rs) = some rs := by
  induction rs generalizing previous n with
  | nil => cases n <;> rfl
  | cons r rs ih =>
    obtain ⟨n, rfl⟩ : ∃ m, n = m + 1 := ⟨n - 1, by simp only [List.length_cons] at hn; omega⟩
    have head := h r (by simp)
    have tail := ih (fun q hq => h q (by simp [hq])) (previous := r.asPrevious) head.start (n := n) (by simpa using hn)
    have first := decodeRecord_encodeRecord head hp (encodeRecords r.asPrevious rs)
    obtain ⟨b, bytes, bytes_eq⟩ : ∃ b bytes, encodeRecord previous r ++ encodeRecords r.asPrevious rs = b :: bytes := by
      rw [encodeRecord_eq]
      exact ⟨_, _, rfl⟩
    rw [bytes_eq] at first
    simp only [encodeRecords, bytes_eq, decodeRecords, first, tail]

end Sys2Proof.Machine

/-- Settles O14, by induction on the records: each decodes from the front of the payload against the one before it. -/
theorem payloadDecodesToItsRecords : Obligations.PayloadDecodesToItsRecords := by
  intro rs g ranges count base
  have inRange (r) (hr : r ∈ rs) : r.InRange := by
    obtain ⟨h1, h2, h3, h4, h5, h6, h7, h8, h9, h10, h11⟩ := ranges r hr
    exact ⟨h1, h2, h3, h4, h5, h6, h7, h8, h9, h10, h11⟩
  cases rs with
  | nil => simp [decodePayload, encodeRecords, decodeRecords, count]
  | cons r rs =>
    have based : (firstPrevious g.baseTime).start ≤ 4294943999 := by
      rw [base r rfl]
      exact (inRange r (by simp)).start
    have decoded := decodeRecords_encodeRecords inRange based
      (length_le_encodeRecords (firstPrevious g.baseTime) (r :: rs))
    simp only [decodePayload, decoded, count, if_true]
end

section
/-! PROOFS. No operation but the ends of a store write touches the queue or the segment store. -/

open Sys2Proof Sys2Proof.Machine
namespace Sys2Proof.Machine

/-! ## What is untouched

Every branch of an operation is made of operations that leave the queue and the store alone. So each lemma below splits
an operation into its branches, and `simp` follows each branch through its operations by their own lemmas. -/

/-- From `s` to `t` neither the queue nor the segment store changes. -/
@[simp] abbrev Untouched (s t : State) : Prop := t.pending = s.pending ∧ t.store = s.store

theorem Untouched.trans {s t u : State} (h : Untouched s t) (k : Untouched t u) : Untouched s u :=
  ⟨k.1.trans h.1, k.2.trans h.2⟩

/-- An operation that answers its state with something else. -/
theorem Untouched.of_fst {α : Type} {s t : State} {a : α} {r : State × α} (h : Untouched s r.1) (e : r = (t, a)) :
    Untouched s t := by
  subst e
  exact h

theorem Untouched.of_snd {α : Type} {s t : State} {a : α} {r : α × State} (h : Untouched s r.2) (e : r = (a, t)) :
    Untouched s t := by
  subst e
  exact h

theorem Untouched.foldl {α : Type} {f : State → α → State} (h : ∀ s a, Untouched s (f s a)) (l : List α) (s : State) :
    Untouched s (l.foldl f s) := by
  induction l generalizing s with
  | nil => exact ⟨rfl, rfl⟩
  | cons a l ih => exact (h s a).trans (ih _)

theorem Catalogued.untouched {s t : State} (h : Catalogued s t) : Untouched s t := by
  obtain ⟨_, _, _, _, rfl⟩ := h
  exact ⟨rfl, rfl⟩

theorem CatalogueOnly.untouched {s t : State} (h : CatalogueOnly s t) : Untouched s t := by
  rw [h.eq]
  exact ⟨rfl, rfl⟩

theorem StreamsOnly.untouched {s t : State} (h : StreamsOnly s t) : Untouched s t := by
  rw [h.eq]
  exact ⟨rfl, rfl⟩

theorem CursorsOnly.untouched {s t : State} (h : CursorsOnly s t) : Untouched s t := by
  rw [h.eq]
  exact ⟨rfl, rfl⟩

/-! ## The catalogue

A request that may be STALE stands here with the state that is kept if it is. -/

section
variable (s : State) (i n a : Nat) (g : Figures) (b : Bool)

@[simp] theorem State.acceptFile_untouched (r k d c : Nat) (reasons : DisputeReasons) (trailer : Option Trailer) :
    Untouched s ((s.acceptFile i r k d reasons trailer c).getD s) :=
  (Catalogued.getD fun _ h => State.acceptFile_catalogued h).untouched

@[simp] theorem State.removeFile_untouched : Untouched s ((s.removeFile i).getD s) :=
  (Catalogued.getD fun _ h => State.removeFile_catalogued h).untouched

@[simp] theorem State.finishStored_untouched : Untouched s ((s.finishStored n g).getD s) :=
  (Catalogued.getD fun _ h => State.finishStored_catalogued h).untouched

@[simp] theorem State.finishFailed_untouched : Untouched s ((s.finishFailed n g b).getD s) :=
  (Catalogued.getD fun _ h => State.finishFailed_catalogued h).untouched

@[simp] theorem State.markSuspect_untouched : Untouched s ((s.markSuspect n a i b).getD s) :=
  (Catalogued.getD fun _ h => State.markSuspect_catalogued h).untouched

@[simp] theorem State.returnStored_untouched : Untouched s ((s.returnStored n a i).getD s) :=
  (Catalogued.getD fun _ h => State.returnStored_catalogued h).untouched

@[simp] theorem State.clearUnreported_untouched : Untouched s ((s.clearUnreported n a).getD s) :=
  (Catalogued.getD fun _ h => State.clearUnreported_catalogued h).untouched

@[simp] theorem State.markExpiring_untouched : Untouched s ((s.markExpiring i).getD s) :=
  (Catalogued.getD fun _ h => State.markExpiring_catalogued h).untouched

@[simp] theorem State.returnAccepted_untouched : Untouched s ((s.returnAccepted i).getD s) :=
  (Catalogued.getD fun _ h => State.returnAccepted_catalogued h).untouched

@[simp] theorem State.clearDispute_untouched : Untouched s ((s.clearDispute i).getD s) :=
  (Catalogued.getD fun _ h => State.clearDispute_catalogued h).untouched

@[simp] theorem State.acceptLoss_untouched : Untouched s ((s.acceptLoss i).getD s) :=
  (Catalogued.getD fun _ h => State.acceptLoss_catalogued h).untouched

@[simp] theorem State.freeSegments_untouched (ns : List Nat) : Untouched s (s.freeSegments ns) :=
  (s.freeSegments_catalogued ns).untouched

@[simp] theorem State.markAllUnreported_untouched : Untouched s s.markAllUnreported := ⟨rfl, rfl⟩

@[simp] theorem State.pin_untouched : Untouched s (s.pin i) := (s.pin_catalogued i).untouched

@[simp] theorem State.reclaimStep_untouched (f : File) : Untouched s (s.reclaimStep i f).2 :=
  (s.reclaimStep_catalogueOnly i f).untouched

end

/-! ## Posts (R41, R43) -/

section
variable (s : State) (x : StreamId)

@[simp] theorem State.post_untouched (d : CompletionDetail) : Untouched s (s.post x d) := ⟨rfl, rfl⟩

@[simp] theorem State.waitPost_untouched (d : CompletionDetail) (after : AfterPost) :
    Untouched s (s.waitPost x d after) := ⟨rfl, rfl⟩

@[simp] theorem State.streamIdle_untouched : Untouched s (s.streamIdle x) := ⟨rfl, rfl⟩

@[simp] theorem State.enterWaiting_untouched (state : StreamState) : Untouched s (s.enterWaiting x state) := ⟨rfl, rfl⟩

@[simp] theorem State.closeInput_untouched : Untouched s (s.closeInput x) := ⟨rfl, rfl⟩

@[simp] theorem State.placeAbort_untouched : Untouched s (s.placeAbort x) := ⟨rfl, rfl⟩

@[simp] theorem State.stageRecord_untouched (r : CallRecord) : Untouched s (s.stageRecord x r) := ⟨rfl, rfl⟩

@[simp] theorem State.postNotice_untouched : Untouched s (s.postNotice x) := by
  rcases s.postNotice_cases x with ⟨-, -, e⟩ | e <;> simp [e]

theorem State.tryPost_untouched {s t : State} {x : StreamId} {d : CompletionDetail} {b : Bool}
    (h : s.tryPost x d = (t, b)) : Untouched s t := by
  rcases s.tryPost_cases x d with ⟨-, e⟩ | e <;> rw [e] at h <;> cases h <;> simp

@[simp] theorem State.markAccepted_untouched (reasons : DisputeReasons) : Untouched s (s.markAccepted x reasons) := by
  simp [State.markAccepted]

@[simp] theorem State.postThen_idle_untouched (d : CompletionDetail) : Untouched s (s.postThen x d .idle) := by
  unfold State.postThen
  split <;> next t h => simp [State.tryPost_untouched h, State.afterPost]

@[simp] theorem State.acceptStream_untouched (reasons : DisputeReasons) : Untouched s (s.acceptStream x reasons) := by
  cases h : s.trailRoom with
  | true => simp [s.acceptStream_room x h]
  | false => simp [State.acceptStream_full h]

@[simp] theorem State.reconcile_untouched : Untouched s (s.reconcile x) := s.acceptStream_untouched x _

theorem State.rejectRecord_untouched {s t : State} {x : StreamId} {reason : RejectReason} {after : AfterPost}
    {b : Bool} (h : s.rejectRecord x reason after = (t, b)) : Untouched s t := by
  unfold State.rejectRecord at h
  simp only at h
  split at h
  · cases h
    simp
  · split at h <;> next u hu => cases h; simp [State.tryPost_untouched hu]

@[simp] theorem State.rejectRecord_fst_untouched (reason : RejectReason) (after : AfterPost) :
    Untouched s (s.rejectRecord x reason after).1 :=
  State.rejectRecord_untouched (b := (s.rejectRecord x reason after).2) rfl

@[simp] theorem State.endOfInput_untouched : Untouched s (s.endOfInput x) := by
  unfold State.endOfInput
  simp only
  split
  · split <;> next t h => simp [State.rejectRecord_untouched h]
  · simp

@[simp] theorem State.exhaust_untouched : Untouched s (s.exhaust x) := by
  unfold State.exhaust
  simp only
  split
  · split
    · simp
    · split <;> simp
  · simp

@[simp] theorem State.afterPost_untouched (after : AfterPost) : Untouched s (s.afterPost x after) := by
  cases after <;> simp [State.afterPost]

@[simp] theorem State.postThen_untouched (d : CompletionDetail) (after : AfterPost) :
    Untouched s (s.postThen x d after) := by
  unfold State.postThen
  split <;> next t h => simp [State.tryPost_untouched h]

@[simp] theorem State.serveWaiting_untouched (i : WaitItem) : Untouched s (s.serveWaiting i) := by
  cases i with
  | notice x => exact s.postNotice_untouched x
  | post x =>
    unfold State.serveWaiting
    simp only
    split
    · simp
    · split <;> next t h => simp [State.tryPost_untouched h]

@[simp] theorem State.serveWaitList_untouched : Untouched s s.serveWaitList :=
  Untouched.foldl State.serveWaiting_untouched s.waiting s

@[simp] theorem State.removeCompletions_untouched (kept : List Completion) :
    Untouched s (s.removeCompletions kept) := by
  unfold State.removeCompletions
  split <;> simp

/-! ## The bytes of a stream (R51) -/

@[simp] theorem State.handRecord_untouched (r : CallRecord) : Untouched s (s.handRecord x r) := by
  unfold State.handRecord
  split <;> simp

@[simp] theorem State.endRecord_untouched : Untouched s (s.endRecord x) := by
  unfold State.endRecord
  simp only
  split
  · simp
  · split
    · simp
    · split <;> simp

@[simp] theorem State.startTrailer_untouched : Untouched s (s.startTrailer x) := by
  unfold State.startTrailer
  simp only
  split <;> simp

@[simp] theorem State.recordByte_untouched (kind : ClassKind) (b : Byte) : Untouched s (s.recordByte x kind b) := by
  cases kind <;> simp [State.recordByte]

@[simp] theorem State.takeByte_untouched (e : ClassEntry) (b : Byte) : Untouched s (s.takeByte x e b) := by
  unfold State.takeByte
  simp only
  split <;> simp

@[simp] theorem State.holdByte_untouched (e : ClassEntry) (b : Byte) : Untouched s (s.holdByte x e b) := by
  simp [State.holdByte]

@[simp] theorem State.streamByte_untouched : Untouched s (s.streamByte x) := by
  unfold State.streamByte
  simp only
  split
  · simp
  split
  · simp
  split
  · simp
  split <;> simp

@[simp] theorem State.resumeBlocked_untouched : Untouched s s.resumeBlocked := by
  unfold State.resumeBlocked
  split
  · simp
  split
  · split <;> simp
  · simp

@[simp] theorem State.resumeHeld_untouched (substitute : Option ClassEntry) :
    Untouched s (s.resumeHeld x substitute) := by
  unfold State.resumeHeld
  split <;> simp

@[simp] theorem State.startStream_untouched (w q : Nat) : Untouched s (s.startStream x w q) := by
  unfold State.startStream
  split
  · split <;> simp
  · simp

/-! ## Aborts and the close acknowledgement (R33 to R36, R75, R76) -/

@[simp] theorem State.beginAbort_untouched (cause : AbortCause) : Untouched s (s.beginAbort x cause) := by
  rcases s.beginAbort_cases x cause with e | e <;> rw [e] <;> exact ⟨rfl, rfl⟩

@[simp] theorem State.withdrawStream_untouched : Untouched s (s.withdrawStream x) := by
  unfold State.withdrawStream
  split <;> simp

@[simp] theorem State.closeAbort_untouched : Untouched s (s.closeAbort x) := by
  unfold State.closeAbort
  split <;> simp

@[simp] theorem State.streamExpiry_untouched : Untouched s (s.streamExpiry x) := by
  unfold State.streamExpiry
  simp only
  split <;> simp

@[simp] theorem State.takeCloseAck_untouched (count duration : Nat) :
    Untouched s (s.takeCloseAck x count duration) := by
  unfold State.takeCloseAck
  simp only
  split
  · simp
  split
  · simp
  split <;> simp

@[simp] theorem State.takeNotice_untouched : Untouched s (s.takeNotice x) := by
  unfold State.takeNotice
  simp only
  split <;> simp

@[simp] theorem State.retryAcceptance_untouched : Untouched s (s.retryAcceptance x) := by
  unfold State.retryAcceptance
  simp only
  split
  · split <;> simp
  · simp

@[simp] theorem State.acknowledgeClose_untouched : Untouched s (s.acknowledgeClose x) := by
  unfold State.acknowledgeClose
  simp only
  split <;> simp

@[simp] theorem State.tellAbort_untouched : Untouched s (s.tellAbort x) := by
  unfold State.tellAbort
  split <;> simp

/-! ## The Store Port and the Segment Encoder (R71 to R87) -/

@[simp] theorem State.startStore_untouched : Untouched s s.startStore := by
  unfold State.startStore
  simp only
  split
  · simp
  split
  · exact ⟨rfl, rfl⟩
  split
  · exact ⟨rfl, rfl⟩
  split <;> simp

@[simp] theorem State.endStore_untouched : Untouched s s.endStore := by simp [State.endStore]

@[simp] theorem State.askRead_untouched (c : CursorId) (n : Nat) : Untouched s (s.askRead c n) := by
  simp [State.askRead]

@[simp] theorem State.askSweep_untouched (n : Nat) : Untouched s (s.askSweep n) := by simp [State.askSweep]

theorem State.finishSegment_untouched {s t : State} {x : StreamId} (h : s.finishSegment x = some t) :
    Untouched s t := by
  unfold State.finishSegment at h
  simp only at h
  split at h <;> cases h
  · simp
  · simp [State.askWrite]

@[simp] theorem State.discardCounted_untouched (r : CallRecord) : Untouched s (s.discardCounted x r) := ⟨rfl, rfl⟩

@[simp] theorem State.endEpisode_untouched : Untouched s s.endEpisode := by simp [State.endEpisode_eq]

@[simp] theorem State.waitStoreFull_untouched : Untouched s (s.waitStoreFull x) := by
  unfold State.waitStoreFull
  simp only
  split
  · simp
  split <;> simp

@[simp] theorem State.placeFirst_untouched (r : CallRecord) : Untouched s (s.placeFirst x r) := by
  unfold State.placeFirst
  split
  · simp
  · simp
  · simp
  · next h => simp [(State.allocate_catalogued h).untouched]

@[simp] theorem State.placeRecord_untouched (r : CallRecord) : Untouched s (s.placeRecord x r) := by
  unfold State.placeRecord
  simp only
  split
  · simp
  split
  · simp
  · next h => simp [State.finishSegment_untouched h]

@[simp] theorem State.takeCloseMarker_untouched : Untouched s (s.takeCloseMarker x) := by
  unfold State.takeCloseMarker
  split
  · simp
  split
  · simp
  · next h => simp [State.finishSegment_untouched h]

@[simp] theorem State.carryRemoval_untouched : Untouched s (s.carryRemoval x) := by
  unfold State.carryRemoval
  split
  · next h => simp [(State.removeFile_catalogued h).untouched]
  · simp

@[simp] theorem State.takeAbortMarker_untouched : Untouched s (s.takeAbortMarker x) := by
  unfold State.takeAbortMarker
  simp only
  split
  · split <;> simp [State.withdrawWrite]
  · simp

@[simp] theorem State.dealHead_untouched : Untouched s s.dealHead := by
  unfold State.dealHead
  split
  · simp
  · split
    · simp
    · split <;> simp
  · simp
  · simp

@[simp] theorem State.takeHead_untouched : Untouched s s.takeHead := by
  unfold State.takeHead
  split
  · simp
  split
  · split <;> simp
  · simp

@[simp] theorem State.retryStoreFull_untouched : Untouched s s.retryStoreFull := by
  unfold State.retryStoreFull
  split <;> simp

@[simp] theorem State.endImageWait_untouched : Untouched s s.endImageWait := by
  unfold State.endImageWait
  split
  · split <;> simp
  · simp

/-! ## Reports of damage (R86, R139) -/

@[simp] theorem State.recordQuarantine_untouched (kind : TrailKind) (i : Nat) :
    Untouched s (s.recordQuarantine kind i) := by
  unfold State.recordQuarantine
  split <;> simp

@[simp] theorem State.reportDamage_untouched (f : Finding) : Untouched s (s.reportDamage f).1 := by
  have logged (t : State) (owed : Bool)
      (h : (if 0 < s.findingPlaces then ({ s with findings := s.findings ++ [f] }, false) else (s, true))
        = (t, owed)) :
      Untouched s t := by
    split at h <;> cases h <;> simp
  unfold State.reportDamage
  split
  next t owed h =>
  simp only
  split <;> simp [logged t owed h]

@[simp] theorem State.takeDamage_untouched (n a i : Nat) (kind : FindingKind) (values : Option (Nat × Nat)) :
    Untouched s (s.takeDamage n a i kind values) := by
  unfold State.takeDamage
  split
  · simp
  · simp

end

/-- The ends of a store write leave the queue alone. -/
theorem State.writeDone_pending (s : State) (x : StreamId) (n : Nat) : (s.writeDone x n).pending = s.pending := by
  unfold State.writeDone
  simp only
  split
  · rfl
  split <;> simp [State.dropImage]

theorem State.writeFailed_pending (s : State) (x : StreamId) (n : Nat) (left : List Byte) :
    (s.writeFailed x n left).pending = s.pending := by
  unfold State.writeFailed
  simp only
  split
  · rfl
  split <;> simp [State.dropImage]

end Sys2Proof.Machine
end

section
/-! PROOFS. No command touches the queue, and none but the reports of a store write the segment store: O2. -/

open Sys2Proof Sys2Proof.Machine
namespace Sys2Proof.Machine

section
variable (s : State)

/-! ## The expiry pass (R95 to R104) -/

@[simp] theorem State.passVisited_untouched : Untouched s s.passVisited := ⟨rfl, rfl⟩

@[simp] theorem State.startCause_untouched : Untouched s s.startCause := by
  rcases s.startCause_cases with ⟨-, -, e⟩ | e <;> simp [e]

@[simp] theorem State.visitExpiring_untouched (i : Nat) (f : File) : Untouched s (s.visitExpiring i f) := by
  unfold State.visitExpiring
  split
  · split <;> next h => simp [(s.reclaimStep_untouched i f).of_snd h]
  · simp

@[simp] theorem State.visit_untouched : Untouched s s.visit := by
  unfold State.visit
  simp only
  split
  · simp
  · split
    · simp
    · simp
    · simp
    · split <;> simp

@[simp] theorem State.walkAgain_untouched : Untouched s s.walkAgain := by simp [State.walkAgain]

@[simp] theorem State.passVisit_untouched : Untouched s s.passVisit := by
  unfold State.passVisit
  split <;> simp

@[simp] theorem State.passRetry_untouched : Untouched s s.passRetry := by
  rcases s.passRetry_cases with ⟨-, -, e⟩ | e <;> simp [e]

@[simp] theorem State.returnHeld_untouched (h : Hold) : Untouched s (s.returnHeld h) := by
  unfold State.returnHeld
  exact Untouched.foldl (by simp) _ s

/-! ## The Day Clock (R147 to R151) -/

@[simp] theorem State.tick_untouched : Untouched s s.tick := by
  unfold State.tick State.advanceClock State.tickCountdowns
  simp only
  split
  · simp
  split <;> simp

@[simp] theorem State.pulse_untouched (half : Bool) : Untouched s (s.pulse half) := by
  unfold State.pulse
  simp only
  split <;> split <;> simp

@[simp] theorem State.elapse_untouched : Untouched s s.elapse := by
  rcases s.elapse_cases with ⟨-, -, e⟩ | ⟨-, e⟩ | ⟨-, e⟩ <;> simp [e]

@[simp] theorem State.setClockTo_untouched (p : PortId) (value : Nat) : Untouched s (s.setClockTo p value) := by
  unfold State.setClockTo
  simp only
  split <;> simp

/-! ## Replies and fetches (R137 to R144, R154) -/

@[simp] theorem State.answer_untouched (p : PortId) (tag : Byte) (status : Status) (body : ReplyBody) :
    Untouched s (s.answer p tag status body) := by
  unfold State.answer
  split <;> simp

@[simp] theorem State.answerFetch_untouched (c : CursorId) (status : Status) (skipped : Nat) :
    Untouched s (s.answerFetch c status skipped) := by
  unfold State.answerFetch
  simp only
  split
  · split <;> simp
  · simp

@[simp] theorem State.serveFetch_untouched (c : CursorId) : Untouched s (s.serveFetch c).1 := by
  unfold State.serveFetch
  simp only
  split
  · simp
  split <;> simp

@[simp] theorem State.takeFetch_untouched (p : PortId) (tag : Byte) (c : CursorId) (count : Nat) :
    Untouched s (s.takeFetch p tag c count).1 := by
  simp [State.takeFetch]

@[simp] theorem State.freeCursorOf_untouched (c : CursorId) : Untouched s (s.freeCursorOf c) :=
  (s.freeCursorOf_cursorsOnly c).untouched

@[simp] theorem State.takeHeldRequest_untouched (p : PortId) (o : Outstanding) :
    Untouched s (s.takeHeldRequest p o) := by
  unfold State.takeHeldRequest
  simp only
  split
  · simp
  split
  · split <;> simp
  · split <;> simp
  · simp

@[simp] theorem State.takeHeld_untouched (p : PortId) (c : CursorId) (n : Nat) (s : State) :
    Untouched s (State.takeHeld p c n s) := by
  induction n generalizing s with
  | zero => simp [State.takeHeld]
  | succ n ih =>
    unfold State.takeHeld
    split
    · simp
    split <;> simp [ih]

@[simp] theorem State.retrievalRead_untouched (c : CursorId) (report : ReadReport) :
    Untouched s (s.retrievalRead c report).1 := by
  unfold State.retrievalRead
  simp only
  split
  · split <;> simp
  · simp

@[simp] theorem State.endRetrievalRead_untouched (c : CursorId) (live : Bool) (report : ReadReport) :
    Untouched s (s.endRetrievalRead c live report) := by
  unfold State.endRetrievalRead
  split
  · simp only
    split <;> next h _ => simp [(s.retrievalRead_untouched c report).of_fst h]
  · simp

@[simp] theorem State.cursorExpiry_untouched (c : CursorId) : Untouched s (s.cursorExpiry c) := by
  unfold State.cursorExpiry
  simp only
  split <;> simp

/-! ## Roles and port resets (R144, R157, R160) -/

@[simp] theorem State.withdrawCursor_untouched (p : PortId) (c : CursorId) : Untouched s (s.withdrawCursor p c) := by
  unfold State.withdrawCursor
  split <;> simp

@[simp] theorem State.withdrawRoles_untouched (p : PortId) (roles : RoleSet) :
    Untouched s (s.withdrawRoles p roles) := by
  have streams (s : State) (l : List StreamId) := Untouched.foldl State.withdrawStream_untouched l s
  have cursors (s : State) (l : List CursorId) := Untouched.foldl (fun s c => s.withdrawCursor_untouched p c) l s
  unfold State.withdrawRoles
  simp only
  split <;> split <;> simp [streams, cursors]

@[simp] theorem State.portReset_untouched (p : PortId) : Untouched s (s.portReset p) := by
  have streams (s : State) (l : List StreamId) :=
    Untouched.foldl (fun s x => (s.resetStream_streamsOnly x).untouched) l s
  have cursors (s : State) (l : List CursorId) := Untouched.foldl State.freeCursorOf_untouched l s
  simp [State.portReset, State.dropCompletions, streams, cursors]

/-! ## The audit sweep (R109 to R121) -/

@[simp] theorem State.beginVisit_untouched (n : Nat) (kind : VisitKind) : Untouched s (s.beginVisit n kind) := by
  simp [State.beginVisit]

@[simp] theorem State.sweepLooks_untouched : Untouched s s.sweepLooks := by
  unfold State.sweepLooks State.lookSegment
  simp only
  split
  · split
    · simp
    · split <;> simp
  · simp

@[simp] theorem State.logRoom_untouched : Untouched s s.logRoom := by
  unfold State.logRoom
  split <;> simp

@[simp] theorem State.completeVisit_untouched (v : Visit) (report : ReadReport) :
    Untouched s (s.completeVisit v report).1 := by
  have clean : Untouched s (s.cleanSuspect v) := by
    unfold State.cleanSuspect
    split
    · simp
    split <;> simp
  have stored (found : List (FindingKind × Option (Nat × Nat))) : Untouched s (s.damageStored v found).1 := by
    unfold State.damageStored
    simp only
    split <;> simp
  have suspect (found : List (FindingKind × Option (Nat × Nat))) : Untouched s (s.damageSuspect v found).1 := by
    unfold State.damageSuspect
    split <;> simp
  unfold State.completeVisit
  split
  · simp
  simp only
  split
  · split <;> simp [clean]
  split
  · exact suspect _
  · exact stored _

@[simp] theorem State.paceSweep_untouched (appended : Nat) : Untouched s (s.paceSweep appended) := by
  unfold State.paceSweep
  simp only
  split
  · simp
  split
  · simp
  split
  · split <;> simp
  · simp

@[simp] theorem State.answerStep_untouched (p : PortId) (tag : Byte) (n : Nat) (r : VisitResult) :
    Untouched s (s.answerStep p tag n r) := by
  unfold State.answerStep
  split <;> simp

@[simp] theorem State.sweepRead_untouched (report : ReadReport) : Untouched s (s.sweepRead report) := by
  unfold State.sweepRead State.endVisit
  split
  · simp
  simp only
  split <;> simp

@[simp] theorem State.stepWalk_untouched (p : PortId) (tag : Byte) : Untouched s (s.stepWalk p tag).1 := by
  unfold State.stepWalk
  simp only
  split <;> simp

@[simp] theorem State.stepSweep_untouched (p : PortId) (tag : Byte) : Untouched s (s.stepSweep p tag) := by
  unfold State.stepSweep
  split
  · simp
  · split <;> next h => simp [(s.stepWalk_untouched p tag).of_fst h]

/-! ## Resets and the start-up clean-up (R163 to R167) -/

@[simp] theorem State.takeReset_untouched : Untouched s s.takeReset := by
  rw [State.takeReset_eq]
  split <;> exact ⟨rfl, rfl⟩

@[simp] theorem State.moduleReset_untouched (p : PortId) (tag : Byte) : Untouched s (s.moduleReset p tag) := by
  simp [State.moduleReset]

@[simp] theorem State.cleanUp_untouched : Untouched s s.cleanUp := by
  have removed (s : State) (l : List Nat) := Untouched.foldl (fun s i => s.removeFile_untouched i) l s
  simp [State.cleanUp, State.removeIngesting, State.freeFilling, removed]

end

/-! ## Answers of the owning blocks -/

@[simp] theorem Answer.refusal_state (status : Status) (s : State) : (Answer.refusal status s).state = s := rfl

@[simp] theorem Answer.ok_state (body : ReplyBody) (s : State) : (Answer.ok body s).state = s := rfl

section
variable (s : State) (p : PortId)

@[simp] theorem State.createOpened_untouched (i : Nat) (b : OpeningFile) : Untouched s (s.createOpened p i b) :=
  ⟨rfl, rfl⟩

@[simp] theorem State.openFileAnswer_untouched (b : OpeningFile) : Untouched s (s.openFileAnswer p b).state := by
  unfold State.openFileAnswer
  split <;> simp

@[simp] theorem State.pinOpened_untouched (i : Nat) (f : File) (b : OpeningCursor) :
    Untouched s (s.pinOpened p i f b) := by simp [State.pinOpened]

@[simp] theorem State.openCursorAnswer_untouched (b : OpeningCursor) : Untouched s (s.openCursorAnswer p b).state := by
  unfold State.openCursorAnswer
  split
  · split <;> simp
  · simp

@[simp] theorem State.ingestChunk_untouched (stream final nextMode : Byte) (chunk : List Byte) :
    Untouched s (s.ingestChunk p stream final nextMode chunk).state := by
  unfold State.ingestChunk
  split
  · split
    · simp
    · split <;> simp
  · simp

@[simp] theorem State.resumeStream_untouched (stream present kind inCheck nextMode hold : Byte) :
    Untouched s (s.resumeStream p stream present kind inCheck nextMode hold).state := by
  unfold State.resumeStream
  split
  · split <;> simp
  · simp

@[simp] theorem State.abortStream_untouched (stream : Byte) : Untouched s (s.abortStream p stream).state := by
  unfold State.abortStream
  split
  · split <;> simp
  · simp

@[simp] theorem State.fetchCompletions_untouched : Untouched s (s.fetchCompletions p).state := by
  simp [State.fetchCompletions]

@[simp] theorem State.fetchFindings_untouched : Untouched s s.fetchFindings.state := by simp [State.fetchFindings]

@[simp] theorem State.setSweepSettings_untouched (window rest : Nat) (freeze : Byte) :
    Untouched s (s.setSweepSettings window rest freeze).state := by
  unfold State.setSweepSettings
  split <;> simp

@[simp] theorem State.startSweep_untouched : Untouched s s.startSweep.state := by
  unfold State.startSweep
  split <;> simp

@[simp] theorem State.restartSweep_untouched : Untouched s s.restartSweep.state := by simp [State.restartSweep]

@[simp] theorem State.ackTrail_untouched (sequence : Nat) : Untouched s (s.ackTrail sequence).state := by
  unfold State.ackTrail
  split <;> simp

@[simp] theorem State.setRetention_untouched (retentionClass : Byte) (days : Nat) :
    Untouched s (s.setRetention p retentionClass days).state := by
  unfold State.setRetention
  split
  · simp
  split <;> simp

@[simp] theorem State.placeHold_untouched (selector firstDay lastDay : Nat) (present length : Byte)
    (label : List Byte) : Untouched s (s.placeHold p selector firstDay lastDay present length label).state := by
  unfold State.placeHold State.placeHoldTested
  split
  · split
    · split
      · simp
      split <;> simp
    · simp
  · simp

@[simp] theorem State.releaseHold_untouched (hold : Byte) : Untouched s (s.releaseHold p hold).state := by
  unfold State.releaseHold
  split
  · simp
  split
  · simp
  split <;> simp

@[simp] theorem State.expireNow_untouched : Untouched s s.expireNow.state := by
  unfold State.expireNow
  split <;> simp

@[simp] theorem State.resumeExpiry_untouched : Untouched s s.resumeExpiry.state := by
  unfold State.resumeExpiry
  simp only [Answer.ok_state]
  split <;> simp

@[simp] theorem State.clearDisputeOf_untouched (w q : Nat) : Untouched s (s.clearDisputeOf p w q).state := by
  unfold State.clearDisputeOf
  split
  · simp
  split
  · simp
  split
  · simp
  split <;> simp

@[simp] theorem State.acceptLossOf_untouched (w q : Nat) : Untouched s (s.acceptLossOf p w q).state := by
  unfold State.acceptLossOf
  split
  · simp
  split
  · simp
  split
  · simp
  split
  · simp
  split <;> simp

@[simp] theorem State.loadClassEntries_untouched (profile mode firstByte : Byte) (count : Nat)
    (entries : List WireClassEntry) : Untouched s (s.loadClassEntries profile mode firstByte count entries).state := by
  unfold State.loadClassEntries
  split
  · split <;> simp [State.setProfile]
  · simp

@[simp] theorem State.loadFieldMap_untouched (profile : Byte) (targets : List Byte) (rounding overflow : Byte) :
    Untouched s (s.loadFieldMap profile targets rounding overflow).state := by
  unfold State.loadFieldMap
  split
  · split
    · split <;> simp [State.setProfile]
    · simp
  · simp

@[simp] theorem State.setClock_untouched (value : Nat) : Untouched s (s.setClock p value).state := by
  unfold State.setClock
  split <;> simp

@[simp] theorem State.setRoles_untouched (target roles : Byte) : Untouched s (s.setRoles p target roles).state := by
  unfold State.setRoles
  split
  · split
    · simp
    split <;> simp [State.writeRoles]
  · simp

@[simp] theorem State.setPortSettingsOf_untouched (target byteOrder streamTimeout cursorTimeout : Byte) :
    Untouched s (s.setPortSettingsOf target byteOrder streamTimeout cursorTimeout).state := by
  unfold State.setPortSettingsOf
  split <;> simp

@[simp] theorem State.fileInfo_untouched (w q : Nat) : Untouched s (s.fileInfo w q).state := by
  unfold State.fileInfo
  split
  · simp
  split <;> simp

@[simp] theorem State.listFiles_untouched (selector firstDay lastDay : Nat) (states : Byte) (start count : Nat) :
    Untouched s (s.listFiles selector firstDay lastDay states start count).state := by
  unfold State.listFiles State.walkFiles
  split
  · split <;> simp
  · simp

@[simp] theorem State.segmentInfo_untouched (n : Nat) : Untouched s (s.segmentInfo n).state := by
  unfold State.segmentInfo
  split <;> simp

/-! ## Requests (R154) -/

theorem State.receive_untouched (tag : Byte) (formOk always : Bool) {k : State → State} (h : Untouched s (k s)) :
    Untouched s (s.receive p tag formOk always k) := by
  rcases s.receive_cases p tag formOk always k with ⟨-, e⟩ | ⟨_, -, e⟩ | ⟨_, -, -, e⟩ | ⟨-, -, -, e⟩ <;> rw [e]
  · simp
  · simp
  · simp
  · exact h

theorem State.permit_untouched (tag : Byte) (need : RoleSet → Bool) {k : State → State} (h : Untouched s (k s)) :
    Untouched s (s.permit p tag need k) := by
  unfold State.permit
  split
  · exact h
  · simp

theorem State.request_untouched (tag : Byte) (formOk : Bool) (need : RoleSet → Bool) {answer : State → Answer}
    (h : Untouched s (answer s).state) : Untouched s (s.request p tag formOk need answer) := by
  rcases s.request_cases p tag formOk need answer with e | ⟨_, e⟩ | ⟨_, e⟩ | ⟨-, e⟩ <;> rw [e]
  · simp
  · simp
  · simp
  · simp [Answer.send, h]

theorem State.opening_untouched {α : Type} (tag : Byte) (need : RoleSet → Bool) (ask : State → Except Status α)
    (request : α → OpeningRequest) {answer : α → State → Answer} (h : ∀ b, Untouched s (answer b s).state) :
    Untouched s (s.opening p tag need ask request answer) := by
  refine s.receive_untouched p tag true false (s.permit_untouched p tag need ?_)
  split
  · simp
  · split <;> simp [Answer.send, h]

theorem State.nameCursor_untouched (tag cursor : Byte) (held : CursorId → Standing) {take : CursorId → State → State}
    (h : ∀ c, Untouched s (take c s)) : Untouched s (s.nameCursor p tag cursor held take) := by
  unfold State.nameCursor
  split
  · exact s.permit_untouched p tag _ (by simp)
  split
  · simp
  · refine s.permit_untouched p tag _ ?_
    split
    · exact h _
    · simp

end

/-! ## Every command -/

theorem State.event_untouched {s : State} {f : State → State} (h : Untouched s (f s)) : Untouched s (s.event f) := by
  unfold State.event
  split
  · exact h
  · simp

theorem Untouched.next {s t u : State} (h : Untouched s u)
    (e : (Host.Outcome.next u : Host.Outcome State Fault Refusal) = .next t) : Untouched s t := by
  cases e
  exact h

/-- The report of a store write leaves the queue alone (log entry 12). -/
theorem State.writeReport_pending {s t : State} {effect : StreamId → Nat → State → State}
    (h : ∀ x n, (effect x n s).pending = s.pending) (e : s.writeReport effect = .next t) : t.pending = s.pending := by
  unfold State.writeReport at e
  split at e
  · next x n _ =>
    split at e
    · cases e
      rfl
    split at e <;> cases e
    simp [h]
  · cases e
    rfl

theorem execSweepReadComplete_untouched {s t : State} {report : ReadReport}
    (e : execSweepReadComplete report s = .next t) : Untouched s t := by
  unfold execSweepReadComplete at e
  split at e
  · split at e
    · cases e
      simp
    split at e <;> cases e
    simp
  · cases e
    simp

theorem execRetrievalReadComplete_untouched {s t : State} {report : ReadReport}
    (e : execRetrievalReadComplete report s = .next t) : Untouched s t := by
  unfold execRetrievalReadComplete at e
  split at e
  · split at e
    · cases e
      simp
    split at e <;> cases e
    simp
  · cases e
    simp

/-- A command other than the two reports of a store write. -/
def writesNothing (c : Instr) : Prop := c ≠ .storeWriteComplete ∧ ∀ left, c ≠ .storeWriteError left

theorem exec_untouched {c : Instr} {s t : State} (hc : writesNothing c) (h : exec c s = .next t) : Untouched s t := by
  cases c with
  | storeWriteComplete => exact absurd rfl hc.1
  | storeWriteError left => exact absurd rfl (hc.2 left)
  | openFile p tag => exact (s.opening_untouched p tag _ _ _ (by simp)).next h
  | openCursor p tag => exact (s.opening_untouched p tag _ _ _ (by simp)).next h
  | ingestChunk p tag => exact (s.request_untouched p tag _ _ (by simp)).next h
  | resumeStream p tag => exact (s.request_untouched p tag _ _ (by simp)).next h
  | abortStream p tag => exact (s.request_untouched p tag _ _ (by simp)).next h
  | fetchFindings p tag => exact (s.request_untouched p tag _ _ (by simp)).next h
  | fetchTrail p tag => exact (s.request_untouched p tag _ _ ⟨rfl, rfl⟩).next h
  | ackTrail p tag => exact (s.request_untouched p tag _ _ (by simp)).next h
  | setSweepSettings p tag => exact (s.request_untouched p tag _ _ (by simp)).next h
  | startSweep p tag => exact (s.request_untouched p tag _ _ (by simp)).next h
  | stopSweep p tag => exact (s.request_untouched p tag _ _ ⟨rfl, rfl⟩).next h
  | restartSweep p tag => exact (s.request_untouched p tag _ _ (by simp)).next h
  | loadClassEntries p tag => exact (s.request_untouched p tag _ _ (by simp)).next h
  | loadFieldMap p tag => exact (s.request_untouched p tag _ _ (by simp)).next h
  | setRetention p tag => exact (s.request_untouched p tag _ _ (by simp)).next h
  | placeHold p tag => exact (s.request_untouched p tag _ _ (by simp)).next h
  | releaseHold p tag => exact (s.request_untouched p tag _ _ (by simp)).next h
  | expireNow p tag => exact (s.request_untouched p tag _ _ (by simp)).next h
  | pauseExpiry p tag => exact (s.request_untouched p tag _ _ ⟨rfl, rfl⟩).next h
  | resumeExpiry p tag => exact (s.request_untouched p tag _ _ (by simp)).next h
  | clearDispute p tag => exact (s.request_untouched p tag _ _ (by simp)).next h
  | acceptLoss p tag => exact (s.request_untouched p tag _ _ (by simp)).next h
  | setClock p tag => exact (s.request_untouched p tag _ _ (by simp)).next h
  | setRoles p tag => exact (s.request_untouched p tag _ _ (by simp)).next h
  | setPortSettings p tag => exact (s.request_untouched p tag _ _ (by simp)).next h
  | fileInfo p tag => exact (s.request_untouched p tag _ _ (by simp)).next h
  | listFiles p tag => exact (s.request_untouched p tag _ _ (by simp)).next h
  | segmentInfo p tag => exact (s.request_untouched p tag _ _ (by simp)).next h
  | fetchCompletions p tag => exact (s.request_untouched p tag _ _ (by simp)).next h
  | fetchRecords p tag =>
    exact (s.receive_untouched p tag _ _ (s.nameCursor_untouched p tag _ _ (by simp))).next h
  | closeCursor p tag =>
    exact (s.receive_untouched p tag _ _ (s.nameCursor_untouched p tag _ _ (by simp))).next h
  | stepSweep p tag => exact (s.receive_untouched p tag _ _ (s.permit_untouched p tag _ (by simp))).next h
  | moduleReset p tag => exact (s.receive_untouched p tag _ _ (s.permit_untouched p tag _ (by simp))).next h
  | partStatus p tag => exact (s.receive_untouched p tag _ _ (by simp [Answer.send])).next h
  | unknownRequestFrame p tag kind length body =>
    refine Untouched.next (u := s.unknownFrame p tag kind length body) ?_ h
    unfold State.unknownFrame
    split
    · simp
    · exact s.receive_untouched p tag _ _ ⟨rfl, rfl⟩
  | damagedFrameDiscarded => exact Untouched.next ⟨rfl, rfl⟩ h
  | linkLoss p =>
    refine Untouched.next (State.event_untouched (f := fun s => s.linkLost p) ?_) h
    unfold State.linkLost
    split <;> simp [State.setLink]
  | linkReset p =>
    refine Untouched.next (State.event_untouched (f := fun s => s.linkReset p) ?_) h
    unfold State.linkReset
    split <;> simp
  | linkEstablished p =>
    refine Untouched.next (State.event_untouched (f := fun s => s.establish p) ?_) h
    unfold State.establish
    split <;> simp [State.setLink]
  | resetInputAsserted n =>
    refine Untouched.next (State.event_untouched (f := fun s => s.holdReset n) ?_) h
    unfold State.holdReset
    split <;> simp
  | resetInputReleased =>
    refine Untouched.next (State.event_untouched (f := State.releaseReset) ?_) h
    unfold State.releaseReset
    split <;> simp
  | powerOn => exact Untouched.next (u := s.powerUp) s.takeReset_untouched h
  | powerLoss => exact Untouched.next (u := { s with powered := false }) ⟨rfl, rfl⟩ h
  | startupCleanup =>
    refine Untouched.next (State.event_untouched (f := State.startupCleanup) ?_) h
    unfold State.startupCleanup
    split <;> simp
  | sweepRestExpiry =>
    refine Untouched.next (State.event_untouched (f := State.restExpiry) ?_) h
    unfold State.restExpiry
    simp only
    split <;> simp
  | referencePulse => exact (State.event_untouched (by simp)).next h
  | internalSecond => exact (State.event_untouched (by simp)).next h
  | streamCountdownExpiry => exact (State.event_untouched (by simp)).next h
  | cursorIdleExpiry => exact (State.event_untouched (by simp)).next h
  | streamByte => exact (State.event_untouched (by simp)).next h
  | blockedStreamResumed => exact (State.event_untouched (by simp)).next h
  | completionWaitServed => exact (State.event_untouched (by simp)).next h
  | encoderTakeHead => exact (State.event_untouched (by simp)).next h
  | storeFullWaitRetry => exact (State.event_untouched (by simp)).next h
  | imageWaitEnd => exact (State.event_untouched (by simp)).next h
  | closeAcknowledgement => exact (State.event_untouched (by simp)).next h
  | closingStreamTrailRetry => exact (State.event_untouched (by simp)).next h
  | abortReached => exact (State.event_untouched (by simp)).next h
  | sweepLook => exact (State.event_untouched (by simp)).next h
  | sweepLogRoom => exact (State.event_untouched (by simp)).next h
  | passVisit => exact (State.event_untouched (by simp)).next h
  | passTrailRetry => exact (State.event_untouched (by simp)).next h
  | sweepReadComplete => exact execSweepReadComplete_untouched h
  | retrievalReadComplete => exact execRetrievalReadComplete_untouched h

theorem exec_storeWriteComplete_pending {s t : State} (h : exec .storeWriteComplete s = .next t) :
    t.pending = s.pending :=
  State.writeReport_pending (effect := fun x n s => s.writeDone x n) s.writeDone_pending h

theorem exec_storeWriteError_pending {s t : State} {left : List Byte} (h : exec (.storeWriteError left) s = .next t) :
    t.pending = s.pending :=
  State.writeReport_pending (effect := fun x n s => s.writeFailed x n left) (fun x n => s.writeFailed_pending x n left)
    h

end Sys2Proof.Machine

/-- Settles O2: every command but the two write reports is made of operations that touch neither the queue nor the
store, and the two reports leave the queue alone. -/
theorem onlyWritesTouchTheStore : Obligations.OnlyWritesTouchTheStore := by
  intro c s t h
  refine ⟨?_, fun hd he a => ?_⟩
  · by_cases hc : writesNothing c
    · exact (exec_untouched hc h).1
    · cases c with
      | storeWriteComplete => exact exec_storeWriteComplete_pending h
      | storeWriteError left => exact exec_storeWriteError_pending h
      | _ => exact absurd ⟨nofun, nofun⟩ hc
  · unfold State.storeByte
    rw [(exec_untouched ⟨hd, he⟩ h).2]
end

section
/-! PROOFS. Requests of a port without their role, holds, and the settlement of disputes and losses: O45 and O48. -/

open Sys2Proof Sys2Proof.Machine
namespace Sys2Proof.Machine

section
variable {s : State} {p : PortId} {tag : Byte}

/-- A well-formed request of a port without the role it needs is refused NOT_PERMITTED (R154, order 5). -/
theorem State.request_notPermitted {need : RoleSet → Bool} (answer : State → Answer) (ha : s.admits p tag)
    (hr : need (s.roles p) = false) : s.request p tag true need answer = s.refuse p tag .notPermitted := by
  simp only [State.request, State.receive_admitted _ ha, State.permit, hr, Bool.false_eq_true, if_false]

theorem State.trailRoom_of_lt (h : s.trail.entries.length < 128) : s.trailRoom = true := decide_eq_true h

theorem State.trailRoom_of_le (h : 128 ≤ s.trail.entries.length) : s.trailRoom = false :=
  decide_eq_false (Nat.not_lt.mpr h)

/-! ## Arguments of PLACE HOLD (R93) -/

theorem readSelector_eq_none {n : Nat} : readSelector n = none ↔ 1023 < n ∧ n ≠ 65535 := by
  unfold readSelector
  by_cases all : n = 65535
  · simp [all]
  · by_cases one : n ≤ 1023
    · simp [all, one]
    · simp [all, one, Nat.lt_of_not_le one]

/-- A label is none at all if its presence byte is above 1, or if it stands and is longer than 16 characters or holds one
that is not printable. -/
theorem readLabel_eq_none {present size : Byte} {text : List Byte} :
    readLabel present size text = none ↔ 1 < present.toNat
      ∨ (present = 1 ∧ (16 < size.toNat ∨ ∃ c ∈ text.take size.toNat, c.toNat < 32 ∨ 126 < c.toNat)) := by
  by_cases yesNo : present = 0 ∨ present = 1
  · obtain rfl | rfl := yesNo
    · simp [readLabel, readYesNo]
    · have taken : readYesNo 1 = some true := rfl
      simp only [readLabel, taken, ite_eq_right_iff, reduceCtorEq, imp_false, not_and_or, Nat.not_le,
        List.all_eq_true, decide_eq_true_eq, not_forall, exists_prop, true_and]
      exact (or_iff_right (by decide)).symm
  · have above : 1 < present.toNat := by bv_omega
    simp [readLabel, readYesNo_eq_none yesNo, above]

/-- What makes PLACE HOLD's arguments out of range: a switch that is none, a day beyond the last, a first day above the
last, a label that is none (R93). -/
def holdOutOfRange (w a b : Nat) (present size : Byte) (text : List Byte) : Prop :=
  (1023 < w ∧ w ≠ 65535) ∨ 49709 < a ∨ 49709 < b ∨ b < a ∨ 1 < present.toNat
    ∨ (present = 1 ∧ (16 < size.toNat ∨ ∃ c ∈ text.take size.toNat, c.toNat < 32 ∨ 126 < c.toNat))

theorem State.placeHold_inRange {w a b : Nat} {present size : Byte} {text : List Byte} {selector : Option Nat}
    {label : Option (List Byte)} (hw : readSelector w = some selector) (hl : readLabel present size text = some label)
    (hab : a ≤ b) (hb : b ≤ 49709) :
    s.placeHold p w a b present size text
      = s.placeHoldTested p { active := true, selector, firstDay := a, lastDay := b, placingPort := p, label } := by
  simp only [State.placeHold, hw, hl, upTo_eq_some.mpr ⟨hab.trans hb, rfl⟩, upTo_eq_some.mpr ⟨hb, rfl⟩, hab, if_true]

theorem State.placeHold_outOfRange {w a b : Nat} {present size : Byte} {text : List Byte}
    (h : holdOutOfRange w a b present size text) :
    s.placeHold p w a b present size text = .refusal .badRequest s := by
  unfold State.placeHold
  split
  · next selector a' b' label hw ha hb hl =>
    obtain ⟨firstDay, rfl⟩ : a ≤ 49709 ∧ a = a' := upTo_eq_some.mp ha
    obtain ⟨lastDay, rfl⟩ : b ≤ 49709 ∧ b = b' := upTo_eq_some.mp hb
    refine if_neg fun ordered => ?_
    rcases h with h | h | h | h | h
    · exact nomatch hw.symm.trans (readSelector_eq_none.mpr h)
    · omega
    · omega
    · omega
    · exact nomatch hl.symm.trans (readLabel_eq_none.mpr h)
  · rfl

/-- Arguments that are not out of range name a hold. -/
theorem hold_inRange {w a b : Nat} {present size : Byte} {text : List Byte}
    (h : ¬holdOutOfRange w a b present size text) :
    (∃ selector, readSelector w = some selector) ∧ (∃ label, readLabel present size text = some label) ∧ a ≤ b
      ∧ b ≤ 49709 := by
  simp only [holdOutOfRange, ← readLabel_eq_none, ← readSelector_eq_none, not_or, Nat.not_lt] at h
  obtain ⟨hw, -, hb, hab, hl⟩ := h
  exact ⟨Option.ne_none_iff_exists'.mp hw, Option.ne_none_iff_exists'.mp hl, hab, hb⟩

/-! ## The entry a hold takes, and the files it returns (R93) -/

theorem State.freeHold_eq_some {k : Fin 32} (hk : s.holds[k].active = false)
    (hl : ∀ j : Fin 32, j < k → s.holds[j].active = true) : s.freeHold = some k :=
  find?_finRange_eq_some (by rw [hk]; rfl) fun j hj => by rw [hl j hj]; rfl

theorem State.freeHold_eq_none (h : ∀ j : Fin 32, s.holds[j].active = true) : s.freeHold = none :=
  List.find?_eq_none.mpr fun j _ => by rw [h j]; nofun

theorem State.freeHold_isSome {k : Fin 32} (hk : s.holds[k].active = false) : ∃ j, s.freeHold = some j := by
  rw [← Option.isSome_iff_exists, State.freeHold, List.find?_isSome]
  exact ⟨k, List.mem_finRange k, by rw [hk]; rfl⟩

theorem Hold.covers_iff (h : Hold) (w day : Nat) :
    h.covers w day = true ↔ h.active = true ∧ (h.selector = none ∨ h.selector = some w) ∧ h.firstDay ≤ day
      ∧ day ≤ h.lastDay := by
  cases hs : h.selector <;> simp [Hold.covers, hs, and_assoc]

/-- An EXPIRING file taken back (R13). -/
def File.returned (f : File) : File := if f.state = .expiring then { f with state := .accepted } else f

/-- A return to ACCEPTED, made or refused, leaves its file returned and every other one alone. -/
theorem State.file_returnAccepted (s : State) (i j : Nat) :
    ((s.returnAccepted i).getD s).file j = (s.file j).map (fun f => if j = i then f.returned else f) := by
  unfold State.returnAccepted
  split
  · next f hf =>
    by_cases hj : j = i
    · subst hj
      by_cases expiring : f.state = .expiring
      · simp [expiring, State.file_setFile, hf, File.returned]
      · simp [expiring, hf, File.returned]
    · by_cases expiring : f.state = .expiring <;> simp [expiring, State.file_setFile, hj]
  · next hf =>
    by_cases hj : j = i
    · simp [hj, hf]
    · simp [hj]

theorem State.file_foldl_returnAccepted (l : List (Nat × File)) (s : State) (j : Nat) :
    (l.foldl (fun s e => (s.returnAccepted e.1).getD s) s).file j
      = (s.file j).map (fun f => if j ∈ l.map Prod.fst then f.returned else f) := by
  induction l generalizing s with
  | nil => simp
  | cons e l ih =>
    have twice (f : File) : f.returned.returned = f.returned := by
      by_cases expiring : f.state = .expiring <;> simp [File.returned, expiring]
    rw [List.foldl_cons, ih, State.file_returnAccepted, Option.map_map]
    refine congrArg (Option.map · (s.file j)) (funext fun f => ?_)
    by_cases here : j = e.1 <;> by_cases later : j ∈ l.map Prod.fst <;> simp [here, later, twice]

/-- The files after a hold is placed: those EXPIRING that it matches are ACCEPTED, every other one is as it was. -/
theorem State.file_returnHeld (h : Hold) (canonical : Sparse.wf none s.files = true) (i : Nat) :
    (s.returnHeld h).file i
      = (s.file i).map (fun f =>
        if f.state = .expiring ∧ h.covers f.switchId f.fileDay = true then { f with state := .accepted } else f) := by
  rw [State.returnHeld, State.file_foldl_returnAccepted]
  cases hf : s.file i with
  | none => rfl
  | some f =>
    have matched : (i ∈ (s.heldFiles.filter (fun e =>
          decide (e.2.state = .expiring ∧ h.covers e.2.switchId e.2.fileDay = true))).map Prod.fst)
        ↔ f.state = .expiring ∧ h.covers f.switchId f.fileDay = true := by
      simp only [List.mem_map, List.mem_filter, decide_eq_true_eq]
      constructor
      · rintro ⟨⟨j, g⟩, ⟨held, returns⟩, rfl⟩
        obtain rfl : f = g := Option.some.inj (hf.symm.trans ((State.mem_heldFiles canonical _ g).mp held))
        exact returns
      · exact fun returns => ⟨(i, f), ⟨State.mem_heldFiles_of_file hf, returns⟩, rfl⟩
    simp only [matched, Option.map_some, Option.some.injEq]
    split
    · next returns => exact if_pos returns.1
    · rfl

theorem State.filesOnly_trans {s t u : State} (h : t = { s with files := t.files }) (h' : u = { t with files := u.files }) :
    u = { s with files := u.files } := by rw [h', h]

theorem State.returnAccepted_eq (s : State) (i : Nat) :
    (s.returnAccepted i).getD s = { s with files := ((s.returnAccepted i).getD s).files } := by
  unfold State.returnAccepted
  split
  · split <;> rfl
  · rfl

/-- Files are returned in the File Table and nowhere else. -/
theorem State.returnHeld_eq (s : State) (h : Hold) : s.returnHeld h = { s with files := (s.returnHeld h).files } := by
  unfold State.returnHeld
  generalize s.heldFiles.filter _ = l
  induction l generalizing s with
  | nil => rfl
  | cons e l ih => exact State.filesOnly_trans (s.returnAccepted_eq e.1) (ih _)

/-! ## PLACE HOLD and RELEASE HOLD (R93, R94) -/

theorem exec_placeHold (ha : s.admits p tag) (hr : (s.roles p).admin = true) (w a b : Wire16) (present size : Byte)
    {text : List Byte} (hl : text.length = 16) :
    exec (.placeHold p tag w a b present size text) s
      = .next ((s.placeHold p (wire16 (s.byteOrder p) w) (wire16 (s.byteOrder p) a) (wire16 (s.byteOrder p) b) present
          size text).send p tag) := by
  have form : holdFormOk text = true := decide_eq_true hl
  refine congrArg Host.Outcome.next ?_
  rw [form, State.request_admitted _ ha hr]

/-- A hold placed: its entry written and recorded, the files it matches returned (R93). -/
def State.withHold (s : State) (p : PortId) (k : Fin 32) (h : Hold) : State :=
  (({ s with holds := s.holds.set k h }).record .holdPlaced (some p) (.index k.val) 0).returnHeld h

theorem State.withHold_eq (k : Fin 32) (h : Hold) :
    s.withHold p k h
      = { s with
          files := (s.withHold p k h).files
          holds := s.holds.set k h
          trail := s.trail.append s.stamp .holdPlaced (some p) (.index k.val) 0 } := State.returnHeld_eq _ h

theorem State.file_withHold (k : Fin 32) (h : Hold) (canonical : s.canonical = true) (i : Nat) :
    (s.withHold p k h).file i
      = (s.file i).map (fun f =>
        if f.state = .expiring ∧ h.covers f.switchId f.fileDay = true then { f with state := .accepted } else f) := by
  obtain ⟨-, files, -, -, -⟩ := (State.canonical_iff s).mp canonical
  exact State.file_returnHeld (s := State.record { s with holds := s.holds.set k h } ..) h files i

theorem State.placeHoldTested_places {h : Hold} {k : Fin 32} (free : s.freeHold = some k)
    (room : s.trail.entries.length < 128) : s.placeHoldTested p h = .ok (.holdPlaced k.val) (s.withHold p k h) := by
  simp only [State.placeHoldTested, free, State.trailRoom_of_lt room, if_true, State.withHold]

theorem State.placeHoldTested_none {h : Hold} (full : s.freeHold = none) :
    s.placeHoldTested p h = .refusal .noFreeHold s := by simp only [State.placeHoldTested, full]

theorem State.placeHoldTested_trailFull {h : Hold} {k : Fin 32} (free : s.freeHold = some k)
    (full : 128 ≤ s.trail.entries.length) : s.placeHoldTested p h = .refusal .trailFull s := by
  simp only [State.placeHoldTested, free, State.trailRoom_of_le full, Bool.false_eq_true, if_false]

theorem exec_placeHold_refused (ha : s.admits p tag) (hr : (s.roles p).admin = true) {w a b : Wire16}
    {present size : Byte} {text : List Byte} {status : Status} (hl : text.length = 16)
    (h : s.placeHold p (wire16 (s.byteOrder p) w) (wire16 (s.byteOrder p) a) (wire16 (s.byteOrder p) b) present size text
      = .refusal status s) :
    exec (.placeHold p tag w a b present size text) s = .next (s.refuse p tag status) := by
  rw [exec_placeHold ha hr w a b present size hl, h]
  rfl

theorem exec_releaseHold (ha : s.admits p tag) (hr : (s.roles p).admin = true) (hold : Byte) :
    exec (.releaseHold p tag hold) s = .next ((s.releaseHold p hold).send p tag) :=
  congrArg Host.Outcome.next (State.request_admitted _ ha hr)

/-- RELEASE HOLD of an entry by the entry's state and the room of the trail. -/
theorem State.releaseHold_eq (k : Fin 32) :
    s.releaseHold p (BitVec.ofNat 8 k.val)
      = if s.holds[k].active = false then .refusal .wrongState s
        else if s.trailRoom then
          .ok .empty (({ s with holds := s.holds.set k {} }).record .holdReleased (some p) (.index k.val) 0)
        else .refusal .trailFull s := by
  simp only [State.releaseHold, readIndex_ofNat (by decide) k, Bool.not_eq_true']

/-! ## CLEAR DISPUTE and ACCEPT LOSS (R105, R106) -/

variable {w q i : Nat} {f : File}

theorem exec_clearDispute (ha : s.admits p tag) (hr : (s.roles p).admin = true) (w q : Wire16) :
    exec (.clearDispute p tag w q) s
      = .next ((s.clearDisputeOf p (wire16 (s.byteOrder p) w) (wire16 (s.byteOrder p) q)).send p tag) :=
  congrArg Host.Outcome.next (State.request_admitted _ ha hr)

theorem exec_acceptLoss (ha : s.admits p tag) (hr : (s.roles p).admin = true) (w q : Wire16) :
    exec (.acceptLoss p tag w q) s
      = .next ((s.acceptLossOf p (wire16 (s.byteOrder p) w) (wire16 (s.byteOrder p) q)).send p tag) :=
  congrArg Host.Outcome.next (State.request_admitted _ ha hr)

/-- A switch out of range is refused before the file is looked for. -/
theorem State.disputeAndLoss_range (hw : 1023 < w) :
    s.clearDisputeOf p w q = .refusal .badRequest s ∧ s.acceptLossOf p w q = .refusal .badRequest s := by
  simp only [State.clearDisputeOf, State.acceptLossOf, upTo_eq_none.mpr hw, and_self]

theorem State.disputeAndLoss_none (hw : w ≤ 1023) (hn : s.findFile w q = none) :
    s.clearDisputeOf p w q = .refusal .noFile s ∧ s.acceptLossOf p w q = .refusal .noFile s := by
  simp only [State.clearDisputeOf, State.acceptLossOf, upTo_eq_some.mpr ⟨hw, rfl⟩, hn, and_self]

/-- CLEAR DISPUTE of a held file by its state and the room of the trail. -/
theorem State.clearDisputeOf_held (hw : w ≤ 1023) (hn : s.findFile w q = some (i, f)) (hf : s.file i = some f) :
    s.clearDisputeOf p w q
      = if f.state = .disputed then
          if s.trailRoom then
            .ok .empty ((s.record .disputeCleared (some p) (f.subject i) f.recordCount).setFile i
              { f with state := .accepted, reasons := {} })
          else .refusal .trailFull s
        else .refusal .wrongState s := by
  have kept : (s.record .disputeCleared (some p) (f.subject i) f.recordCount).file i = some f := hf
  by_cases disputed : f.state = .disputed
  · simp [State.clearDisputeOf, upTo_eq_some.mpr ⟨hw, rfl⟩, hn, State.clearDispute, kept, disputed]
  · simp [State.clearDisputeOf, upTo_eq_some.mpr ⟨hw, rfl⟩, hn, disputed]

/-- ACCEPT LOSS of a held file by its state, its loss and the room of the trail. -/
theorem State.acceptLossOf_held (hw : w ≤ 1023) (hn : s.findFile w q = some (i, f)) (hf : s.file i = some f) :
    s.acceptLossOf p w q
      = if f.state = .ingesting then .refusal .wrongState s
        else if f.lossAccepted then .ok .empty s
        else if s.trailRoom then
          .ok .empty ((s.record .lossAccepted (some p) (f.subject i) f.recordCount).setFile i
            { f with lossAccepted := true })
        else .refusal .trailFull s := by
  have kept : (s.record .lossAccepted (some p) (f.subject i) f.recordCount).file i = some f := hf
  by_cases ingesting : f.state = .ingesting
  · simp [State.acceptLossOf, upTo_eq_some.mpr ⟨hw, rfl⟩, hn, ingesting]
  · simp [State.acceptLossOf, upTo_eq_some.mpr ⟨hw, rfl⟩, hn, State.acceptLoss, kept, ingesting]

end

end Sys2Proof.Machine

/-- Settles O45: PLACE HOLD through its arguments in range or not, the lowest FREE entry and the files the hold returns;
RELEASE HOLD through the entry's state and the trail's room. -/
theorem holdsPlacedAndReleased : Obligations.HoldsPlacedAndReleased := by
  unfold Obligations.HoldsPlacedAndReleased
  intro s p tag k ha hr
  refine ⟨?_, ?_, fun active room => ?_, fun active full => ?_, fun free => ?_, fun hold above => ?_⟩
  · intro w a b present size text selector label canonical hl room hw hlabel hab hb free lowest
    refine ⟨(s.withHold p k { active := true, selector := selector, firstDay := wire16 (s.byteOrder p) a
                              lastDay := wire16 (s.byteOrder p) b, placingPort := p, label := label }).files,
      ?_, fun i => ?_⟩
    · rw [exec_placeHold ha hr w a b present size hl, State.placeHold_inRange hw hlabel hab hb,
        State.placeHoldTested_places (State.freeHold_eq_some free lowest) room, Answer.ok, Answer.send, State.withHold_eq]
    · rw [← State.file, State.file_withHold k _ canonical]
      simp only [Hold.covers_iff, true_and]
  · intro w a b present size text hl refused bad
    refine ⟨fun h => exec_placeHold_refused ha hr hl (State.placeHold_outOfRange h), fun h full => ?_,
      fun h free full => ?_⟩
    all_goals
      obtain ⟨⟨selector, hw⟩, ⟨label, hlabel⟩, hab, hb⟩ := hold_inRange h
      refine exec_placeHold_refused ha hr hl ((State.placeHold_inRange hw hlabel hab hb).trans ?_)
    · exact State.placeHoldTested_none (State.freeHold_eq_none full)
    · obtain ⟨j, hj⟩ := State.freeHold_isSome free
      exact State.placeHoldTested_trailFull hj full
  · rw [exec_releaseHold ha hr, State.releaseHold_eq, if_neg (by rw [active]; nofun),
      if_pos (State.trailRoom_of_lt room)]
    rfl
  · rw [exec_releaseHold ha hr, State.releaseHold_eq, if_neg (by rw [active]; nofun),
      if_neg (by rw [State.trailRoom_of_le full]; nofun)]
    rfl
  · rw [exec_releaseHold ha hr, State.releaseHold_eq, if_pos free]
    rfl
  · rw [exec_releaseHold ha hr, State.releaseHold, readIndex_eq_none above]
    rfl

/-- Settles O48: each request through the answer its owning block gives, by the switch, the file found and its state. -/
theorem disputesAndLossesSettled : Obligations.DisputesAndLossesSettled := by
  unfold Obligations.DisputesAndLossesSettled
  intro s p tag w q ha wn qn
  refine ⟨fun hr => ⟨?_, ?_⟩, fun hr => ?_⟩
  · exact congrArg Host.Outcome.next (State.request_notPermitted _ ha hr)
  · exact congrArg Host.Outcome.next (State.request_notPermitted _ ha hr)
  rw [exec_clearDispute ha hr, exec_acceptLoss ha hr]
  refine ⟨fun hw => ?_, fun hw hn => ?_, fun i f hw hn hf => ?_⟩
  · obtain ⟨dispute, loss⟩ := State.disputeAndLoss_range (s := s) (p := p) (q := qn) hw
    exact ⟨by rw [dispute]; rfl, by rw [loss]; rfl⟩
  · obtain ⟨dispute, loss⟩ := State.disputeAndLoss_none (p := p) hw hn
    exact ⟨by rw [dispute]; rfl, by rw [loss]; rfl⟩
  · rw [State.clearDisputeOf_held hw hn hf, State.acceptLossOf_held hw hn hf]
    refine ⟨fun other => ?_, fun disputed full => ?_, fun disputed room => ?_, fun ingesting => ?_,
      fun other lost => ?_, fun other kept full => ?_, fun other kept room => ?_⟩
    · rw [if_neg other]
      rfl
    · rw [if_pos disputed, if_neg (by rw [State.trailRoom_of_le full]; nofun)]
      rfl
    · rw [if_pos disputed, if_pos (State.trailRoom_of_lt room)]
      rfl
    · rw [if_pos ingesting]
      rfl
    · rw [if_neg other, if_pos lost]
      rfl
    · rw [if_neg other, if_neg (by rw [kept]; nofun), if_neg (by rw [State.trailRoom_of_le full]; nofun)]
      rfl
    · rw [if_neg other, if_neg (by rw [kept]; nofun), if_pos (State.trailRoom_of_lt room)]
      rfl
end

section
/-! PROOFS. The expiry pass: its controls and its visits: O46 and O47. -/

open Sys2Proof Sys2Proof.Machine
namespace Sys2Proof.Machine

section
variable {s t : State} {p : PortId} {tag : Byte} {i : Nat} {f : File}

/-! ## The expiry requests (R96, R101, R102) -/

theorem exec_expireNow (ha : s.admits p tag) (hr : (s.roles p).admin = true) :
    exec (.expireNow p tag) s = .next (s.expireNow.send p tag) :=
  congrArg Host.Outcome.next (State.request_admitted _ ha hr)

theorem exec_pauseExpiry (ha : s.admits p tag) (hr : (s.roles p).admin = true) :
    exec (.pauseExpiry p tag) s = .next (s.pauseExpiry.send p tag) :=
  congrArg Host.Outcome.next (State.request_admitted _ ha hr)

theorem exec_resumeExpiry (ha : s.admits p tag) (hr : (s.roles p).admin = true) :
    exec (.resumeExpiry p tag) s = .next (s.resumeExpiry.send p tag) :=
  congrArg Host.Outcome.next (State.request_admitted _ ha hr)

theorem State.clockIsSet_iff : s.clockIsSet = true ↔ s.clock.state ≠ .unset := decide_eq_true_iff

theorem State.expireNow_unset (h : s.clock.state = .unset) : s.expireNow = .refusal .clockUnset s :=
  if_neg fun set => State.clockIsSet_iff.mp set h

theorem State.expireNow_begins (h : s.clock.state ≠ .unset) (idle : s.pass.state = .idle) :
    s.expireNow = .ok (.expireOutcome false) { s with pass := s.pass.begin } := by
  have set := State.clockIsSet_iff.mpr h
  simp only [State.expireNow, State.startCause, set, idle, ne_eq, not_true_eq_false, decide_false, and_self, if_true]

theorem State.expireNow_again (h : s.clock.state ≠ .unset) (busy : s.pass.state ≠ .idle) :
    s.expireNow = .ok (.expireOutcome true) { s with pass := { s.pass with again := true } } := by
  have set := State.clockIsSet_iff.mpr h
  simp only [State.expireNow, State.startCause, set, busy, ne_eq, not_false_eq_true, decide_true, false_and, if_false,
    if_true]

/-- A pause takes a pass in progress to PAUSED, whether it walks, waits or is paused already (R101). -/
theorem State.pauseExpiry_eq :
    s.pauseExpiry
      = .ok .empty { s with
          pass := { s.pass with paused := true, state := if s.pass.state = PassState.idle then .idle else .paused }
          passWoken := false } := by
  unfold State.pauseExpiry
  cases s.pass.state <;> rfl

theorem State.resumeExpiry_other (h : s.pass.state ≠ .paused) :
    s.resumeExpiry = .ok .empty { s with pass := { s.pass with paused := false } } := by
  simp only [State.resumeExpiry, h, if_false]

theorem State.resumeExpiry_paused (h : s.pass.state = .paused) :
    s.resumeExpiry = .ok .empty ({ s with pass := { s.pass with paused := false } } : State).walkAgain := by
  simp only [State.resumeExpiry, h, if_true]

theorem State.passVisit_other (h : s.pass.state ≠ .walking) : s.passVisit = s := if_neg h

theorem State.passRetry_other (h : ¬(s.pass.state = .waitingTrail ∧ s.passWoken = true)) : s.passRetry = s := if_neg h

/-- An internal event that changes nothing changes nothing, with supply or without. -/
theorem State.event_none {g : State → State} (h : g s = s) : s.event g = s := by
  unfold State.event
  split
  · exact h
  · rfl

/-! ## Eligibility and the reclaim step (R91, R92, R98) -/

/-- A file that an ACTIVE hold matches. -/
theorem State.isHeld_iff :
    s.isHeld f = true ↔ ∃ k : Fin 32, s.holds[k].active = true
      ∧ (s.holds[k].selector = none ∨ s.holds[k].selector = some f.switchId)
      ∧ s.holds[k].firstDay ≤ f.fileDay ∧ f.fileDay ≤ s.holds[k].lastDay := by
  simp only [State.isHeld, List.any_eq_true, Vector.mem_toList_iff, Vector.mem_iff_getElem, ← Hold.covers_iff]
  constructor
  · rintro ⟨-, ⟨k, hk, rfl⟩, matched⟩
    exact ⟨⟨k, hk⟩, matched⟩
  · rintro ⟨k, matched⟩
    exact ⟨_, ⟨k.val, k.isLt, rfl⟩, matched⟩

/-- R91, but for the file's state: the clock is set, the class has a retention and it has run, no hold matches, and no
loss stands unaccepted. -/
theorem State.dueToExpire_iff :
    s.dueToExpire f = true ↔ s.clock.state ≠ .unset ∧ s.retentionOf f.retentionClass ≠ 0
      ∧ f.fileDay + s.retentionOf f.retentionClass ≤ s.clock.value / 86400
      ∧ (∀ k : Fin 32, ¬(s.holds[k].active = true
          ∧ (s.holds[k].selector = none ∨ s.holds[k].selector = some f.switchId)
          ∧ s.holds[k].firstDay ≤ f.fileDay ∧ f.fileDay ≤ s.holds[k].lastDay))
      ∧ (f.suspectCount = 0 ∨ f.lossAccepted = true) := by
  rw [← not_exists, ← State.isHeld_iff, ← State.clockIsSet_iff]
  simp only [State.dueToExpire, Bool.and_eq_true, Bool.or_eq_true, Bool.not_eq_true', Bool.not_eq_true,
    decide_eq_true_eq, and_assoc]
  rfl

/-- The record of an expiry and the release of its file. -/
def State.expired (s : State) (i : Nat) (f : File) : State :=
  (s.record .fileExpired none (f.subject i) f.recordCount).releaseFile i f

theorem State.reclaimStep_returns (hf : s.file i = some f) (hs : f.state = .expiring) (hd : s.dueToExpire f = false) :
    s.reclaimStep i f = (.returned, s.setFile i { f with state := .accepted }) := by
  simp [State.reclaimStep, hd, State.returnAccepted, hf, hs]

theorem State.reclaimStep_reclaims (hf : s.file i = some f) (hs : f.state = .expiring) (hp : f.pinCount = 0)
    (hd : s.dueToExpire f = true) (ht : s.trail.entries.length < 128) :
    s.reclaimStep i f = (.reclaimed, s.expired i f) := by
  have kept : (s.record .fileExpired none (f.subject i) f.recordCount).file i = some f := hf
  simp [State.reclaimStep, hd, State.trailRoom_of_lt ht, State.reclaimFile, kept, hs, hp, State.expired]

theorem State.reclaimStep_waits (hd : s.dueToExpire f = true) (ht : 128 ≤ s.trail.entries.length) :
    s.reclaimStep i f = (.trailFull, s) := by
  simp [State.reclaimStep, hd, State.trailRoom_of_le ht]

/-! ## The position moves on (R97, R99, R100) -/

/-- The pass waits at its index for trail room (R99). -/
def Pass.waits (q : Pass) : Pass := { q with state := .waitingTrail }

/-- A visit done, field by field: the position rises by 1; behind the last index the pass ends, or begins anew. -/
theorem Pass.visited_eq (q : Pass) :
    q.visited
      = { q with
          state := if q.position < 131071 then q.state
            else if q.again then (if q.paused then .paused else .walking) else .idle
          position := if q.position < 131071 then q.position + 1 else 0
          again := if q.position < 131071 then q.again else false } := by
  have last : q.position + 1 < Config.fileEntries ↔ q.position < 131071 := Nat.succ_lt_succ_iff
  unfold Pass.visited Pass.begin
  by_cases below : q.position < 131071
  · simp [last, below]
  · cases q.again <;> simp [last, below]

/-- The state of the pass behind a visit at its position. -/
def Pass.nextState (q : Pass) : PassState :=
  if q.position < 131071 then .walking else if q.again then (if q.paused then .paused else .walking) else .idle

theorem Pass.nextState_ne (q : Pass) : q.nextState ≠ .waitingTrail := by
  unfold Pass.nextState
  repeat' split
  all_goals nofun

/-- A walking pass behind a visit done. It would keep its position only if it waited for trail room, and it does not. -/
theorem Pass.visited_walking {q : Pass} (h : q.state = .walking) :
    q.visited
      = { q with
          state := q.nextState
          position := if q.nextState = .waitingTrail then q.position else if q.position < 131071 then q.position + 1 else 0
          again := if q.position < 131071 then q.again else false } := by
  rw [Pass.visited_eq, h, if_neg q.nextState_ne, Pass.nextState]

/-- A pass resumed, behind a visit done: it is paused no more, so a pass begun anew walks (R95, R102). -/
theorem Pass.visited_resumed (q : Pass) :
    ({ q with state := .walking, paused := false } : Pass).visited
      = { q with
          state := if q.nextState = .paused then .walking else q.nextState
          position := if q.nextState = .waitingTrail then q.position else if q.position < 131071 then q.position + 1 else 0
          again := if q.position < 131071 then q.again else false
          paused := false } := by
  rw [Pass.visited_eq, if_neg q.nextState_ne, Pass.nextState]
  by_cases below : q.position < 131071
  · simp [below]
  · cases q.again <;> cases q.paused <;> simp [below]

/-! ## One visit, whatever the rest of the pass (R97) -/

/-- The state at another pass state and another mark of the waking. -/
def State.atPass (s : State) (q : Pass) (woken : Bool) : State := { s with pass := q, passWoken := woken }

/-- A visit of the pass at index `i` leaves `t` with the pass gone on by `next`, whatever the rest of the pass and the
mark of the waking. -/
structure State.VisitLeaves (s : State) (i : Nat) (t : State) (next : Pass → Pass) : Prop where
  visit : ∀ q woken, q.position = i → (s.atPass q woken).visit = t.atPass (next q) woken
  woken : t.passWoken = s.passWoken

theorem State.releaseFile_atPass (q : Pass) (woken : Bool) :
    (s.atPass q woken).releaseFile i f = (s.releaseFile i f).atPass q woken := by
  rw [State.releaseFile_eq (s := s) (t := s.atPass q woken) rfl rfl rfl rfl, State.releaseFile_eq (t := s) rfl rfl rfl rfl]
  rfl

theorem State.expired_atPass (q : Pass) (woken : Bool) :
    (s.atPass q woken).expired i f = (s.expired i f).atPass q woken :=
  State.releaseFile_atPass (s := s.record .fileExpired none (f.subject i) f.recordCount) q woken

theorem State.expired_passWoken : (s.expired i f).passWoken = s.passWoken := by
  rw [State.expired, (State.releaseFile_catalogueOnly _ i f).eq]
  rfl

theorem State.visitLeaves_free (hf : s.file i = none) : s.VisitLeaves i s Pass.visited := by
  refine ⟨?_, rfl⟩
  rintro q woken rfl
  have free : (s.atPass q woken).file (s.atPass q woken).pass.position = none := hf
  simp only [State.visit, free]
  rfl

/-- The visit of a held file, by the file's state. -/
theorem State.visit_held (hf : s.file s.pass.position = some f) :
    s.visit = match f.state with
      | .ingesting => s.passVisited
      | .disputed => s.passVisited
      | .expiring => s.visitExpiring s.pass.position f
      | .accepted => if s.dueToExpire f then
          (s.setFile s.pass.position { f with state := .expiring }).visitExpiring s.pass.position
            { f with state := .expiring }
        else s.passVisited := by
  unfold State.visit State.markExpiring
  cases hs : f.state <;> simp [hf, hs]

theorem State.visitLeaves_passesOver (hf : s.file i = some f)
    (h : f.state = .ingesting ∨ f.state = .disputed ∨ (f.state = .accepted ∧ s.dueToExpire f = false)
      ∨ (f.state = .expiring ∧ f.pinCount ≠ 0)) : s.VisitLeaves i s Pass.visited := by
  refine ⟨?_, rfl⟩
  rintro q woken rfl
  have due : (s.atPass q woken).dueToExpire f = s.dueToExpire f := rfl
  rw [State.visit_held (s := s.atPass q woken) hf]
  rcases h with hs | hs | ⟨hs, hd⟩ | ⟨hs, hp⟩
  · rw [hs]; rfl
  · rw [hs]; rfl
  · rw [hs]; simp only [due, hd]; rfl
  · rw [hs]; exact if_neg hp

/-- An EXPIRING file without pins is visited through the reclaim step: any outcome but a full trail moves the pass on. -/
theorem State.visitExpiring_moves {r : Reclaim} {u : State} (hp : f.pinCount = 0) (h : s.reclaimStep i f = (r, u))
    (hr : r ≠ .trailFull) : s.visitExpiring i f = u.passVisited := by
  rw [State.visitExpiring, if_pos hp, h]
  cases r with
  | trailFull => exact absurd rfl hr
  | returned => rfl
  | reclaimed => rfl

theorem State.visitExpiring_waits (hp : f.pinCount = 0) (hd : s.dueToExpire f = true)
    (ht : 128 ≤ s.trail.entries.length) : s.visitExpiring i f = { s with pass := s.pass.waits } := by
  rw [State.visitExpiring, if_pos hp, State.reclaimStep_waits hd ht]
  rfl

theorem State.visitLeaves_returns (hf : s.file i = some f) (hs : f.state = .expiring) (hp : f.pinCount = 0)
    (hd : s.dueToExpire f = false) :
    s.VisitLeaves i (s.setFile i { f with state := .accepted }) Pass.visited := by
  refine ⟨?_, rfl⟩
  rintro q woken rfl
  rw [State.visit_held (s := s.atPass q woken) hf, hs]
  exact State.visitExpiring_moves hp (State.reclaimStep_returns (s := s.atPass q woken) hf hs hd) nofun

theorem State.visitLeaves_reclaims (hf : s.file i = some f) (hs : f.state = .expiring) (hp : f.pinCount = 0)
    (hd : s.dueToExpire f = true) (ht : s.trail.entries.length < 128) :
    s.VisitLeaves i (s.expired i f) Pass.visited := by
  refine ⟨?_, State.expired_passWoken⟩
  rintro q woken rfl
  rw [State.visit_held (s := s.atPass q woken) hf, hs]
  refine (State.visitExpiring_moves hp (State.reclaimStep_reclaims (s := s.atPass q woken) hf hs hp hd ht) nofun).trans ?_
  exact congrArg State.passVisited (State.expired_atPass q woken)

theorem State.visitLeaves_waits (hf : s.file i = some f) (hs : f.state = .expiring) (hp : f.pinCount = 0)
    (hd : s.dueToExpire f = true) (ht : 128 ≤ s.trail.entries.length) : s.VisitLeaves i s Pass.waits := by
  refine ⟨?_, rfl⟩
  rintro q woken rfl
  rw [State.visit_held (s := s.atPass q woken) hf, hs]
  exact State.visitExpiring_waits (s := s.atPass q woken) hp hd ht

theorem State.file_setFile_same (s : State) (i : Nat) (f : File) : (s.setFile i f).file i = some f :=
  (s.file_setFile i i f).trans (if_pos rfl)

/-- A due ACCEPTED file is marked EXPIRING and visited as such in the same step. -/
theorem State.visitLeaves_marks {next : Pass → Pass} (hf : s.file i = some f) (hs : f.state = .accepted)
    (hd : s.dueToExpire f = true)
    (h : (s.setFile i { f with state := .expiring }).VisitLeaves i t next) : s.VisitLeaves i t next := by
  refine ⟨?_, h.woken⟩
  rintro q woken rfl
  have marked : ((s.setFile q.position { f with state := .expiring }).atPass q woken).file q.position
      = some { f with state := .expiring } := s.file_setFile_same _ _
  have due : (s.atPass q woken).dueToExpire f = true := hd
  rw [← h.visit q woken rfl, State.visit_held (s := s.atPass q woken) hf, hs,
    State.visit_held (s := (s.setFile q.position { f with state := .expiring }).atPass q woken) marked]
  exact if_pos due

theorem State.visitLeaves_pinned (hf : s.file i = some f) (hs : f.state = .accepted) (hd : s.dueToExpire f = true)
    (hp : f.pinCount ≠ 0) : s.VisitLeaves i (s.setFile i { f with state := .expiring }) Pass.visited :=
  State.visitLeaves_marks hf hs hd (State.visitLeaves_passesOver (s.file_setFile_same i _) (.inr (.inr (.inr ⟨rfl, hp⟩))))

/-! ## The three commands that visit (R97, R99, R102) -/

/-- PASS_VISIT visits in WALKING, PASS_TRAIL_RETRY in a woken WAITING_TRAIL, RESUME EXPIRY in PAUSED. -/
theorem State.VisitLeaves.execs {next : Pass → Pass} (h : s.VisitLeaves s.pass.position t next)
    (on : s.powered = true) :
    (s.pass.state = .walking → exec .passVisit s = .next { t with pass := next s.pass })
      ∧ (s.pass.state = .waitingTrail → s.passWoken = true → exec .passTrailRetry s
        = .next { t with passWoken := false, pass := next { s.pass with state := .walking } })
      ∧ (s.pass.state = .paused → ∀ p tag, s.admits p tag → (s.roles p).admin = true →
        exec (.resumeExpiry p tag) s
          = .next ({ t with pass := next { s.pass with state := .walking, paused := false } }.reply p tag .ok .empty)) := by
  refine ⟨fun walking => ?_, fun waiting awake => ?_, fun paused p tag ha hr => ?_⟩
  · have visit : s.visit = t.atPass (next s.pass) s.passWoken := h.visit s.pass s.passWoken rfl
    rw [show exec .passVisit s = .next (s.event State.passVisit) from rfl, State.event, if_pos on, State.passVisit,
      if_pos walking, visit, ← h.woken]
    rfl
  · rw [show exec .passTrailRetry s = .next (s.event State.passRetry) from rfl, State.event, if_pos on, State.passRetry,
      if_pos ⟨waiting, awake⟩]
    exact congrArg Host.Outcome.next (h.visit { s.pass with state := .walking } false rfl)
  · have visit : ({ s with pass := { s.pass with paused := false } } : State).walkAgain
        = t.atPass (next { s.pass with state := .walking, paused := false }) s.passWoken := h.visit _ s.passWoken rfl
    rw [exec_resumeExpiry ha hr, State.resumeExpiry_paused paused, visit, ← h.woken]
    rfl

end

end Sys2Proof.Machine

/-- Settles O46: the three requests through the answers of the Retention Unit, by the clock and the state of the pass. -/
theorem expiryControls : Obligations.ExpiryControls := by
  unfold Obligations.ExpiryControls
  intro s p tag
  refine ⟨fun ha hr => ⟨?_, ?_, ?_⟩, fun ha hr => ⟨fun unset => ?_, fun set idle => ?_, fun set busy => ?_, ?_,
    fun other => ?_⟩, fun paused => ⟨?_, ?_⟩, fun paused i => State.pinReleased_paused paused⟩
  · exact congrArg Host.Outcome.next (State.request_notPermitted _ ha hr)
  · exact congrArg Host.Outcome.next (State.request_notPermitted _ ha hr)
  · exact congrArg Host.Outcome.next (State.request_notPermitted _ ha hr)
  · rw [exec_expireNow ha hr, State.expireNow_unset unset]
    rfl
  · rw [exec_expireNow ha hr, State.expireNow_begins set idle]
    rfl
  · rw [exec_expireNow ha hr, State.expireNow_again set busy]
    rfl
  · rw [exec_pauseExpiry ha hr, State.pauseExpiry_eq]
    rfl
  · rw [exec_resumeExpiry ha hr, State.resumeExpiry_other other]
    rfl
  · exact congrArg Host.Outcome.next (State.event_none (State.passVisit_other (by rw [paused]; nofun)))
  · exact congrArg Host.Outcome.next (State.event_none (State.passRetry_other (by rw [paused]; nofun)))

/-- Settles O47: what a visit leaves does not depend on the rest of the pass, so each case of the file at the index is
shown once and read off for each of the three commands. -/
theorem passVisitsIndex : Obligations.PassVisitsIndex := by
  unfold Obligations.PassVisitsIndex
  intro s t i step onward due on
  have due_iff (f : File) : due f ↔ s.dueToExpire f = true := State.dueToExpire_iff.symm
  have notDue {f : File} (h : ¬due f) : s.dueToExpire f = false := Bool.eq_false_iff.mpr ((due_iff f).not.mp h)
  have moves {u : State} (h : s.VisitLeaves i u Pass.visited) (ht : t = u) :
      onward := by
    subst ht
    obtain ⟨visit, retry, resume⟩ := h.execs on
    refine ⟨fun walking => ?_, fun waiting awake => ?_, fun paused p tag ha hr => ?_⟩
    · rw [visit walking, Pass.visited_walking walking]
      rfl
    · rw [retry waiting awake, Pass.visited_walking rfl]
      rfl
    · rw [resume paused p tag ha hr, Pass.visited_resumed]
      rfl
  have waits {u : State} (h : s.VisitLeaves i u Pass.waits) (ht : t = u) :
      step .waitingTrail s.pass.again := by
    subst ht
    exact h.execs on
  refine ⟨fun _ asleep => ?_, fun hf => moves (State.visitLeaves_free hf), fun f hf => ⟨fun h => ?_,
    fun hs hd hp => ?_, fun hs hp hd => ?_, fun hs hp hd ht => ?_, fun hs hp hd ht => ?_, fun hs hp hd ht => ?_⟩⟩
  · exact congrArg Host.Outcome.next (State.event_none (State.passRetry_other (by rw [asleep]; nofun)))
  · exact moves (State.visitLeaves_passesOver hf (h.imp_right (.imp_right (.imp_left (.imp_right notDue)))))
  · exact moves (State.visitLeaves_pinned hf hs ((due_iff f).mp hd) hp)
  · exact moves (State.visitLeaves_returns hf hs hp (notDue hd))
  · exact moves (State.visitLeaves_reclaims hf hs hp ((due_iff f).mp hd) ht)
  · exact moves (State.visitLeaves_marks hf hs ((due_iff f).mp hd) (State.visitLeaves_reclaims
      (f := { f with state := .expiring }) (s.file_setFile_same i _) rfl hp ((due_iff f).mp hd) ht))
  · rcases hs with hs | hs
    · rw [if_pos hs]
      exact waits (State.visitLeaves_marks hf hs ((due_iff f).mp hd) (State.visitLeaves_waits
        (f := { f with state := .expiring }) (s.file_setFile_same i _) rfl hp ((due_iff f).mp hd) ht))
    · rw [if_neg (by rw [hs]; nofun)]
      exact waits (State.visitLeaves_waits hf hs hp ((due_iff f).mp hd) ht)
end

section
/-! PROOFS. The audit sweep's controls, looks and steps, and the logs fetched: O49, O50 and O52. -/

open Sys2Proof Sys2Proof.Machine
namespace Sys2Proof.Machine

section
variable {s : State} {p : PortId} {tag : Byte} {n : Nat}

/-! ## The requests of the audit role (R108, R119 to R122, R124, R130, R131) -/

theorem exec_setSweepSettings (ha : s.admits p tag) (hr : (s.roles p).audit = true) (w r : Wire16) (f : Byte) :
    exec (.setSweepSettings p tag w r f) s
      = .next ((s.setSweepSettings (wire16 (s.byteOrder p) w) (wire16 (s.byteOrder p) r) f).send p tag) :=
  congrArg Host.Outcome.next (State.request_admitted _ ha hr)

theorem exec_startSweep (ha : s.admits p tag) (hr : (s.roles p).audit = true) :
    exec (.startSweep p tag) s = .next (s.startSweep.send p tag) :=
  congrArg Host.Outcome.next (State.request_admitted _ ha hr)

theorem exec_stopSweep (ha : s.admits p tag) (hr : (s.roles p).audit = true) :
    exec (.stopSweep p tag) s = .next (s.stopSweep.send p tag) :=
  congrArg Host.Outcome.next (State.request_admitted _ ha hr)

theorem exec_restartSweep (ha : s.admits p tag) (hr : (s.roles p).audit = true) :
    exec (.restartSweep p tag) s = .next (s.restartSweep.send p tag) :=
  congrArg Host.Outcome.next (State.request_admitted _ ha hr)

theorem exec_stepSweep (ha : s.admits p tag) (hr : (s.roles p).audit = true) :
    exec (.stepSweep p tag) s = .next (s.stepSweep p tag) := by
  refine congrArg Host.Outcome.next ?_
  rw [State.receive_admitted _ ha, State.permit, if_pos hr]

theorem exec_fetchFindings (ha : s.admits p tag) (hr : (s.roles p).audit = true) :
    exec (.fetchFindings p tag) s = .next (s.fetchFindings.send p tag) :=
  congrArg Host.Outcome.next (State.request_admitted _ ha hr)

theorem exec_fetchTrail (ha : s.admits p tag) (hr : (s.roles p).audit = true) :
    exec (.fetchTrail p tag) s = .next (s.fetchTrail.send p tag) :=
  congrArg Host.Outcome.next (State.request_admitted _ ha hr)

theorem exec_ackTrail (ha : s.admits p tag) (hr : (s.roles p).audit = true) (q : Wire32) :
    exec (.ackTrail p tag q) s = .next ((s.ackTrail (wire32 (s.byteOrder p) q)).send p tag) :=
  congrArg Host.Outcome.next (State.request_admitted _ ha hr)

theorem exec_sweepLook (on : s.powered = true) : exec .sweepLook s = .next s.sweepLooks :=
  congrArg Host.Outcome.next (if_pos on)

theorem exec_sweepLogRoom (on : s.powered = true) : exec .sweepLogRoom s = .next s.logRoom :=
  congrArg Host.Outcome.next (if_pos on)

theorem exec_sweepRestExpiry (on : s.powered = true) : exec .sweepRestExpiry s = .next s.restExpiry :=
  congrArg Host.Outcome.next (if_pos on)

/-! ## Settings and control (R108, R119) -/

theorem State.setSweepSettings_yesNo (window rest : Nat) {f : Byte} (h : f = 0 ∨ f = 1) :
    s.setSweepSettings window rest f
      = .ok (.sweepSettings (max 1 (min window 4096)) (min rest 3600) (f = 1))
          { s with settings := { s.settings with
              window := max 1 (min window 4096), rest := min rest 3600, freeze := f = 1 } } := by
  rw [State.setSweepSettings, readYesNo_eq_some h]

theorem State.setSweepSettings_other (window rest : Nat) {f : Byte} (h : ¬(f = 0 ∨ f = 1)) :
    s.setSweepSettings window rest f = .refusal .badRequest s := by
  rw [State.setSweepSettings, readYesNo_eq_none h]

theorem State.startSweep_starts (h : s.sweep.state = .stopped ∨ s.sweep.state = .frozen) :
    s.startSweep = .ok .empty { s with
      sweep := { s.sweep with state := .active, visitsLeft := s.settings.window } } := if_pos h

/-- The sweep states in which START SWEEP and STEP SWEEP are refused STATE (R119, R121). -/
def SweepState.runs (w : SweepState) : Prop := w = .active ∨ w = .resting ∨ w = .waitingLog

theorem SweepState.runs_iff {w : SweepState} : w.runs ↔ ¬(w = .stopped ∨ w = .frozen) := by
  unfold SweepState.runs
  cases w <;> decide

theorem State.startSweep_runs (h : s.sweep.state.runs) : s.startSweep = .refusal .wrongState s :=
  if_neg (SweepState.runs_iff.mp h)

/-! ## The position (R109) -/

theorem Segment.visitable_iff {e : Segment} : e.visitable = true ↔ e.state = .stored ∨ e.state = .suspect := by
  simp only [Segment.visitable, Bool.or_eq_true, decide_eq_true_eq]

theorem Sweep.advance_eq (w : Sweep) (n : Nat) :
    w.advance n = { w with
      position := if n < 262143 then n + 1 else 0
      cycles := if n < 262143 then w.cycles else (w.cycles + 1) % 4294967296 } := by
  have last : n + 1 < Config.segmentNumbers ↔ n < 262143 := Nat.succ_lt_succ_iff
  unfold Sweep.advance advancePosition
  simp only [last]
  by_cases h : n < 262143 <;> simp only [h, if_true, if_false]

/-- With no place reserved, 3 places of the Finding Log are free up to 29 findings (R110, R123). -/
theorem State.visitPlaces_le_findingPlaces (unreserved : s.sweep.reserved = 0) :
    Config.visitPlaces ≤ s.findingPlaces ↔ s.findings.length ≤ 29 := by
  unfold State.findingPlaces Config.findingEntries Config.visitPlaces
  omega

/-! ## A visit begins (R110) -/

/-- The sweep read of a segment asked for: in progress on an idle store, else waiting (R87). -/
def StorePort.asked (q : StorePort) (n : Nat) : StorePort :=
  if q.current = none then { q with current := some (.sweep n) } else { q with sweep := some n }

theorem State.askSweep_eq (unasked : s.storePort.sweep = none)
    (idle : s.storePort.current = none → s.storePort.writes = [] ∧ s.storePort.reads = []) :
    s.askSweep n = { s with storePort := s.storePort.asked n } := by
  unfold State.askSweep StorePort.asked
  cases free : s.storePort.current with
  | none =>
    obtain ⟨noWrite, noRead⟩ := idle free
    have started := State.startStore_sweep (s := { s with storePort := { s.storePort with sweep := some n } })
      free noWrite noRead rfl
    rw [started, if_pos rfl, ← unasked]
  | some op =>
    rw [State.startStore_busy (Option.isSome_of_eq_some (by exact free)), if_neg nofun, ← free]

/-- A sweep that has begun a visit of the segment `e`, whose number is `n`; a paced one counts it (R110). -/
def Sweep.begun (w : Sweep) (n : Nat) (e : Segment) (kind : VisitKind) : Sweep :=
  { w with
    state := if kind = .paced then .active else w.state
    visitsLeft := if kind = .paced then w.visitsLeft - 1 else w.visitsLeft
    reserved := 3
    visit := some { segment := n, allocation := e.allocation, fileIndex := e.fileIndex, kind } }

/-- The state in which the sweep `w` has begun a visit of segment `n` and asked for its read (R110). -/
def State.begun (s : State) (w : Sweep) (n : Nat) (kind : VisitKind) : State :=
  { s with sweep := w.begun n (s.segment n) kind, storePort := s.storePort.asked n }

section
variable (unasked : s.storePort.sweep = none)
  (idle : s.storePort.current = none → s.storePort.writes = [] ∧ s.storePort.reads = [])
include unasked idle

theorem State.beginVisit_step (w : Sweep) (n : Nat) (p : PortId) (tag : Byte) :
    ({ s with sweep := w } : State).beginVisit n (.step p tag) = s.begun w n (.step p tag) :=
  State.askSweep_eq unasked idle

theorem State.beginVisit_paced {w : Sweep} (active : w.state = .active) (n : Nat) :
    ({ s with sweep := { w with visitsLeft := w.visitsLeft - 1 } } : State).beginVisit n .paced
      = s.begun w n .paced := by
  rw [State.begun, Sweep.begun, if_pos rfl, ← active]
  exact State.askSweep_eq unasked idle

/-! ## A look (R109, R110) -/

theorem State.lookSegment_begins (active : s.sweep.state = .active) (unreserved : s.sweep.reserved = 0)
    (here : s.sweep.position = n) (visitable : (s.segment n).visitable = true) (room : s.findings.length ≤ 29) :
    s.lookSegment = s.begun s.sweep n .paced := by
  subst here
  rw [State.lookSegment, if_neg (by rw [visitable]; nofun),
    if_pos ((State.visitPlaces_le_findingPlaces unreserved).mpr room)]
  exact State.beginVisit_paced unasked idle active _

end

theorem State.lookSegment_passes (here : s.sweep.position = n) (other : ¬(s.segment n).visitable = true) :
    s.lookSegment = { s with
      sweep := { s.sweep with
        position := if n < 262143 then n + 1 else 0
        cycles := if n < 262143 then s.sweep.cycles else (s.sweep.cycles + 1) % 4294967296 } } := by
  subst here
  rw [State.lookSegment, if_pos (by rw [Bool.eq_false_iff.mpr other]; rfl), Sweep.advance_eq]

theorem State.lookSegment_waits (unreserved : s.sweep.reserved = 0) (here : s.sweep.position = n)
    (visitable : (s.segment n).visitable = true) (full : 29 < s.findings.length) :
    s.lookSegment = { s with sweep := { s.sweep with state := .waitingLog } } := by
  subst here
  rw [State.lookSegment, if_neg (by rw [visitable]; nofun),
    if_neg ((State.visitPlaces_le_findingPlaces unreserved).not.mpr (Nat.not_le.mpr full))]

theorem State.sweepLooks_looks (active : s.sweep.state = .active) (noVisit : s.sweep.visit = none)
    (left : 0 < s.sweep.visitsLeft) : s.sweepLooks = s.lookSegment :=
  if_pos ⟨active, by rw [noVisit]; rfl, left⟩

/-- Log room brings a WAITING_LOG sweep back to ACTIVE, and it looks (R110). -/
theorem State.logRoom_looks (waiting : s.sweep.state = .waitingLog) (noVisit : s.sweep.visit = none)
    (unreserved : s.sweep.reserved = 0) (left : 0 < s.sweep.visitsLeft) (room : s.findings.length ≤ 29) :
    s.logRoom = ({ s with sweep := { s.sweep with state := .active } } : State).lookSegment := by
  rw [State.logRoom, if_pos ⟨waiting, (State.visitPlaces_le_findingPlaces unreserved).mpr room⟩]
  exact State.sweepLooks_looks rfl noVisit left

theorem State.logRoom_full (unreserved : s.sweep.reserved = 0) (full : 29 < s.findings.length) : s.logRoom = s :=
  if_neg fun h => Nat.not_le.mpr full ((State.visitPlaces_le_findingPlaces unreserved).mp h.2)

theorem State.logRoom_other (h : s.sweep.state ≠ .waitingLog) : s.logRoom = s := if_neg fun waiting => h waiting.1

theorem State.restExpiry_due (resting : s.sweep.state = .resting) (due : s.sweep.rest = .due) :
    s.restExpiry = { s with
      sweep := { s.sweep with state := .active, visitsLeft := s.settings.window, rest := .stopped } } :=
  if_pos ⟨resting, due⟩

/-! ## The next segment a STEP SWEEP visits (R109, R121) -/

section
variable {m : Sparse Segment} {k limit : Nat}

/-- The entries among which the walk takes the first: those listed that the sweep visits, in a range of keys. -/
def visitableEntries (m : Sparse Segment) (n limit : Nat) : Sparse Segment :=
  m.filter (fun e => n ≤ e.1 ∧ e.1 < limit ∧ e.2.visitable)

theorem nextVisitable_eq (m : Sparse Segment) (n limit : Nat) :
    nextVisitable m n limit = (visitableEntries m n limit).head?.map Prod.fst := rfl

theorem mem_visitableEntries (wf : Sparse.wf {} m = true) {e : Segment} :
    (k, e) ∈ visitableEntries m n limit ↔ Sparse.get {} k m = e ∧ n ≤ k ∧ k < limit ∧ e.visitable = true := by
  have listed : e.visitable = true → e ≠ {} := by
    rintro visitable rfl
    revert visitable
    decide
  simp only [visitableEntries, List.mem_filter, decide_eq_true_eq, Sparse.mem_iff wf]
  tauto

theorem nextVisitable_none (wf : Sparse.wf {} m = true)
    (h : ∀ j, n ≤ j → j < limit → ¬(Sparse.get {} j m).visitable = true) : nextVisitable m n limit = none := by
  have empty : visitableEntries m n limit = [] := by
    refine List.eq_nil_iff_forall_not_mem.mpr fun ⟨j, e⟩ mem => ?_
    obtain ⟨rfl, low, high, visitable⟩ := (mem_visitableEntries wf).mp mem
    exact h j low high visitable
  rw [nextVisitable_eq, empty]
  rfl

theorem nextVisitable_some (wf : Sparse.wf {} m = true) (low : n ≤ k) (high : k < limit)
    (visitable : (Sparse.get {} k m).visitable = true)
    (first : ∀ j, n ≤ j → j < k → ¬(Sparse.get {} j m).visitable = true) : nextVisitable m n limit = some k := by
  have mem : (k, Sparse.get {} k m) ∈ visitableEntries m n limit :=
    (mem_visitableEntries wf).mpr ⟨rfl, low, high, visitable⟩
  have rising : (visitableEntries m n limit).Pairwise (fun a b => a.1 < b.1) :=
    (List.pairwise_map.mp (Sparse.wf_iff.mp wf).1).filter _
  rw [nextVisitable_eq]
  cases entries : visitableEntries m n limit with
  | nil =>
    rw [entries] at mem
    cases mem
  | cons head rest =>
    obtain ⟨j, e⟩ := head
    rw [entries] at mem rising
    refine congrArg some ?_
    rcases List.mem_cons.mp mem with same | later
    · exact (congrArg Prod.fst same).symm
    · have below : j < k := List.rel_of_pairwise_cons rising later
      have mem_head : (j, e) ∈ visitableEntries m n limit := entries ▸ List.mem_cons_self
      obtain ⟨rfl, from_n, -, visits⟩ := (mem_visitableEntries wf).mp mem_head
      exact absurd visits (first j from_n below)

end

section
variable {position : Nat} (wf : Sparse.wf {} s.segments = true)
include wf

theorem State.findVisitable_ahead (low : position ≤ n) (high : n ≤ 262143) (visitable : (s.segment n).visitable = true)
    (first : ∀ k, position ≤ k → k < n → ¬(s.segment k).visitable = true) :
    s.findVisitable position = some (n, false) := by
  rw [State.findVisitable, nextVisitable_some wf low (Nat.lt_succ_of_le high) visitable first]

theorem State.findVisitable_round (behind : n < position) (visitable : (s.segment n).visitable = true)
    (first : ∀ k, k < n ∨ (position ≤ k ∧ k ≤ 262143) → ¬(s.segment k).visitable = true) :
    s.findVisitable position = some (n, true) := by
  rw [State.findVisitable,
    nextVisitable_none wf fun k low high => first k (.inr ⟨low, Nat.le_of_lt_succ high⟩),
    nextVisitable_some wf n.zero_le behind visitable fun k _ below => first k (.inl below)]
  rfl

theorem State.findVisitable_none (inStore : position ≤ 262143)
    (free : ∀ k, k ≤ 262143 → ¬(s.segment k).visitable = true) : s.findVisitable position = none := by
  rw [State.findVisitable, nextVisitable_none wf fun k _ high => free k (Nat.le_of_lt_succ high),
    nextVisitable_none wf fun k _ high => free k (by omega)]
  rfl

end

/-! ## STEP SWEEP (R121) -/

theorem State.stepSweep_barred {status : Status} (h : s.stepBar = some status) :
    s.stepSweep p tag = s.refuse p tag status := by
  rw [State.stepSweep, h]

theorem State.stepBar_runs (h : s.sweep.state.runs) : s.stepBar = some .wrongState := if_pos h

theorem State.stepBar_visit (h : s.sweep.visit.isSome = true) : s.stepBar = some .wrongState := by
  simp only [State.stepBar, h, if_true, ite_self]

section
variable (still : s.sweep.state = .stopped ∨ s.sweep.state = .frozen) (noVisit : s.sweep.visit = none)
  (unreserved : s.sweep.reserved = 0)
include still noVisit unreserved

theorem State.stepBar_still :
    s.stepBar = if 29 < s.findings.length then some .logFull else none := by
  have full : s.findingPlaces < Config.visitPlaces ↔ 29 < s.findings.length := by
    rw [← Nat.not_le, State.visitPlaces_le_findingPlaces unreserved, Nat.not_le]
  have stands : ¬s.sweep.state.runs := fun runs => SweepState.runs_iff.mp runs still
  rw [SweepState.runs] at stands
  simp only [State.stepBar, if_neg stands, noVisit, full, Option.isSome_none, Bool.false_eq_true, if_false]

theorem State.stepSweep_none (room : s.findings.length ≤ 29) (found : s.findVisitable s.sweep.position = none) :
    s.stepSweep p tag
      = ({ s with sweep := { s.sweep with cycles := (s.sweep.cycles + 1) % 4294967296 } } : State).reply p tag .ok
          (.stepped .none 0 0) := by
  rw [State.stepSweep, State.stepBar_still still noVisit unreserved, if_neg (Nat.not_lt.mpr room)]
  simp only [State.stepWalk, found]

theorem State.stepSweep_begins {wrapped : Bool} (unasked : s.storePort.sweep = none)
    (idle : s.storePort.current = none → s.storePort.writes = [] ∧ s.storePort.reads = [])
    (room : s.findings.length ≤ 29) (found : s.findVisitable s.sweep.position = some (n, wrapped)) :
    s.stepSweep p tag
      = (s.begun
          { s.sweep with
            position := n
            cycles := if wrapped then (s.sweep.cycles + 1) % 4294967296 else s.sweep.cycles } n
          (.step p tag)).takeEntry p tag .stepping := by
  rw [State.stepSweep, State.stepBar_still still noVisit unreserved, if_neg (Nat.not_lt.mpr room)]
  simp only [State.stepWalk, found]
  rw [State.beginVisit_step unasked idle]

end

/-! ## ACK TRAIL (R131) -/

theorem Trail.placeOf_held {t : Trail} {removed kept : List TrailEntry} {e : TrailEntry} {q : Nat}
    (entries : t.entries = removed ++ e :: kept) (named : e.sequence = q) (first : ∀ d ∈ removed, d.sequence ≠ q) :
    t.placeOf q = some (removed.length + 1) := by
  have before : removed.findIdx? (fun d => d.sequence = q) = none :=
    List.findIdx?_eq_none_iff.mpr fun d mem => decide_eq_false (first d mem)
  simp [Trail.placeOf, entries, List.findIdx?_append, before, List.findIdx?_cons, named]

theorem Trail.placeOf_unheld {t : Trail} {q : Nat} (h : ∀ e ∈ t.entries, e.sequence ≠ q) : t.placeOf q = none := by
  rw [Trail.placeOf, List.findIdx?_eq_none_iff.mpr fun e mem => decide_eq_false (h e mem)]
  rfl

theorem Trail.removeOldest_held {t : Trail} {removed kept : List TrailEntry} {e : TrailEntry}
    (entries : t.entries = removed ++ e :: kept) :
    t.removeOldest (removed.length + 1) = { t with entries := kept, baseChain := e.chain } := by
  have split : t.entries = (removed ++ [e]) ++ kept := by rw [entries, List.append_assoc]; rfl
  have length : removed.length + 1 = (removed ++ [e]).length := by rw [List.length_append, List.length_singleton]
  rw [Trail.removeOldest, split, length, List.drop_left, List.take_left, List.getLast?_concat]

end

end Sys2Proof.Machine

/-- Settles O49: each request through the answer of the Audit Sweep Unit. -/
theorem sweepControls : Obligations.SweepControls := by
  unfold Obligations.SweepControls
  intro s p tag ha hr
  refine ⟨fun w r f yesNo => ?_, fun w r f not0 not1 => ?_, fun still => ?_, fun runs => ?_,
    exec_stopSweep ha hr, exec_restartSweep ha hr⟩
  · intro window rest
    rw [exec_setSweepSettings ha hr, State.setSweepSettings_yesNo _ _ yesNo]
    rfl
  · rw [exec_setSweepSettings ha hr, State.setSweepSettings_other _ _ (not_or.mpr ⟨not0, not1⟩)]
    rfl
  · rw [exec_startSweep ha hr, State.startSweep_starts still]
    rfl
  · rw [exec_startSweep ha hr, State.startSweep_runs runs]
    rfl

/-- Settles O50: a look by what stands at the position and by the room in the log, the same after SWEEP_LOG_ROOM; a step
by where the walk over the listed segments finds its first. -/
theorem sweepVisitsBegin : Obligations.SweepVisitsBegin := by
  unfold Obligations.SweepVisitsBegin
  intro s n kind on noVisit unreserved unasked visitable begun idle
  have visitable_iff (k : Nat) : visitable k ↔ (s.segment k).visitable = true := Segment.visitable_iff.symm
  refine ⟨fun active left here => ?_, fun waiting left here visits room paced => ?_,
    fun waiting left here other room => ?_, fun _ full => ?_, fun resting due => ?_, fun p tag ha hr stepped => ?_⟩
  · rw [exec_sweepLook on, State.sweepLooks_looks active noVisit left]
    refine ⟨fun other => ?_, fun visits room paced => ?_, fun visits full => ?_⟩
    · rw [State.lookSegment_passes here ((visitable_iff n).not.mp other)]
    · subst paced
      rw [State.lookSegment_begins unasked idle active unreserved here ((visitable_iff n).mp visits) room]
      rfl
    · rw [State.lookSegment_waits unreserved here ((visitable_iff n).mp visits) full]
  · subst paced
    rw [exec_sweepLogRoom on, State.logRoom_looks waiting noVisit unreserved left room]
    exact congrArg Host.Outcome.next
      (State.lookSegment_begins unasked idle rfl unreserved here ((visitable_iff n).mp visits) room)
  · rw [exec_sweepLogRoom on, State.logRoom_looks waiting noVisit unreserved left room]
    exact congrArg Host.Outcome.next (State.lookSegment_passes here ((visitable_iff n).not.mp other))
  · rw [exec_sweepLogRoom on, State.logRoom_full unreserved full]
  · rw [exec_sweepRestExpiry on, State.restExpiry_due resting due]
  · subst stepped
    rw [exec_stepSweep ha hr]
    refine ⟨fun runs => ?_, fun v => ?_, fun still full => ?_,
      fun still room canonical inStore numbered visits => ⟨fun ahead first => ?_, fun behind first => ?_⟩,
      fun still room canonical inStore free => ?_⟩
    · rw [State.stepSweep_barred (State.stepBar_runs runs)]
    · intro u
      rw [exec_stepSweep (s := u) ha hr, State.stepSweep_barred (State.stepBar_visit rfl)]
    · rw [State.stepSweep_barred ((State.stepBar_still still noVisit unreserved).trans (if_pos full))]
    · obtain ⟨-, -, wf, -⟩ := s.canonical_iff.mp canonical
      rw [State.stepSweep_begins still noVisit unreserved unasked idle room
        (State.findVisitable_ahead wf ahead numbered ((visitable_iff n).mp visits)
          fun k low below => (visitable_iff k).not.mp (first k low below))]
      rfl
    · obtain ⟨-, -, wf, -⟩ := s.canonical_iff.mp canonical
      rw [State.stepSweep_begins still noVisit unreserved unasked idle room
        (State.findVisitable_round wf behind ((visitable_iff n).mp visits)
          fun k outside => (visitable_iff k).not.mp (first k outside))]
      rfl
    · obtain ⟨-, -, wf, -⟩ := s.canonical_iff.mp canonical
      rw [State.stepSweep_none still noVisit unreserved room
        (State.findVisitable_none wf inStore fun k high => (visitable_iff k).not.mp (free k high))]

/-- Settles O52: FETCH FINDINGS through the log room it makes, ACK TRAIL through the sequence's place in the trail. -/
theorem logsFetchedInOrder : Obligations.LogsFetchedInOrder := by
  unfold Obligations.LogsFetchedInOrder
  intro s p tag q ha hr
  refine ⟨fun other => ?_, fun _ => ⟨_, exec_sweepLogRoom ha.1, exec_fetchFindings ha hr⟩, exec_fetchTrail ha hr,
    fun removed kept e entries named first => ?_, fun unheld => ?_⟩
  · rw [exec_fetchFindings ha hr, State.fetchFindings, State.logRoom_other (by exact other)]
    rfl
  · rw [exec_ackTrail ha hr, State.ackTrail, Trail.placeOf_held entries named first]
    simp only [Trail.removeOldest_held entries]
    rfl
  · rw [exec_ackTrail ha hr, State.ackTrail, Trail.placeOf_unheld unheld]
    rfl
end

section
/-! PROOFS. What can happen to the Audit Trail, and the operations that leave it as it is. -/

open Sys2Proof Sys2Proof.Machine
namespace Sys2Proof.Machine

/-! ## What can happen to a trail

The whole content of O8 is here: an append, an acknowledgement and the first-ever initialisation keep a trail chained.
The rest shows that nothing else happens to it. -/

/-- A trail comes from another by appends (R126), removals of its oldest entries (R131) and first-ever initialisations
(R125). -/
inductive Trail.Leads (t : Trail) : Trail → Prop
  | refl : t.Leads t
  | append {u : Trail} (h : t.Leads u) (clock : Nat) (kind : TrailKind) (port : Option PortId) (subject : Subject)
      (value : Nat) : t.Leads (u.append clock kind port subject value)
  | removeOldest {u : Trail} (h : t.Leads u) (n : Nat) : t.Leads (u.removeOldest n)
  | firstEver : t.Leads {}

/-- Entries followed in two parts. -/
theorem followTrail_append (last sequence : Nat) (es fs : List TrailEntry) :
    followTrail last sequence (es ++ fs) = (followTrail last sequence es).bind (fun r => followTrail r.1 r.2 fs) := by
  induction es generalizing last sequence with
  | nil => rfl
  | cons e es ih =>
    simp only [List.cons_append, followTrail]
    split
    · exact ih ..
    · rfl

/-- Followed entries that begin with one carry its sequence first. -/
theorem followTrail_head {last sequence : Nat} {e : TrailEntry} {es : List TrailEntry} {r : Nat × Nat}
    (h : followTrail last sequence (e :: es) = some r) : e.sequence = sequence := by
  simp only [followTrail] at h
  split at h
  · next due => exact due.1
  · cases h

/-- Entries followed to their end end with the chain value of the last one. -/
theorem followTrail_last {last sequence : Nat} {es : List TrailEntry} {r : Nat × Nat}
    (h : followTrail last sequence es = some r) :
    r.1 = match es.getLast? with | some e => e.chain | none => last := by
  induction es generalizing last sequence with
  | nil =>
    cases h
    rfl
  | cons e es ih =>
    simp only [followTrail] at h
    split at h
    · rw [ih h, List.getLast?_cons]
      cases es.getLast? <;> rfl
    · cases h

/-- A trail is chained exactly when its entries are followed from some sequence to the last chain value and the next
sequence: an entry held fixes that sequence as its own, and with none held it is the next one. -/
theorem Trail.chained_iff (t : Trail) :
    t.chained ↔ ∃ q, followTrail t.baseChain q t.entries = some (t.lastChain, t.nextSequence) := by
  refine ⟨fun h => ⟨_, h⟩, fun ⟨q, h⟩ => ?_⟩
  unfold Trail.chained
  cases he : t.entries with
  | nil =>
    rw [he] at h
    obtain ⟨last, -⟩ := Prod.mk.inj (Option.some.inj h)
    exact congrArg (fun c => some (c, t.nextSequence)) last
  | cons e es =>
    rw [he] at h
    simp only [followTrail_head h, h]

/-- The entry an append makes carries the next sequence and the chain value that follows the last one. -/
theorem Trail.chained_append {t : Trail} (h : t.chained) (clock : Nat) (kind : TrailKind) (port : Option PortId)
    (subject : Subject) (value : Nat) : (t.append clock kind port subject value).chained := by
  obtain ⟨q, h⟩ := t.chained_iff.mp h
  refine (Trail.chained_iff _).mpr ⟨q, ?_⟩
  simp only [Trail.append, followTrail_append, h, Option.bind_some, followTrail]
  exact if_pos ⟨rfl, rfl⟩

/-- What is left of a followed trail is followed from the chain value of the last entry removed. -/
theorem Trail.chained_removeOldest {t : Trail} (h : t.chained) (n : Nat) : (t.removeOldest n).chained := by
  obtain ⟨q, h⟩ := t.chained_iff.mp h
  rw [← List.take_append_drop n t.entries, followTrail_append] at h
  obtain ⟨⟨base, first⟩, removed, kept⟩ := Option.bind_eq_some_iff.mp h
  refine (Trail.chained_iff _).mpr ⟨first, ?_⟩
  rw [← show base = (t.removeOldest n).baseChain from followTrail_last removed]
  exact kept

theorem Trail.Leads.chained {t u : Trail} (h : t.Leads u) (ht : t.chained) : u.chained := by
  induction h with
  | refl => exact ht
  | append _ clock kind port subject value ih => exact Trail.chained_append ih clock kind port subject value
  | removeOldest _ n ih => exact Trail.chained_removeOldest ih n
  | firstEver => exact rfl

/-! ## Operations that leave the trail alone -/

theorem Catalogued.trail {s t : State} (h : Catalogued s t) : t.trail = s.trail := by
  obtain ⟨_, _, _, _, rfl⟩ := h
  rfl

theorem StreamsOnly.trail {s t : State} (h : StreamsOnly s t) : t.trail = s.trail := by rw [h.eq]

theorem State.foldl_trail {α : Type} {f : State → α → State} (h : ∀ s a, (f s a).trail = s.trail) (l : List α)
    (s : State) : (l.foldl f s).trail = s.trail := by
  induction l generalizing s with
  | nil => rfl
  | cons a l ih => exact (ih _).trans (h s a)

section
variable (s : State) (i n a : Nat) (g : Figures) (b : Bool)

@[simp] theorem State.acceptFile_trail (r k d c : Nat) (reasons : DisputeReasons) (trailer : Option Trailer) :
    ((s.acceptFile i r k d reasons trailer c).getD s).trail = s.trail :=
  (Catalogued.getD fun _ h => State.acceptFile_catalogued h).trail

@[simp] theorem State.removeFile_trail : ((s.removeFile i).getD s).trail = s.trail :=
  (Catalogued.getD fun _ h => State.removeFile_catalogued h).trail

@[simp] theorem State.finishStored_trail : ((s.finishStored n g).getD s).trail = s.trail :=
  (Catalogued.getD fun _ h => State.finishStored_catalogued h).trail

@[simp] theorem State.finishFailed_trail : ((s.finishFailed n g b).getD s).trail = s.trail :=
  (Catalogued.getD fun _ h => State.finishFailed_catalogued h).trail

@[simp] theorem State.markSuspect_trail : ((s.markSuspect n a i b).getD s).trail = s.trail :=
  (Catalogued.getD fun _ h => State.markSuspect_catalogued h).trail

@[simp] theorem State.returnStored_trail : ((s.returnStored n a i).getD s).trail = s.trail :=
  (Catalogued.getD fun _ h => State.returnStored_catalogued h).trail

@[simp] theorem State.clearUnreported_trail : ((s.clearUnreported n a).getD s).trail = s.trail :=
  (Catalogued.getD fun _ h => State.clearUnreported_catalogued h).trail

@[simp] theorem State.markExpiring_trail : ((s.markExpiring i).getD s).trail = s.trail :=
  (Catalogued.getD fun _ h => State.markExpiring_catalogued h).trail

@[simp] theorem State.returnAccepted_trail : ((s.returnAccepted i).getD s).trail = s.trail :=
  (Catalogued.getD fun _ h => State.returnAccepted_catalogued h).trail

@[simp] theorem State.clearDispute_trail : ((s.clearDispute i).getD s).trail = s.trail :=
  (Catalogued.getD fun _ h => State.clearDispute_catalogued h).trail

@[simp] theorem State.acceptLoss_trail : ((s.acceptLoss i).getD s).trail = s.trail :=
  (Catalogued.getD fun _ h => State.acceptLoss_catalogued h).trail

@[simp] theorem State.freeSegments_trail (ns : List Nat) : (s.freeSegments ns).trail = s.trail :=
  (s.freeSegments_catalogued ns).trail

@[simp] theorem State.markAllUnreported_trail : s.markAllUnreported.trail = s.trail := rfl

@[simp] theorem State.pin_trail : (s.pin i).trail = s.trail := (s.pin_catalogued i).trail

@[simp] theorem State.createOpened_trail (p : PortId) (f : OpeningFile) :
    (s.createOpened p i f).trail = s.trail := rfl

@[simp] theorem State.returnHeld_trail (h : Hold) : (s.returnHeld h).trail = s.trail :=
  State.foldl_trail (fun s _ => s.returnAccepted_trail _) _ s

@[simp] theorem State.startCause_trail : s.startCause.trail = s.trail := by
  rcases s.startCause_cases with ⟨-, -, e⟩ | e <;> rw [e]

@[simp] theorem State.cleanUp_trail : s.cleanUp.trail = s.trail := by
  have removed (s : State) (l : List Nat) := State.foldl_trail (fun s i => s.removeFile_trail i) l s
  simp [State.cleanUp, State.removeIngesting, State.freeFilling, removed]

end

/-! ## Posts, and the bytes of a stream (R41, R43, R51) -/

section
variable (s : State) (x : StreamId)

@[simp] theorem State.post_trail (d : CompletionDetail) : (s.post x d).trail = s.trail := rfl

@[simp] theorem State.waitPost_trail (d : CompletionDetail) (after : AfterPost) :
    (s.waitPost x d after).trail = s.trail := rfl

@[simp] theorem State.streamIdle_trail : (s.streamIdle x).trail = s.trail := rfl

@[simp] theorem State.enterWaiting_trail (state : StreamState) : (s.enterWaiting x state).trail = s.trail := rfl

@[simp] theorem State.closeInput_trail : (s.closeInput x).trail = s.trail := rfl

@[simp] theorem State.placeAbort_trail : (s.placeAbort x).trail = s.trail := rfl

@[simp] theorem State.stageRecord_trail (r : CallRecord) : (s.stageRecord x r).trail = s.trail := rfl

@[simp] theorem State.postNotice_trail : (s.postNotice x).trail = s.trail := by
  rcases s.postNotice_cases x with ⟨-, -, e⟩ | e <;> simp [e]

theorem State.tryPost_trail {s t : State} {x : StreamId} {d : CompletionDetail} {b : Bool}
    (h : s.tryPost x d = (t, b)) : t.trail = s.trail := by
  rcases s.tryPost_cases x d with ⟨-, e⟩ | e <;> rw [e] at h <;> cases h <;> simp

theorem State.rejectRecord_trail {s t : State} {x : StreamId} {reason : RejectReason} {after : AfterPost} {b : Bool}
    (h : s.rejectRecord x reason after = (t, b)) : t.trail = s.trail := by
  unfold State.rejectRecord at h
  simp only at h
  split at h
  · cases h
    simp
  · split at h <;> next hu => cases h; simp [State.tryPost_trail hu]

@[simp] theorem State.rejectRecord_fst_trail (reason : RejectReason) (after : AfterPost) :
    (s.rejectRecord x reason after).1.trail = s.trail :=
  State.rejectRecord_trail (b := (s.rejectRecord x reason after).2) rfl

@[simp] theorem State.endOfInput_trail : (s.endOfInput x).trail = s.trail := by
  unfold State.endOfInput
  simp only
  split
  · split <;> next h => simp [State.rejectRecord_trail h]
  · simp

@[simp] theorem State.exhaust_trail : (s.exhaust x).trail = s.trail := by
  unfold State.exhaust
  simp only
  split
  · split
    · simp
    · split <;> simp
  · simp

/-- What follows a post leaves the trail alone, but for a reconciliation. -/
@[simp] theorem State.afterPost_trail {after : AfterPost} (h : after ≠ .reconcile) :
    (s.afterPost x after).trail = s.trail := by
  cases after with
  | reconcile => exact absurd rfl h
  | _ => simp [State.afterPost]

@[simp] theorem State.postThen_trail (d : CompletionDetail) {after : AfterPost} (h : after ≠ .reconcile) :
    (s.postThen x d after).trail = s.trail := by
  unfold State.postThen
  split <;> next e => simp [State.tryPost_trail e, h]

@[simp] theorem State.handRecord_trail (r : CallRecord) : (s.handRecord x r).trail = s.trail := by
  unfold State.handRecord
  split <;> simp

@[simp] theorem State.endRecord_trail : (s.endRecord x).trail = s.trail := by
  unfold State.endRecord
  simp only
  split
  · simp
  · split
    · simp
    · split <;> simp

@[simp] theorem State.startTrailer_trail : (s.startTrailer x).trail = s.trail := by
  unfold State.startTrailer
  simp only
  split <;> simp

@[simp] theorem State.recordByte_trail (kind : ClassKind) (b : Byte) : (s.recordByte x kind b).trail = s.trail := by
  cases kind <;> simp [State.recordByte]

@[simp] theorem State.takeByte_trail (e : ClassEntry) (b : Byte) : (s.takeByte x e b).trail = s.trail := by
  unfold State.takeByte
  simp only
  split <;> simp

@[simp] theorem State.streamByte_trail : (s.streamByte x).trail = s.trail := by
  unfold State.streamByte
  simp only
  split
  · rfl
  split
  · rfl
  split
  · simp
  split <;> simp [State.holdByte]

@[simp] theorem State.resumeBlocked_trail : s.resumeBlocked.trail = s.trail := by
  unfold State.resumeBlocked
  split
  · rfl
  split
  · split <;> simp
  · rfl

@[simp] theorem State.resumeHeld_trail (substitute : Option ClassEntry) :
    (s.resumeHeld x substitute).trail = s.trail := by
  unfold State.resumeHeld
  split <;> simp

@[simp] theorem State.startStream_trail (w q : Nat) : (s.startStream x w q).trail = s.trail := by
  unfold State.startStream
  split
  · split <;> simp
  · simp

/-! ## Aborts (R33 to R36) -/

@[simp] theorem State.beginAbort_trail (cause : AbortCause) : (s.beginAbort x cause).trail = s.trail := by
  rcases s.beginAbort_cases x cause with e | e <;> rw [e] <;> rfl

@[simp] theorem State.resetStream_trail : (s.resetStream x).trail = s.trail := (s.resetStream_streamsOnly x).trail

@[simp] theorem State.withdrawStream_trail : (s.withdrawStream x).trail = s.trail := by
  unfold State.withdrawStream
  split <;> simp

@[simp] theorem State.closeAbort_trail : (s.closeAbort x).trail = s.trail := by
  unfold State.closeAbort
  split <;> simp

@[simp] theorem State.streamExpiry_trail : (s.streamExpiry x).trail = s.trail := by
  unfold State.streamExpiry
  simp only
  split <;> simp

@[simp] theorem State.takeNotice_trail : (s.takeNotice x).trail = s.trail := by
  unfold State.takeNotice
  simp only
  split <;> simp

@[simp] theorem State.tellAbort_trail : (s.tellAbort x).trail = s.trail := by
  unfold State.tellAbort
  split <;> simp

/-! ## The Store Port and the Segment Encoder (R71 to R87) -/

@[simp] theorem State.startStore_trail : s.startStore.trail = s.trail := by
  unfold State.startStore
  simp only
  split
  · rfl
  split
  · rfl
  split
  · rfl
  split <;> rfl

@[simp] theorem State.endStore_trail : s.endStore.trail = s.trail := by simp [State.endStore]

@[simp] theorem State.askRead_trail (c : CursorId) (n : Nat) : (s.askRead c n).trail = s.trail := by
  simp [State.askRead]

@[simp] theorem State.askSweep_trail (n : Nat) : (s.askSweep n).trail = s.trail := by simp [State.askSweep]

theorem State.finishSegment_trail {s t : State} {x : StreamId} (h : s.finishSegment x = some t) :
    t.trail = s.trail := by
  unfold State.finishSegment at h
  simp only at h
  split at h <;> cases h
  · rfl
  · simp [State.askWrite]

@[simp] theorem State.discardCounted_trail (r : CallRecord) : (s.discardCounted x r).trail = s.trail := rfl

@[simp] theorem State.endEpisode_trail : s.endEpisode.trail = s.trail := by simp [State.endEpisode_eq]

@[simp] theorem State.waitStoreFull_trail : (s.waitStoreFull x).trail = s.trail := by
  unfold State.waitStoreFull
  simp only
  split
  · simp
  split <;> simp

@[simp] theorem State.placeFirst_trail (r : CallRecord) : (s.placeFirst x r).trail = s.trail := by
  unfold State.placeFirst
  split
  · simp
  · simp
  · simp
  · next h => simp [(State.allocate_catalogued h).trail]

@[simp] theorem State.placeRecord_trail (r : CallRecord) : (s.placeRecord x r).trail = s.trail := by
  unfold State.placeRecord
  simp only
  split
  · simp
  split
  · rfl
  · next h => simp [State.finishSegment_trail h]

@[simp] theorem State.takeCloseMarker_trail : (s.takeCloseMarker x).trail = s.trail := by
  unfold State.takeCloseMarker
  split
  · simp
  split
  · rfl
  · next h => simp [State.finishSegment_trail h]

@[simp] theorem State.carryRemoval_trail : (s.carryRemoval x).trail = s.trail := by
  unfold State.carryRemoval
  split
  · next h => simp [(State.removeFile_catalogued h).trail]
  · simp

@[simp] theorem State.takeAbortMarker_trail : (s.takeAbortMarker x).trail = s.trail := by
  unfold State.takeAbortMarker
  simp only
  split
  · split <;> simp [State.withdrawWrite]
  · simp

@[simp] theorem State.dealHead_trail : s.dealHead.trail = s.trail := by
  unfold State.dealHead
  split
  · rfl
  · split
    · simp
    · split <;> simp
  · simp
  · simp

@[simp] theorem State.takeHead_trail : s.takeHead.trail = s.trail := by
  unfold State.takeHead
  split
  · simp
  split
  · split <;> simp
  · rfl

@[simp] theorem State.retryStoreFull_trail : s.retryStoreFull.trail = s.trail := by
  unfold State.retryStoreFull
  split <;> simp

@[simp] theorem State.endImageWait_trail : s.endImageWait.trail = s.trail := by
  unfold State.endImageWait
  split
  · split <;> simp
  · rfl

@[simp] theorem State.writeDone_trail (n : Nat) : (s.writeDone x n).trail = s.trail := by
  unfold State.writeDone
  simp only
  split
  · rfl
  split <;> simp [State.dropImage]

end

/-! ## Replies, links, the clock and the sweep's pace (R117, R137, R147, R153, R154) -/

section
variable (s : State) (p : PortId)

@[simp] theorem State.answer_trail (tag : Byte) (status : Status) (body : ReplyBody) :
    (s.answer p tag status body).trail = s.trail := by
  rcases s.answer_cases p tag status body with ⟨-, e⟩ | ⟨-, e⟩ <;> simp [e]

@[simp] theorem State.answerFetch_trail (c : CursorId) (status : Status) (skipped : Nat) :
    (s.answerFetch c status skipped).trail = s.trail := by
  unfold State.answerFetch
  simp only
  split
  · split <;> simp
  · rfl

@[simp] theorem State.serveFetch_trail (c : CursorId) : (s.serveFetch c).1.trail = s.trail := by
  unfold State.serveFetch
  simp only
  split
  · rfl
  split <;> simp

@[simp] theorem State.takeFetch_trail (tag : Byte) (c : CursorId) (count : Nat) :
    (s.takeFetch p tag c count).1.trail = s.trail := by simp [State.takeFetch]

@[simp] theorem State.setLink_trail (up : Bool) : (s.setLink p up).trail = s.trail := rfl

@[simp] theorem State.establish_trail : (s.establish p).trail = s.trail := by
  unfold State.establish
  split <;> simp

@[simp] theorem State.tick_trail : s.tick.trail = s.trail := by
  unfold State.tick State.advanceClock State.tickCountdowns
  simp only
  split
  · rfl
  split <;> simp

@[simp] theorem State.pulse_trail (half : Bool) : (s.pulse half).trail = s.trail := by
  unfold State.pulse
  simp only
  split <;> split <;> simp

@[simp] theorem State.elapse_trail : s.elapse.trail = s.trail := by
  rcases s.elapse_cases with ⟨-, -, e⟩ | ⟨-, e⟩ | ⟨-, e⟩ <;> simp [e]

@[simp] theorem State.beginVisit_trail (n : Nat) (kind : VisitKind) : (s.beginVisit n kind).trail = s.trail := by
  simp [State.beginVisit]

@[simp] theorem State.sweepLooks_trail : s.sweepLooks.trail = s.trail := by
  unfold State.sweepLooks State.lookSegment
  simp only
  split
  · split
    · rfl
    · split <;> simp
  · rfl

@[simp] theorem State.logRoom_trail : s.logRoom.trail = s.trail := by
  unfold State.logRoom
  split <;> simp

@[simp] theorem State.paceSweep_trail (appended : Nat) : (s.paceSweep appended).trail = s.trail := by
  unfold State.paceSweep
  simp only
  split
  · rfl
  split
  · rfl
  split
  · split <;> rfl
  · rfl

@[simp] theorem State.endVisit_trail (v : Visit) (r : VisitResult) : (s.endVisit v r).trail = s.trail := by
  unfold State.endVisit State.answerStep
  simp only
  split
  · split <;> simp
  · simp

@[simp] theorem State.stepWalk_trail (tag : Byte) : (s.stepWalk p tag).1.trail = s.trail := by
  unfold State.stepWalk
  simp only
  split <;> simp

@[simp] theorem State.stepSweep_trail (tag : Byte) : (s.stepSweep p tag).trail = s.trail := by
  have walked := s.stepWalk_trail p tag
  unfold State.stepSweep
  split
  · simp
  · split <;> next h => rw [h] at walked; simpa using walked

end

end Sys2Proof.Machine
end

section
/-! PROOFS. Every step leads the trail on by appends, acknowledgements and first-ever initialisations: O8. -/

open Sys2Proof Sys2Proof.Machine
namespace Sys2Proof.Machine

/-! ## The trail followed through an operation

From here on `t` is the trail from which the work began. Each lemma takes what the trail has come to before an operation
to what it has come to behind it, and `simp` follows a branch through its operations by their lemmas. -/

@[simp] theorem Trail.leads_refl (t : Trail) : t.Leads t := .refl

@[simp] theorem Trail.leads_append {t u : Trail} (h : t.Leads u) (clock : Nat) (kind : TrailKind) (port : Option PortId)
    (subject : Subject) (value : Nat) : t.Leads (u.append clock kind port subject value) := h.append ..

theorem Trail.Leads.getD {t : Trail} {s : State} {o : Option State} (h : t.Leads s.trail)
    (answered : ∀ u, o = some u → t.Leads u.trail) : t.Leads (o.getD s).trail := by
  cases o with
  | none => exact h
  | some u => exact answered u rfl

theorem Trail.Leads.foldl {α : Type} {t : Trail} {f : State → α → State}
    (each : ∀ s a, t.Leads s.trail → t.Leads (f s a).trail) (l : List α) {s : State} (h : t.Leads s.trail) :
    t.Leads (l.foldl f s).trail := by
  induction l generalizing s with
  | nil => exact h
  | cons a l ih => exact ih (each s a h)

section
variable {t : Trail} {s : State} (h : t.Leads s.trail)
include h

/-! ## Acceptance (R40) and the wait list (R42) -/

@[simp] theorem State.acceptStream_leads (x : StreamId) (reasons : DisputeReasons) :
    t.Leads (s.acceptStream x reasons).trail := by
  cases room : s.trailRoom with
  | true => simp [s.acceptStream_room x room, State.markAccepted, h]
  | false => simpa [State.acceptStream_full room] using h

@[simp] theorem State.reconcile_leads (x : StreamId) : t.Leads (s.reconcile x).trail := State.acceptStream_leads h x _

@[simp] theorem State.afterPost_leads (x : StreamId) (after : AfterPost) : t.Leads (s.afterPost x after).trail := by
  by_cases reconciles : after = .reconcile
  · rw [reconciles]
    exact State.reconcile_leads h x
  · simpa [reconciles] using h

@[simp] theorem State.postThen_leads (x : StreamId) (d : CompletionDetail) (after : AfterPost) :
    t.Leads (s.postThen x d after).trail := by
  unfold State.postThen
  split <;> next e => simp [State.tryPost_trail e, h]

@[simp] theorem State.serveWaiting_leads (i : WaitItem) : t.Leads (s.serveWaiting i).trail := by
  cases i with
  | notice x => simpa [State.serveWaiting] using h
  | post x =>
    unfold State.serveWaiting
    simp only
    split
    · exact h
    · split <;> next e => simp [State.tryPost_trail e, h]

@[simp] theorem State.serveWaitList_leads : t.Leads s.serveWaitList.trail :=
  .foldl (fun _ i h => State.serveWaiting_leads h i) s.waiting h

@[simp] theorem State.removeCompletions_leads (kept : List Completion) : t.Leads (s.removeCompletions kept).trail := by
  unfold State.removeCompletions
  split <;> simp [h]

/-! ## The close acknowledgement (R40, R76) -/

@[simp] theorem State.takeCloseAck_leads (x : StreamId) (count duration : Nat) :
    t.Leads (s.takeCloseAck x count duration).trail := by
  unfold State.takeCloseAck
  simp only
  split
  · simpa using h
  split
  · exact State.reconcile_leads h x
  split
  · exact State.reconcile_leads (by exact h) x
  · exact State.postThen_leads (by exact h) x _ _

@[simp] theorem State.retryAcceptance_leads (x : StreamId) : t.Leads (s.retryAcceptance x).trail := by
  unfold State.retryAcceptance
  simp only
  split
  · split <;> simp [h]
  · exact h

@[simp] theorem State.acknowledgeClose_leads (x : StreamId) : t.Leads (s.acknowledgeClose x).trail := by
  unfold State.acknowledgeClose
  simp only
  split
  · exact State.takeCloseAck_leads (by exact h) x _ _
  · exact h

/-! ## Reports of damage (R86, R113 to R115, R139) -/

@[simp] theorem State.recordQuarantine_leads (kind : TrailKind) (i : Nat) :
    t.Leads (s.recordQuarantine kind i).trail := by
  unfold State.recordQuarantine
  split <;> simp [h]

@[simp] theorem State.reportDamage_leads (f : Finding) : t.Leads (s.reportDamage f).1.trail := by
  unfold State.reportDamage
  split
  next u owed e =>
  have logged : t.Leads u.trail := by
    split at e <;> cases e <;> exact h
  simp only
  split <;> simp [logged]

@[simp] theorem State.writeFailed_leads (x : StreamId) (n : Nat) (left : List Byte) :
    t.Leads (s.writeFailed x n left).trail := by
  unfold State.writeFailed
  simp only
  split
  · exact h
  split
  · simpa [State.dropImage] using h
  · rw [State.finishFailed_trail]
    exact State.reportDamage_leads (by exact h) _

@[simp] theorem State.takeDamage_leads (n a i : Nat) (kind : FindingKind) (values : Option (Nat × Nat)) :
    t.Leads (s.takeDamage n a i kind values).trail := by
  unfold State.takeDamage
  split <;> simp [h]

@[simp] theorem State.cleanSuspect_leads (v : Visit) : t.Leads (s.cleanSuspect v).trail := by
  unfold State.cleanSuspect
  split
  · simpa using h
  split <;> simp [h]

@[simp] theorem State.damageStored_leads (v : Visit) (found : List (FindingKind × Option (Nat × Nat))) :
    t.Leads (s.damageStored v found).1.trail := by
  unfold State.damageStored
  simp only
  split <;> simp [h]

@[simp] theorem State.damageSuspect_leads (v : Visit) (found : List (FindingKind × Option (Nat × Nat))) :
    t.Leads (s.damageSuspect v found).1.trail := by
  unfold State.damageSuspect
  split <;> simp [h]

@[simp] theorem State.completeVisit_leads (v : Visit) (report : ReadReport) :
    t.Leads (s.completeVisit v report).1.trail := by
  unfold State.completeVisit
  split
  · exact h
  simp only
  split
  · split <;> simp [h]
  split
  · exact State.damageSuspect_leads h v _
  · exact State.damageStored_leads h v _

@[simp] theorem State.sweepRead_leads (report : ReadReport) : t.Leads (s.sweepRead report).trail := by
  unfold State.sweepRead
  split
  · exact h
  · simp [h]

/-! ## The expiry pass (R97 to R104) -/

/-- A file reclaimed has its FILE_EXPIRED entry; a file returned and a pass that waits have none (R98). -/
@[simp] theorem State.reclaimStep_leads (i : Nat) (f : File) : t.Leads (s.reclaimStep i f).2.trail := by
  rcases s.reclaimStep_cases i f with ⟨-, e⟩ | ⟨-, -, e⟩ | ⟨-, -, e⟩ <;> rw [e]
  · simpa using h
  · refine h.getD fun u reclaimed => ?_
    rw [(State.reclaimFile_catalogued reclaimed).trail]
    exact h.append ..
  · exact h

@[simp] theorem State.pinReleased_leads (i : Nat) : t.Leads (s.pinReleased i).trail := by
  unfold State.pinReleased
  split
  · exact h
  split
  · split <;> simp [h]
  · exact h

@[simp] theorem State.visitExpiring_leads (i : Nat) (f : File) : t.Leads (s.visitExpiring i f).trail := by
  have stepped := State.reclaimStep_leads h i f
  unfold State.visitExpiring
  split
  · split <;> next e => rw [e] at stepped; exact stepped
  · exact h

@[simp] theorem State.visit_leads : t.Leads s.visit.trail := by
  unfold State.visit
  simp only
  split
  · exact h
  split
  · exact h
  · exact h
  · exact State.visitExpiring_leads h _ _
  · split
    · simp [h]
    · exact h

@[simp] theorem State.walkAgain_leads : t.Leads s.walkAgain.trail := State.visit_leads (by exact h)

@[simp] theorem State.passVisit_leads : t.Leads s.passVisit.trail := by
  unfold State.passVisit
  split <;> simp [h]

@[simp] theorem State.passRetry_leads : t.Leads s.passRetry.trail := by
  rcases s.passRetry_cases with ⟨-, -, e⟩ | e <;> simp [e, h]

/-! ## Cursors (R134, R137, R143, R144) -/

@[simp] theorem State.freeCursorOf_leads (c : CursorId) : t.Leads (s.freeCursorOf c).trail := by
  rcases s.freeCursorOf_cases c with ⟨i, f, -, -, -, e⟩ | ⟨-, e⟩ <;> rw [e]
  · split
    · exact State.pinReleased_leads (by exact h) i
    · exact h
  · exact h

@[simp] theorem State.takeHeldRequest_leads (p : PortId) (o : Outstanding) :
    t.Leads (s.takeHeldRequest p o).trail := by
  unfold State.takeHeldRequest
  simp only
  split
  · simpa using h
  split
  · split <;> simp [h]
  · split
    · exact State.freeCursorOf_leads (s := s.freeTag p o.tag) h _
    · simpa using h
  · simpa using h

@[simp] theorem State.takeHeld_leads (p : PortId) (c : CursorId) (n : Nat) :
    t.Leads (State.takeHeld p c n s).trail := by
  induction n generalizing s with
  | zero => exact h
  | succ n ih =>
    unfold State.takeHeld
    split
    · exact h
    split
    · exact h
    · exact ih (State.takeHeldRequest_leads h p _)

@[simp] theorem State.retrievalRead_leads (c : CursorId) (report : ReadReport) :
    t.Leads (s.retrievalRead c report).1.trail := by
  unfold State.retrievalRead
  simp only
  split
  · split <;> simp [h]
  · exact h

@[simp] theorem State.endRetrievalRead_leads (c : CursorId) (live : Bool) (report : ReadReport) :
    t.Leads (s.endRetrievalRead c live report).trail := by
  have read := State.retrievalRead_leads h c report
  unfold State.endRetrievalRead
  split
  · simp only
    split <;> next e _ => rw [e] at read; simp [read]
  · simpa using h

@[simp] theorem State.cursorExpiry_leads (c : CursorId) : t.Leads (s.cursorExpiry c).trail := by
  unfold State.cursorExpiry
  simp only
  split <;> simp [h]

@[simp] theorem State.withdrawCursor_leads (p : PortId) (c : CursorId) : t.Leads (s.withdrawCursor p c).trail := by
  unfold State.withdrawCursor
  split <;> simp [h]

@[simp] theorem State.withdrawRoles_leads (p : PortId) (roles : RoleSet) : t.Leads (s.withdrawRoles p roles).trail := by
  have streams := State.foldl_trail State.withdrawStream_trail (s.streamsOf p) s
  have cursors {s : State} (l : List CursorId) (h : t.Leads s.trail) :=
    Trail.Leads.foldl (fun _ c h => State.withdrawCursor_leads h p c) l h
  unfold State.withdrawRoles
  simp only
  split <;> split <;> simp [streams, cursors, h]

@[simp] theorem State.sendWaiting_leads (p : PortId) : t.Leads (s.sendWaiting p).trail :=
  .foldl (fun _ c h => State.takeHeld_leads (by exact h) p c _) _ h

/-! ## Port and module resets (R157, R163, R165) -/

@[simp] theorem State.portReset_leads (p : PortId) : t.Leads (s.portReset p).trail := by
  have stopped := State.foldl_trail State.resetStream_trail (s.streamsOf p) (s.discardRequests p)
  have freed := Trail.Leads.foldl (fun _ c h => State.freeCursorOf_leads h c)
    (((s.streamsOf p).foldl State.resetStream (s.discardRequests p)).cursorsOf p) (stopped ▸ h)
  exact State.removeCompletions_leads freed _

@[simp] theorem State.linkLost_leads (p : PortId) : t.Leads (s.linkLost p).trail := by
  unfold State.linkLost
  split <;> simp [h]

@[simp] theorem State.linkReset_leads (p : PortId) : t.Leads (s.linkReset p).trail := by
  unfold State.linkReset
  split <;> simp [h]

/-- A module reset keeps the trail, unless the first-ever initialisation is still to be made (R163). -/
@[simp] theorem State.takeReset_leads : t.Leads s.takeReset.trail := by
  rw [State.takeReset_eq]
  split
  · exact h
  · exact .firstEver

@[simp] theorem State.moduleReset_leads (p : PortId) (tag : Byte) : t.Leads (s.moduleReset p tag).trail := by
  simp [State.moduleReset, h]

/-! ## Answers of the owning blocks -/

section
variable (p : PortId)

@[simp] theorem State.openFileAnswer_leads (b : OpeningFile) : t.Leads (s.openFileAnswer p b).state.trail := by
  unfold State.openFileAnswer
  split <;> simp [h]

@[simp] theorem State.pinOpened_leads (i : Nat) (f : File) (b : OpeningCursor) :
    t.Leads (s.pinOpened p i f b).trail := by
  simp [State.pinOpened, h]

@[simp] theorem State.openCursorAnswer_leads (b : OpeningCursor) : t.Leads (s.openCursorAnswer p b).state.trail := by
  unfold State.openCursorAnswer
  split
  · split <;> simp [h]
  · exact h

@[simp] theorem State.runOn_leads (request : OpeningRequest) : t.Leads (s.runOn p request).trail := by
  unfold State.runOn
  split
  · split <;> simp [h]
  · split
    · split <;> simp [h]
    · exact h

@[simp] theorem State.answerOpening_leads (o : Opening) : t.Leads (s.answerOpening o).trail := by
  rcases s.answerOpening_cases o with ⟨tag, -, e⟩ | ⟨-, e⟩ <;> rw [e]
  · cases hr : o.request <;> simp [Answer.sendLate, State.openingAnswer, h]
  · simp [h]

@[simp] theorem State.idle_leads : t.Leads s.idle.trail := by
  rcases s.idle_cases with e | ⟨p, -, e⟩ | ⟨o, rest, -, e⟩ <;> simp [e, h]

@[simp] theorem State.ingestChunk_leads (stream final nextMode : Byte) (chunk : List Byte) :
    t.Leads (s.ingestChunk p stream final nextMode chunk).state.trail := by
  unfold State.ingestChunk
  split
  · split
    · exact h
    · split <;> simp [h]
  · exact h

@[simp] theorem State.resumeStream_leads (stream present kind inCheck nextMode hold : Byte) :
    t.Leads (s.resumeStream p stream present kind inCheck nextMode hold).state.trail := by
  unfold State.resumeStream
  split
  · split <;> simp [h]
  · exact h

@[simp] theorem State.abortStream_leads (stream : Byte) : t.Leads (s.abortStream p stream).state.trail := by
  unfold State.abortStream
  split
  · split <;> simp [h]
  · exact h

@[simp] theorem State.fetchCompletions_leads : t.Leads (s.fetchCompletions p).state.trail := by
  simp [State.fetchCompletions, h]

@[simp] theorem State.fetchFindings_leads : t.Leads s.fetchFindings.state.trail := by
  simp [State.fetchFindings, h]

@[simp] theorem State.setSweepSettings_leads (window rest : Nat) (freeze : Byte) :
    t.Leads (s.setSweepSettings window rest freeze).state.trail := by
  unfold State.setSweepSettings
  split <;> simp [h]

@[simp] theorem State.startSweep_leads : t.Leads s.startSweep.state.trail := by
  unfold State.startSweep
  split <;> simp [h]

@[simp] theorem State.restartSweep_leads : t.Leads s.restartSweep.state.trail := by
  simp [State.restartSweep, h]

/-- ACK TRAIL removes the entries up to the one acknowledged, or is refused (R131). -/
@[simp] theorem State.ackTrail_leads (sequence : Nat) : t.Leads (s.ackTrail sequence).state.trail := by
  unfold State.ackTrail
  split
  · exact h
  · exact h.removeOldest _

@[simp] theorem State.setRetention_leads (retentionClass : Byte) (days : Nat) :
    t.Leads (s.setRetention p retentionClass days).state.trail := by
  unfold State.setRetention
  split
  · exact h
  split <;> simp [h]

@[simp] theorem State.placeHold_leads (selector firstDay lastDay : Nat) (present length : Byte)
    (label : List Byte) : t.Leads (s.placeHold p selector firstDay lastDay present length label).state.trail := by
  unfold State.placeHold State.placeHoldTested
  split
  · split
    · split
      · exact h
      split <;> simp [h]
    · exact h
  · exact h

@[simp] theorem State.releaseHold_leads (hold : Byte) : t.Leads (s.releaseHold p hold).state.trail := by
  unfold State.releaseHold
  split
  · exact h
  split
  · exact h
  split <;> simp [h]

@[simp] theorem State.expireNow_leads : t.Leads s.expireNow.state.trail := by
  unfold State.expireNow
  split <;> simp [h]

@[simp] theorem State.resumeExpiry_leads : t.Leads s.resumeExpiry.state.trail := by
  unfold State.resumeExpiry
  simp only [Answer.ok_state]
  split <;> simp [h]

@[simp] theorem State.clearDisputeOf_leads (w q : Nat) : t.Leads (s.clearDisputeOf p w q).state.trail := by
  unfold State.clearDisputeOf
  split
  · exact h
  split
  · exact h
  split
  · exact h
  split <;> simp [h]

@[simp] theorem State.acceptLossOf_leads (w q : Nat) : t.Leads (s.acceptLossOf p w q).state.trail := by
  unfold State.acceptLossOf
  split
  · exact h
  split
  · exact h
  split
  · exact h
  split
  · exact h
  split <;> simp [h]

@[simp] theorem State.loadClassEntries_leads (profile mode firstByte : Byte) (count : Nat)
    (entries : List WireClassEntry) :
    t.Leads (s.loadClassEntries profile mode firstByte count entries).state.trail := by
  unfold State.loadClassEntries
  split
  · split <;> simp [State.setProfile, h]
  · exact h

@[simp] theorem State.loadFieldMap_leads (profile : Byte) (targets : List Byte) (rounding overflow : Byte) :
    t.Leads (s.loadFieldMap profile targets rounding overflow).state.trail := by
  unfold State.loadFieldMap
  split
  · split
    · split <;> simp [State.setProfile, h]
    · exact h
  · exact h

@[simp] theorem State.setClock_leads (value : Nat) : t.Leads (s.setClock p value).state.trail := by
  unfold State.setClock State.setClockTo
  split
  · simp only [Answer.ok_state]
    split <;> simp [h]
  · exact h

@[simp] theorem State.setRoles_leads (target roles : Byte) : t.Leads (s.setRoles p target roles).state.trail := by
  unfold State.setRoles
  split
  · split
    · exact h
    split
    · exact State.withdrawRoles_leads (by exact h.append ..) _ _
    · exact h
  · exact h

@[simp] theorem State.setPortSettingsOf_leads (target byteOrder streamTimeout cursorTimeout : Byte) :
    t.Leads (s.setPortSettingsOf target byteOrder streamTimeout cursorTimeout).state.trail := by
  unfold State.setPortSettingsOf
  split <;> simp [h]

@[simp] theorem State.fileInfo_leads (w q : Nat) : t.Leads (s.fileInfo w q).state.trail := by
  unfold State.fileInfo
  split
  · exact h
  split <;> simp [h]

@[simp] theorem State.listFiles_leads (selector firstDay lastDay : Nat) (states : Byte) (start count : Nat) :
    t.Leads (s.listFiles selector firstDay lastDay states start count).state.trail := by
  unfold State.listFiles State.walkFiles
  split
  · split <;> simp [h]
  · exact h

@[simp] theorem State.segmentInfo_leads (n : Nat) : t.Leads (s.segmentInfo n).state.trail := by
  unfold State.segmentInfo
  split <;> simp [h]

/-! ## Requests (R154) -/

variable (tag : Byte) (need : RoleSet → Bool)

theorem State.receive_leads (formOk always : Bool) {k : State → State} (hk : t.Leads (k s).trail) :
    t.Leads (s.receive p tag formOk always k).trail := by
  rcases s.receive_cases p tag formOk always k with ⟨-, e⟩ | ⟨_, -, e⟩ | ⟨_, -, -, e⟩ | ⟨-, -, -, e⟩ <;> rw [e]
  · exact h
  · simpa using h
  · simpa using h
  · exact hk

theorem State.permit_leads {k : State → State} (hk : t.Leads (k s).trail) :
    t.Leads (s.permit p tag need k).trail := by
  unfold State.permit
  split
  · exact hk
  · simpa using h

theorem State.request_leads (formOk : Bool) {answer : State → Answer} (ha : t.Leads (answer s).state.trail) :
    t.Leads (s.request p tag formOk need answer).trail :=
  State.receive_leads h p tag formOk false (State.permit_leads h p tag need (by simpa [Answer.send] using ha))

theorem State.opening_leads {α : Type} (ask : State → Except Status α) (request : α → OpeningRequest)
    {answer : α → State → Answer} (ha : ∀ b, t.Leads (answer b s).state.trail) :
    t.Leads (s.opening p tag need ask request answer).trail := by
  refine State.receive_leads h p tag true false (State.permit_leads h p tag need ?_)
  split
  · simpa using h
  · split <;> simp [Answer.send, ha, h]

theorem State.nameCursor_leads (cursor : Byte) (held : CursorId → Standing) {take : CursorId → State → State}
    (ht : ∀ c, t.Leads (take c s).trail) : t.Leads (s.nameCursor p tag cursor held take).trail := by
  unfold State.nameCursor
  split
  · exact State.permit_leads h p tag _ (by simpa using h)
  split
  · simpa using h
  · refine State.permit_leads h p tag _ ?_
    split
    · exact ht _
    · simpa using h

end

end

/-! ## Every command -/

theorem State.event_leads {s : State} {f : State → State} (h : s.trail.Leads (f s).trail) :
    s.trail.Leads (s.event f).trail := by
  unfold State.event
  split
  · exact h
  · exact .refl

/-- What a command that goes on to `u` leads the trail to. -/
theorem Trail.Leads.next {t : Trail} {u v : State} (h : t.Leads u.trail)
    (e : (Host.Outcome.next u : Host.Outcome State Fault Refusal) = .next v) : t.Leads v.trail := by
  cases e
  exact h

theorem State.writeReport_leads {s u : State} {effect : StreamId → Nat → State → State}
    (h : ∀ x n, s.trail.Leads (effect x n s).trail) (e : s.writeReport effect = .next u) :
    s.trail.Leads u.trail := by
  unfold State.writeReport at e
  split at e
  · split at e
    · exact Trail.Leads.refl.next e
    split at e
    · exact Trail.Leads.next (by simp [h]) e
    · cases e
  · exact Trail.Leads.refl.next e

theorem execSweepReadComplete_leads {s u : State} {report : ReadReport}
    (e : execSweepReadComplete report s = .next u) : s.trail.Leads u.trail := by
  unfold execSweepReadComplete at e
  split at e
  · split at e
    · exact Trail.Leads.refl.next e
    split at e
    · exact Trail.Leads.next (by simp) e
    · cases e
  · exact Trail.Leads.refl.next e

theorem execRetrievalReadComplete_leads {s u : State} {report : ReadReport}
    (e : execRetrievalReadComplete report s = .next u) : s.trail.Leads u.trail := by
  unfold execRetrievalReadComplete at e
  split at e
  · split at e
    · exact Trail.Leads.refl.next e
    split at e
    · exact Trail.Leads.next (by simp) e
    · cases e
  · exact Trail.Leads.refl.next e

theorem exec_leads {c : Instr} {s u : State} (h : exec c s = .next u) : s.trail.Leads u.trail := by
  have request {p : PortId} {tag : Byte} {formOk : Bool} {need : RoleSet → Bool} {answer : State → Answer}
      (ha : s.trail.Leads (answer s).state.trail) := State.request_leads (t := s.trail) .refl p tag need formOk ha
  have receive {p : PortId} {tag : Byte} {formOk always : Bool} {k : State → State}
      (hk : s.trail.Leads (k s).trail) := State.receive_leads (t := s.trail) .refl p tag formOk always hk
  cases c with
  | openFile p tag => exact (State.opening_leads .refl p tag _ _ _ (by simp)).next h
  | openCursor p tag => exact (State.opening_leads .refl p tag _ _ _ (by simp)).next h
  | ingestChunk => exact (request (by simp)).next h
  | resumeStream => exact (request (by simp)).next h
  | abortStream => exact (request (by simp)).next h
  | fetchFindings => exact (request (by simp)).next h
  | fetchTrail => exact (request .refl).next h
  | ackTrail => exact (request (by simp)).next h
  | setSweepSettings => exact (request (by simp)).next h
  | startSweep => exact (request (by simp)).next h
  | stopSweep => exact (request .refl).next h
  | restartSweep => exact (request (by simp)).next h
  | loadClassEntries => exact (request (by simp)).next h
  | loadFieldMap => exact (request (by simp)).next h
  | setRetention => exact (request (by simp)).next h
  | placeHold => exact (request (by simp)).next h
  | releaseHold => exact (request (by simp)).next h
  | expireNow => exact (request (by simp)).next h
  | pauseExpiry => exact (request .refl).next h
  | resumeExpiry => exact (request (by simp)).next h
  | clearDispute => exact (request (by simp)).next h
  | acceptLoss => exact (request (by simp)).next h
  | setClock => exact (request (by simp)).next h
  | setRoles => exact (request (by simp)).next h
  | setPortSettings => exact (request (by simp)).next h
  | fileInfo => exact (request (by simp)).next h
  | listFiles => exact (request (by simp)).next h
  | segmentInfo => exact (request (by simp)).next h
  | fetchCompletions => exact (request (by simp)).next h
  | fetchRecords p tag => exact (receive (State.nameCursor_leads .refl p tag _ _ (by simp))).next h
  | closeCursor p tag => exact (receive (State.nameCursor_leads .refl p tag _ _ (by simp))).next h
  | stepSweep p tag => exact (receive (State.permit_leads .refl p tag _ (by simp))).next h
  | moduleReset p tag => exact (receive (State.permit_leads .refl p tag _ (by simp))).next h
  | partStatus => exact (receive (by simp [Answer.send])).next h
  | unknownRequestFrame p tag kind length body =>
    refine Trail.Leads.next (u := s.unknownFrame p tag kind length body) ?_ h
    unfold State.unknownFrame
    split
    · exact .refl
    · exact receive .refl
  | damagedFrameDiscarded => exact Trail.Leads.refl.next h
  | linkLoss => exact (State.event_leads (by simp)).next h
  | linkReset => exact (State.event_leads (by simp)).next h
  | linkEstablished => exact (State.event_leads (by simp)).next h
  | resetInputAsserted n =>
    refine Trail.Leads.next (State.event_leads (f := fun s => s.holdReset n) ?_) h
    unfold State.holdReset
    split <;> exact .refl
  | resetInputReleased =>
    refine Trail.Leads.next (State.event_leads (f := State.releaseReset) ?_) h
    unfold State.releaseReset
    split <;> simp
  | powerOn => exact Trail.Leads.next (u := s.powerUp) (State.takeReset_leads .refl) h
  | powerLoss => exact Trail.Leads.next (u := { s with powered := false }) .refl h
  | startupCleanup =>
    refine Trail.Leads.next (State.event_leads (f := State.startupCleanup) ?_) h
    unfold State.startupCleanup
    split <;> simp
  | sweepRestExpiry =>
    refine Trail.Leads.next (State.event_leads (f := State.restExpiry) ?_) h
    unfold State.restExpiry
    simp only
    split <;> exact .refl
  | referencePulse => exact (State.event_leads (by simp)).next h
  | internalSecond => exact (State.event_leads (by simp)).next h
  | streamCountdownExpiry => exact (State.event_leads (by simp)).next h
  | cursorIdleExpiry => exact (State.event_leads (by simp)).next h
  | streamByte => exact (State.event_leads (by simp)).next h
  | blockedStreamResumed => exact (State.event_leads (by simp)).next h
  | completionWaitServed => exact (State.event_leads (by simp)).next h
  | encoderTakeHead => exact (State.event_leads (by simp)).next h
  | storeFullWaitRetry => exact (State.event_leads (by simp)).next h
  | imageWaitEnd => exact (State.event_leads (by simp)).next h
  | closeAcknowledgement => exact (State.event_leads (by simp)).next h
  | closingStreamTrailRetry => exact (State.event_leads (by simp)).next h
  | abortReached => exact (State.event_leads (by simp)).next h
  | sweepLook => exact (State.event_leads (by simp)).next h
  | sweepLogRoom => exact (State.event_leads (by simp)).next h
  | passVisit => exact (State.event_leads (by simp)).next h
  | passTrailRetry => exact (State.event_leads (by simp)).next h
  | storeWriteComplete => exact State.writeReport_leads (effect := fun x n s => s.writeDone x n) (by simp) h
  | storeWriteError left => exact State.writeReport_leads (effect := fun x n s => s.writeFailed x n left) (by simp) h
  | sweepReadComplete => exact execSweepReadComplete_leads h
  | retrievalReadComplete => exact execRetrievalReadComplete_leads h

/-- Every step leads the trail on. -/
theorem step_leads {s u : State} (h : step s = .next u) : s.trail.Leads u.trail := by
  unfold step at h
  split at h
  · exact (State.idle_leads .refl).next h
  · next rest _ => exact exec_leads (s := { s with pending := rest }) h

end Sys2Proof.Machine

/-- Settles O8: a step does to the trail only what keeps it chained. -/
theorem trailStaysChained : Obligations.TrailStaysChained := fun _ _ chained h => (step_leads h).chained chained
end

section
/-! PROOFS. What leaves the Day Clock alone: the catalogue, the streams, the Segment Encoder and the Store Port. -/

open Sys2Proof Sys2Proof.Machine
namespace Sys2Proof.Machine

/-! ## What leaves the clock alone

Every branch of an operation is made of operations that leave the clock alone. So each lemma below splits an operation
into its branches, and `simp` follows each branch through its operations by their own lemmas. -/

/-- An operation that answers its state with something else. -/
theorem State.clock_of_fst {α : Type} {s t : State} {a : α} {r : State × α} (h : r.1.clock = s.clock)
    (e : r = (t, a)) : t.clock = s.clock := by
  subst e
  exact h

theorem State.clock_of_snd {α : Type} {s t : State} {a : α} {r : α × State} (h : r.2.clock = s.clock)
    (e : r = (a, t)) : t.clock = s.clock := by
  subst e
  exact h

theorem State.foldl_clock {α : Type} {f : State → α → State} (h : ∀ s a, (f s a).clock = s.clock) (l : List α)
    (s : State) : (l.foldl f s).clock = s.clock := by
  induction l generalizing s with
  | nil => rfl
  | cons a l ih => exact (ih _).trans (h s a)

theorem Catalogued.clock {s t : State} (h : Catalogued s t) : t.clock = s.clock := by
  obtain ⟨_, _, _, _, rfl⟩ := h
  rfl

theorem StreamsOnly.clock {s t : State} (h : StreamsOnly s t) : t.clock = s.clock := by rw [h.eq]

theorem CursorsOnly.clock {s t : State} (h : CursorsOnly s t) : t.clock = s.clock := by rw [h.eq]

/-! ## The catalogue

A request that may be STALE stands here with the state that is kept if it is. -/

section
variable (s : State) (i n a : Nat) (g : Figures) (b : Bool)

@[simp] theorem State.acceptFile_clock (r k d c : Nat) (reasons : DisputeReasons) (trailer : Option Trailer) :
    ((s.acceptFile i r k d reasons trailer c).getD s).clock = s.clock :=
  (Catalogued.getD fun _ h => State.acceptFile_catalogued h).clock

@[simp] theorem State.removeFile_clock : ((s.removeFile i).getD s).clock = s.clock :=
  (Catalogued.getD fun _ h => State.removeFile_catalogued h).clock

@[simp] theorem State.finishStored_clock : ((s.finishStored n g).getD s).clock = s.clock :=
  (Catalogued.getD fun _ h => State.finishStored_catalogued h).clock

@[simp] theorem State.finishFailed_clock : ((s.finishFailed n g b).getD s).clock = s.clock :=
  (Catalogued.getD fun _ h => State.finishFailed_catalogued h).clock

@[simp] theorem State.markSuspect_clock : ((s.markSuspect n a i b).getD s).clock = s.clock :=
  (Catalogued.getD fun _ h => State.markSuspect_catalogued h).clock

@[simp] theorem State.returnStored_clock : ((s.returnStored n a i).getD s).clock = s.clock :=
  (Catalogued.getD fun _ h => State.returnStored_catalogued h).clock

@[simp] theorem State.clearUnreported_clock : ((s.clearUnreported n a).getD s).clock = s.clock :=
  (Catalogued.getD fun _ h => State.clearUnreported_catalogued h).clock

@[simp] theorem State.markExpiring_clock : ((s.markExpiring i).getD s).clock = s.clock :=
  (Catalogued.getD fun _ h => State.markExpiring_catalogued h).clock

@[simp] theorem State.returnAccepted_clock : ((s.returnAccepted i).getD s).clock = s.clock :=
  (Catalogued.getD fun _ h => State.returnAccepted_catalogued h).clock

@[simp] theorem State.clearDispute_clock : ((s.clearDispute i).getD s).clock = s.clock :=
  (Catalogued.getD fun _ h => State.clearDispute_catalogued h).clock

@[simp] theorem State.acceptLoss_clock : ((s.acceptLoss i).getD s).clock = s.clock :=
  (Catalogued.getD fun _ h => State.acceptLoss_catalogued h).clock

@[simp] theorem State.freeSegments_clock (ns : List Nat) : (s.freeSegments ns).clock = s.clock :=
  (s.freeSegments_catalogued ns).clock

@[simp] theorem State.markAllUnreported_clock : s.markAllUnreported.clock = s.clock := rfl

@[simp] theorem State.pin_clock : (s.pin i).clock = s.clock := (s.pin_catalogued i).clock

@[simp] theorem State.reclaimStep_clock (f : File) : (s.reclaimStep i f).2.clock = s.clock :=
  (s.reclaimStep_catalogueOnly i f).clock

end

/-! ## Posts (R41, R43) -/

section
variable (s : State) (x : StreamId)

@[simp] theorem State.post_clock (d : CompletionDetail) : (s.post x d).clock = s.clock := rfl

@[simp] theorem State.waitPost_clock (d : CompletionDetail) (after : AfterPost) :
    (s.waitPost x d after).clock = s.clock := rfl

@[simp] theorem State.streamIdle_clock : (s.streamIdle x).clock = s.clock := rfl

@[simp] theorem State.enterWaiting_clock (state : StreamState) : (s.enterWaiting x state).clock = s.clock := rfl

@[simp] theorem State.closeInput_clock : (s.closeInput x).clock = s.clock := rfl

@[simp] theorem State.placeAbort_clock : (s.placeAbort x).clock = s.clock := rfl

@[simp] theorem State.stageRecord_clock (r : CallRecord) : (s.stageRecord x r).clock = s.clock := rfl

@[simp] theorem State.postNotice_clock : (s.postNotice x).clock = s.clock := by
  rcases s.postNotice_cases x with ⟨-, -, e⟩ | e <;> simp [e]

theorem State.tryPost_clock {s t : State} {x : StreamId} {d : CompletionDetail} {b : Bool}
    (h : s.tryPost x d = (t, b)) : t.clock = s.clock := by
  rcases s.tryPost_cases x d with ⟨-, e⟩ | e <;> rw [e] at h <;> cases h <;> simp

@[simp] theorem State.markAccepted_clock (reasons : DisputeReasons) : (s.markAccepted x reasons).clock = s.clock := by
  simp [State.markAccepted]

@[simp] theorem State.postThen_idle_clock (d : CompletionDetail) : (s.postThen x d .idle).clock = s.clock := by
  unfold State.postThen
  split <;> next t h => simp [State.tryPost_clock h, State.afterPost]

@[simp] theorem State.acceptStream_clock (reasons : DisputeReasons) : (s.acceptStream x reasons).clock = s.clock := by
  cases h : s.trailRoom with
  | true => simp [s.acceptStream_room x h]
  | false => simp [State.acceptStream_full h]

@[simp] theorem State.reconcile_clock : (s.reconcile x).clock = s.clock := s.acceptStream_clock x _

theorem State.rejectRecord_clock {s t : State} {x : StreamId} {reason : RejectReason} {after : AfterPost}
    {b : Bool} (h : s.rejectRecord x reason after = (t, b)) : t.clock = s.clock := by
  unfold State.rejectRecord at h
  simp only at h
  split at h
  · cases h
    simp
  · split at h <;> next u hu => cases h; simp [State.tryPost_clock hu]

@[simp] theorem State.rejectRecord_fst_clock (reason : RejectReason) (after : AfterPost) :
    (s.rejectRecord x reason after).1.clock = s.clock :=
  State.rejectRecord_clock (b := (s.rejectRecord x reason after).2) rfl

@[simp] theorem State.endOfInput_clock : (s.endOfInput x).clock = s.clock := by
  unfold State.endOfInput
  simp only
  split
  · split <;> next t h => simp [State.rejectRecord_clock h]
  · simp

@[simp] theorem State.exhaust_clock : (s.exhaust x).clock = s.clock := by
  unfold State.exhaust
  simp only
  repeat' split
  all_goals simp

@[simp] theorem State.afterPost_clock (after : AfterPost) : (s.afterPost x after).clock = s.clock := by
  cases after <;> simp [State.afterPost]

@[simp] theorem State.postThen_clock (d : CompletionDetail) (after : AfterPost) :
    (s.postThen x d after).clock = s.clock := by
  unfold State.postThen
  split <;> next t h => simp [State.tryPost_clock h]

@[simp] theorem State.serveWaiting_clock (i : WaitItem) : (s.serveWaiting i).clock = s.clock := by
  cases i with
  | notice x => exact s.postNotice_clock x
  | post x =>
    unfold State.serveWaiting
    simp only
    split
    · simp
    · split <;> next t h => simp [State.tryPost_clock h]

@[simp] theorem State.serveWaitList_clock : s.serveWaitList.clock = s.clock :=
  State.foldl_clock State.serveWaiting_clock s.waiting s

@[simp] theorem State.removeCompletions_clock (kept : List Completion) :
    (s.removeCompletions kept).clock = s.clock := by
  unfold State.removeCompletions
  split <;> simp

/-! ## The bytes of a stream (R51) -/

@[simp] theorem State.handRecord_clock (r : CallRecord) : (s.handRecord x r).clock = s.clock := by
  unfold State.handRecord
  split <;> simp

@[simp] theorem State.endRecord_clock : (s.endRecord x).clock = s.clock := by
  unfold State.endRecord
  simp only
  repeat' split
  all_goals simp

@[simp] theorem State.startTrailer_clock : (s.startTrailer x).clock = s.clock := by
  unfold State.startTrailer
  simp only
  split <;> simp

@[simp] theorem State.recordByte_clock (kind : ClassKind) (b : Byte) : (s.recordByte x kind b).clock = s.clock := by
  cases kind <;> simp [State.recordByte]

@[simp] theorem State.takeByte_clock (e : ClassEntry) (b : Byte) : (s.takeByte x e b).clock = s.clock := by
  unfold State.takeByte
  simp only
  split <;> simp

@[simp] theorem State.holdByte_clock (e : ClassEntry) (b : Byte) : (s.holdByte x e b).clock = s.clock := by
  simp [State.holdByte]

@[simp] theorem State.streamByte_clock : (s.streamByte x).clock = s.clock := by
  unfold State.streamByte
  simp only
  repeat' split
  all_goals simp

@[simp] theorem State.resumeBlocked_clock : s.resumeBlocked.clock = s.clock := by
  unfold State.resumeBlocked
  repeat' split
  all_goals simp

@[simp] theorem State.resumeHeld_clock (substitute : Option ClassEntry) :
    (s.resumeHeld x substitute).clock = s.clock := by
  unfold State.resumeHeld
  split <;> simp

@[simp] theorem State.startStream_clock (w q : Nat) : (s.startStream x w q).clock = s.clock := by
  unfold State.startStream
  repeat' split
  all_goals simp

/-! ## Aborts and the close acknowledgement (R33 to R36, R75, R76) -/

@[simp] theorem State.beginAbort_clock (cause : AbortCause) : (s.beginAbort x cause).clock = s.clock := by
  rcases s.beginAbort_cases x cause with e | e <;> rw [e] <;> rfl

@[simp] theorem State.withdrawStream_clock : (s.withdrawStream x).clock = s.clock := by
  unfold State.withdrawStream
  split <;> simp

@[simp] theorem State.closeAbort_clock : (s.closeAbort x).clock = s.clock := by
  unfold State.closeAbort
  split <;> simp

@[simp] theorem State.streamExpiry_clock : (s.streamExpiry x).clock = s.clock := by
  unfold State.streamExpiry
  simp only
  split <;> simp

@[simp] theorem State.takeCloseAck_clock (count duration : Nat) :
    (s.takeCloseAck x count duration).clock = s.clock := by
  unfold State.takeCloseAck
  simp only
  repeat' split
  all_goals simp

@[simp] theorem State.takeNotice_clock : (s.takeNotice x).clock = s.clock := by
  unfold State.takeNotice
  simp only
  split <;> simp

@[simp] theorem State.retryAcceptance_clock : (s.retryAcceptance x).clock = s.clock := by
  unfold State.retryAcceptance
  simp only
  repeat' split
  all_goals simp

@[simp] theorem State.acknowledgeClose_clock : (s.acknowledgeClose x).clock = s.clock := by
  unfold State.acknowledgeClose
  simp only
  split <;> simp

@[simp] theorem State.tellAbort_clock : (s.tellAbort x).clock = s.clock := by
  unfold State.tellAbort
  split <;> simp

/-! ## The Store Port and the Segment Encoder (R71 to R87) -/

@[simp] theorem State.startStore_clock : s.startStore.clock = s.clock := by
  unfold State.startStore
  simp only
  repeat' split
  all_goals rfl

@[simp] theorem State.endStore_clock : s.endStore.clock = s.clock := by simp [State.endStore]

@[simp] theorem State.askRead_clock (c : CursorId) (n : Nat) : (s.askRead c n).clock = s.clock := by
  simp [State.askRead]

@[simp] theorem State.askSweep_clock (n : Nat) : (s.askSweep n).clock = s.clock := by simp [State.askSweep]

theorem State.finishSegment_clock {s t : State} {x : StreamId} (h : s.finishSegment x = some t) :
    t.clock = s.clock := by
  unfold State.finishSegment at h
  simp only at h
  split at h <;> cases h
  · simp
  · simp [State.askWrite]

@[simp] theorem State.discardCounted_clock (r : CallRecord) : (s.discardCounted x r).clock = s.clock := rfl

@[simp] theorem State.endEpisode_clock : s.endEpisode.clock = s.clock := by simp [State.endEpisode_eq]

@[simp] theorem State.waitStoreFull_clock : (s.waitStoreFull x).clock = s.clock := by
  unfold State.waitStoreFull
  simp only
  repeat' split
  all_goals simp

@[simp] theorem State.placeFirst_clock (r : CallRecord) : (s.placeFirst x r).clock = s.clock := by
  unfold State.placeFirst
  split
  · simp
  · simp
  · simp
  · next h => simp [(State.allocate_catalogued h).clock]

@[simp] theorem State.placeRecord_clock (r : CallRecord) : (s.placeRecord x r).clock = s.clock := by
  unfold State.placeRecord
  simp only
  split
  · simp
  split
  · simp
  · next h => simp [State.finishSegment_clock h]

@[simp] theorem State.takeCloseMarker_clock : (s.takeCloseMarker x).clock = s.clock := by
  unfold State.takeCloseMarker
  split
  · simp
  split
  · simp
  · next h => simp [State.finishSegment_clock h]

@[simp] theorem State.carryRemoval_clock : (s.carryRemoval x).clock = s.clock := by
  unfold State.carryRemoval
  split
  · next h => simp [(State.removeFile_catalogued h).clock]
  · simp

@[simp] theorem State.takeAbortMarker_clock : (s.takeAbortMarker x).clock = s.clock := by
  unfold State.takeAbortMarker
  simp only
  repeat' split
  all_goals simp [State.withdrawWrite]

@[simp] theorem State.dealHead_clock : s.dealHead.clock = s.clock := by
  unfold State.dealHead
  repeat' split
  all_goals simp

@[simp] theorem State.takeHead_clock : s.takeHead.clock = s.clock := by
  unfold State.takeHead
  repeat' split
  all_goals simp

@[simp] theorem State.retryStoreFull_clock : s.retryStoreFull.clock = s.clock := by
  unfold State.retryStoreFull
  split <;> simp

@[simp] theorem State.endImageWait_clock : s.endImageWait.clock = s.clock := by
  unfold State.endImageWait
  repeat' split
  all_goals simp

/-! ## Reports of damage (R86, R139) -/

@[simp] theorem State.recordQuarantine_clock (kind : TrailKind) (i : Nat) :
    (s.recordQuarantine kind i).clock = s.clock := by
  unfold State.recordQuarantine
  split <;> simp

@[simp] theorem State.reportDamage_clock (f : Finding) : (s.reportDamage f).1.clock = s.clock := by
  have logged (t : State) (owed : Bool)
      (h : (if 0 < s.findingPlaces then ({ s with findings := s.findings ++ [f] }, false) else (s, true))
        = (t, owed)) :
      t.clock = s.clock := by
    split at h <;> cases h <;> simp
  unfold State.reportDamage
  split
  next t owed h =>
  simp only
  split <;> simp [logged t owed h]

@[simp] theorem State.takeDamage_clock (n a i : Nat) (kind : FindingKind) (values : Option (Nat × Nat)) :
    (s.takeDamage n a i kind values).clock = s.clock := by
  unfold State.takeDamage
  split
  · simp
  · simp

@[simp] theorem State.writeDone_clock (n : Nat) : (s.writeDone x n).clock = s.clock := by
  unfold State.writeDone
  simp only
  split
  · rfl
  split <;> simp [State.dropImage]

@[simp] theorem State.writeFailed_clock (n : Nat) (left : List Byte) : (s.writeFailed x n left).clock = s.clock := by
  unfold State.writeFailed
  simp only
  split
  · rfl
  split <;> simp [State.dropImage]

end

end Sys2Proof.Machine
end

section
/-! PROOFS. What leaves the Day Clock alone: the expiry pass, fetches, the audit sweep, resets, and the answers of the
owning blocks. -/

open Sys2Proof Sys2Proof.Machine
namespace Sys2Proof.Machine

section
variable (s : State)

/-! ## The expiry pass (R95 to R104) -/

@[simp] theorem State.passVisited_clock : s.passVisited.clock = s.clock := rfl

@[simp] theorem State.startCause_clock : s.startCause.clock = s.clock := by
  rcases s.startCause_cases with ⟨-, -, e⟩ | e <;> simp [e]

@[simp] theorem State.visitExpiring_clock (i : Nat) (f : File) : (s.visitExpiring i f).clock = s.clock := by
  unfold State.visitExpiring
  split
  · split <;> next h => simp [State.clock_of_snd (s.reclaimStep_clock i f) h]
  · simp

@[simp] theorem State.visit_clock : s.visit.clock = s.clock := by
  unfold State.visit
  simp only
  repeat' split
  all_goals simp

@[simp] theorem State.walkAgain_clock : s.walkAgain.clock = s.clock := by simp [State.walkAgain]

@[simp] theorem State.passVisit_clock : s.passVisit.clock = s.clock := by
  unfold State.passVisit
  split <;> simp

@[simp] theorem State.passRetry_clock : s.passRetry.clock = s.clock := by
  rcases s.passRetry_cases with ⟨-, -, e⟩ | e <;> simp [e]

@[simp] theorem State.returnHeld_clock (h : Hold) : (s.returnHeld h).clock = s.clock := by
  unfold State.returnHeld
  exact State.foldl_clock (by simp) _ s

/-! ## Replies and fetches (R137 to R144, R154) -/

@[simp] theorem State.answer_clock (p : PortId) (tag : Byte) (status : Status) (body : ReplyBody) :
    (s.answer p tag status body).clock = s.clock := by
  unfold State.answer
  split <;> simp

@[simp] theorem State.answerFetch_clock (c : CursorId) (status : Status) (skipped : Nat) :
    (s.answerFetch c status skipped).clock = s.clock := by
  unfold State.answerFetch
  simp only
  repeat' split
  all_goals simp

@[simp] theorem State.serveFetch_clock (c : CursorId) : (s.serveFetch c).1.clock = s.clock := by
  unfold State.serveFetch
  simp only
  repeat' split
  all_goals simp

@[simp] theorem State.takeFetch_clock (p : PortId) (tag : Byte) (c : CursorId) (count : Nat) :
    (s.takeFetch p tag c count).1.clock = s.clock := by
  simp [State.takeFetch]

@[simp] theorem State.freeCursorOf_clock (c : CursorId) : (s.freeCursorOf c).clock = s.clock :=
  (s.freeCursorOf_cursorsOnly c).clock

@[simp] theorem State.takeHeldRequest_clock (p : PortId) (o : Outstanding) :
    (s.takeHeldRequest p o).clock = s.clock := by
  unfold State.takeHeldRequest
  simp only
  repeat' split
  all_goals simp

@[simp] theorem State.takeHeld_clock (p : PortId) (c : CursorId) (n : Nat) (s : State) :
    (State.takeHeld p c n s).clock = s.clock := by
  induction n generalizing s with
  | zero => simp [State.takeHeld]
  | succ n ih =>
    unfold State.takeHeld
    split
    · simp
    split <;> simp [ih]

@[simp] theorem State.retrievalRead_clock (c : CursorId) (report : ReadReport) :
    (s.retrievalRead c report).1.clock = s.clock := by
  unfold State.retrievalRead
  simp only
  repeat' split
  all_goals simp

@[simp] theorem State.endRetrievalRead_clock (c : CursorId) (live : Bool) (report : ReadReport) :
    (s.endRetrievalRead c live report).clock = s.clock := by
  unfold State.endRetrievalRead
  split
  · simp only
    split <;> next h _ => simp [State.clock_of_fst (s.retrievalRead_clock c report) h]
  · simp

@[simp] theorem State.cursorExpiry_clock (c : CursorId) : (s.cursorExpiry c).clock = s.clock := by
  unfold State.cursorExpiry
  simp only
  split <;> simp

/-! ## Roles and port resets (R144, R157, R160) -/

@[simp] theorem State.withdrawCursor_clock (p : PortId) (c : CursorId) : (s.withdrawCursor p c).clock = s.clock := by
  unfold State.withdrawCursor
  split <;> simp

@[simp] theorem State.withdrawRoles_clock (p : PortId) (roles : RoleSet) :
    (s.withdrawRoles p roles).clock = s.clock := by
  have streams (s : State) (l : List StreamId) := State.foldl_clock State.withdrawStream_clock l s
  have cursors (s : State) (l : List CursorId) := State.foldl_clock (fun s c => s.withdrawCursor_clock p c) l s
  unfold State.withdrawRoles
  simp only
  split <;> split <;> simp [streams, cursors]

@[simp] theorem State.portReset_clock (p : PortId) : (s.portReset p).clock = s.clock := by
  have streams (s : State) (l : List StreamId) :=
    State.foldl_clock (fun s x => (s.resetStream_streamsOnly x).clock) l s
  have cursors (s : State) (l : List CursorId) := State.foldl_clock State.freeCursorOf_clock l s
  simp [State.portReset, State.dropCompletions, streams, cursors]

/-! ## The audit sweep (R109 to R121) -/

@[simp] theorem State.beginVisit_clock (n : Nat) (kind : VisitKind) : (s.beginVisit n kind).clock = s.clock := by
  simp [State.beginVisit]

@[simp] theorem State.sweepLooks_clock : s.sweepLooks.clock = s.clock := by
  unfold State.sweepLooks State.lookSegment
  simp only
  repeat' split
  all_goals simp

@[simp] theorem State.logRoom_clock : s.logRoom.clock = s.clock := by
  unfold State.logRoom
  split <;> simp

@[simp] theorem State.completeVisit_clock (v : Visit) (report : ReadReport) :
    (s.completeVisit v report).1.clock = s.clock := by
  have clean : (s.cleanSuspect v).clock = s.clock := by
    unfold State.cleanSuspect
    split
    · simp
    split <;> simp
  have stored (found : List (FindingKind × Option (Nat × Nat))) : (s.damageStored v found).1.clock = s.clock := by
    unfold State.damageStored
    simp only
    split <;> simp
  have suspect (found : List (FindingKind × Option (Nat × Nat))) : (s.damageSuspect v found).1.clock = s.clock := by
    unfold State.damageSuspect
    split <;> simp
  unfold State.completeVisit
  split
  · simp
  simp only
  split
  · split <;> simp [clean]
  split
  · exact suspect _
  · exact stored _

@[simp] theorem State.paceSweep_clock (appended : Nat) : (s.paceSweep appended).clock = s.clock := by
  unfold State.paceSweep
  simp only
  repeat' split
  all_goals simp

@[simp] theorem State.answerStep_clock (p : PortId) (tag : Byte) (n : Nat) (r : VisitResult) :
    (s.answerStep p tag n r).clock = s.clock := by
  unfold State.answerStep
  split <;> simp

@[simp] theorem State.sweepRead_clock (report : ReadReport) : (s.sweepRead report).clock = s.clock := by
  unfold State.sweepRead State.endVisit
  simp only
  repeat' split
  all_goals simp

@[simp] theorem State.stepWalk_clock (p : PortId) (tag : Byte) : (s.stepWalk p tag).1.clock = s.clock := by
  unfold State.stepWalk
  simp only
  split <;> simp

@[simp] theorem State.stepSweep_clock (p : PortId) (tag : Byte) : (s.stepSweep p tag).clock = s.clock := by
  unfold State.stepSweep
  split
  · simp
  · split <;> next h => simp [State.clock_of_fst (s.stepWalk_clock p tag) h]

/-! ## Resets and the start-up clean-up (R163 to R167) -/

@[simp] theorem State.takeReset_clock : s.takeReset.clock = s.clock := by
  rw [State.takeReset_eq]
  split <;> rfl

@[simp] theorem State.moduleReset_clock (p : PortId) (tag : Byte) : (s.moduleReset p tag).clock = s.clock := by
  simp [State.moduleReset]

@[simp] theorem State.cleanUp_clock : s.cleanUp.clock = s.clock := by
  have removed (s : State) (l : List Nat) := State.foldl_clock (fun s i => s.removeFile_clock i) l s
  simp [State.cleanUp, State.removeIngesting, State.freeFilling, removed]

end

/-! ## Answers of the owning blocks -/

section
variable (s : State) (p : PortId)

@[simp] theorem State.createOpened_clock (i : Nat) (b : OpeningFile) : (s.createOpened p i b).clock = s.clock :=
  rfl

@[simp] theorem State.openFileAnswer_clock (b : OpeningFile) : (s.openFileAnswer p b).state.clock = s.clock := by
  unfold State.openFileAnswer
  split <;> simp

@[simp] theorem State.pinOpened_clock (i : Nat) (f : File) (b : OpeningCursor) :
    (s.pinOpened p i f b).clock = s.clock := by
  simp [State.pinOpened]

@[simp] theorem State.openCursorAnswer_clock (b : OpeningCursor) : (s.openCursorAnswer p b).state.clock = s.clock := by
  unfold State.openCursorAnswer
  repeat' split
  all_goals simp

@[simp] theorem State.ingestChunk_clock (stream final nextMode : Byte) (chunk : List Byte) :
    (s.ingestChunk p stream final nextMode chunk).state.clock = s.clock := by
  unfold State.ingestChunk
  repeat' split
  all_goals simp

@[simp] theorem State.resumeStream_clock (stream present kind inCheck nextMode hold : Byte) :
    (s.resumeStream p stream present kind inCheck nextMode hold).state.clock = s.clock := by
  unfold State.resumeStream
  repeat' split
  all_goals simp

@[simp] theorem State.abortStream_clock (stream : Byte) : (s.abortStream p stream).state.clock = s.clock := by
  unfold State.abortStream
  repeat' split
  all_goals simp

@[simp] theorem State.fetchCompletions_clock : (s.fetchCompletions p).state.clock = s.clock := by
  simp [State.fetchCompletions]

@[simp] theorem State.fetchFindings_clock : s.fetchFindings.state.clock = s.clock := by simp [State.fetchFindings]

@[simp] theorem State.setSweepSettings_clock (window rest : Nat) (freeze : Byte) :
    (s.setSweepSettings window rest freeze).state.clock = s.clock := by
  unfold State.setSweepSettings
  split <;> simp

@[simp] theorem State.startSweep_clock : s.startSweep.state.clock = s.clock := by
  unfold State.startSweep
  split <;> simp

@[simp] theorem State.restartSweep_clock : s.restartSweep.state.clock = s.clock := by simp [State.restartSweep]

@[simp] theorem State.ackTrail_clock (sequence : Nat) : (s.ackTrail sequence).state.clock = s.clock := by
  unfold State.ackTrail
  split <;> simp

@[simp] theorem State.setRetention_clock (retentionClass : Byte) (days : Nat) :
    (s.setRetention p retentionClass days).state.clock = s.clock := by
  unfold State.setRetention
  repeat' split
  all_goals simp

@[simp] theorem State.placeHold_clock (selector firstDay lastDay : Nat) (present length : Byte)
    (label : List Byte) : (s.placeHold p selector firstDay lastDay present length label).state.clock = s.clock := by
  unfold State.placeHold State.placeHoldTested
  repeat' split
  all_goals simp

@[simp] theorem State.releaseHold_clock (hold : Byte) : (s.releaseHold p hold).state.clock = s.clock := by
  unfold State.releaseHold
  repeat' split
  all_goals simp

@[simp] theorem State.expireNow_clock : s.expireNow.state.clock = s.clock := by
  unfold State.expireNow
  split <;> simp

@[simp] theorem State.resumeExpiry_clock : s.resumeExpiry.state.clock = s.clock := by
  unfold State.resumeExpiry
  simp only [Answer.ok_state]
  split <;> simp

@[simp] theorem State.clearDisputeOf_clock (w q : Nat) : (s.clearDisputeOf p w q).state.clock = s.clock := by
  unfold State.clearDisputeOf
  repeat' split
  all_goals simp

@[simp] theorem State.acceptLossOf_clock (w q : Nat) : (s.acceptLossOf p w q).state.clock = s.clock := by
  unfold State.acceptLossOf
  repeat' split
  all_goals simp

@[simp] theorem State.loadClassEntries_clock (profile mode firstByte : Byte) (count : Nat)
    (entries : List WireClassEntry) :
    (s.loadClassEntries profile mode firstByte count entries).state.clock = s.clock := by
  unfold State.loadClassEntries
  repeat' split
  all_goals simp [State.setProfile]

@[simp] theorem State.loadFieldMap_clock (profile : Byte) (targets : List Byte) (rounding overflow : Byte) :
    (s.loadFieldMap profile targets rounding overflow).state.clock = s.clock := by
  unfold State.loadFieldMap
  repeat' split
  all_goals simp [State.setProfile]

@[simp] theorem State.setRoles_clock (target roles : Byte) : (s.setRoles p target roles).state.clock = s.clock := by
  unfold State.setRoles
  repeat' split
  all_goals simp [State.writeRoles]

@[simp] theorem State.setPortSettingsOf_clock (target byteOrder streamTimeout cursorTimeout : Byte) :
    (s.setPortSettingsOf target byteOrder streamTimeout cursorTimeout).state.clock = s.clock := by
  unfold State.setPortSettingsOf
  split <;> simp

@[simp] theorem State.fileInfo_clock (w q : Nat) : (s.fileInfo w q).state.clock = s.clock := by
  unfold State.fileInfo
  repeat' split
  all_goals simp

@[simp] theorem State.listFiles_clock (selector firstDay lastDay : Nat) (states : Byte) (start count : Nat) :
    (s.listFiles selector firstDay lastDay states start count).state.clock = s.clock := by
  unfold State.listFiles State.walkFiles
  repeat' split
  all_goals simp

@[simp] theorem State.segmentInfo_clock (n : Nat) : (s.segmentInfo n).state.clock = s.clock := by
  unfold State.segmentInfo
  split <;> simp

/-! ## Requests (R154) -/

theorem State.receive_clock (tag : Byte) (formOk always : Bool) {k : State → State} (h : (k s).clock = s.clock) :
    (s.receive p tag formOk always k).clock = s.clock := by
  rcases s.receive_cases p tag formOk always k with ⟨-, e⟩ | ⟨_, -, e⟩ | ⟨_, -, -, e⟩ | ⟨-, -, -, e⟩ <;> simp [e, h]

theorem State.permit_clock (tag : Byte) (need : RoleSet → Bool) {k : State → State} (h : (k s).clock = s.clock) :
    (s.permit p tag need k).clock = s.clock := by
  unfold State.permit
  split
  · exact h
  · simp

theorem State.request_clock (tag : Byte) (formOk : Bool) (need : RoleSet → Bool) {answer : State → Answer}
    (h : (answer s).state.clock = s.clock) : (s.request p tag formOk need answer).clock = s.clock := by
  rcases s.request_cases p tag formOk need answer with e | ⟨_, e⟩ | ⟨_, e⟩ | ⟨-, e⟩ <;> simp [e, Answer.send, h]

theorem State.opening_clock {α : Type} (tag : Byte) (need : RoleSet → Bool) (ask : State → Except Status α)
    (request : α → OpeningRequest) {answer : α → State → Answer} (h : ∀ b, (answer b s).state.clock = s.clock) :
    (s.opening p tag need ask request answer).clock = s.clock := by
  refine s.receive_clock p tag true false (s.permit_clock p tag need ?_)
  split
  · simp
  · split <;> simp [Answer.send, h]

theorem State.nameCursor_clock (tag cursor : Byte) (held : CursorId → Standing) {take : CursorId → State → State}
    (h : ∀ c, (take c s).clock = s.clock) : (s.nameCursor p tag cursor held take).clock = s.clock := by
  unfold State.nameCursor
  split
  · exact s.permit_clock p tag _ (by simp)
  split
  · simp
  · refine s.permit_clock p tag _ ?_
    split
    · exact h _
    · simp

end

/-! ## Between commands (log entry 31) -/

section
variable (s : State) (p : PortId)

@[simp] theorem State.sendWaiting_clock : (s.sendWaiting p).clock = s.clock :=
  State.foldl_clock (fun t c => (t.endFetch p c).takeHeld_clock p c _) _ (s.emptyLine p)

@[simp] theorem State.runOn_clock (request : OpeningRequest) : (s.runOn p request).clock = s.clock := by
  unfold State.runOn
  repeat' split
  all_goals simp

@[simp] theorem State.answerOpening_clock (o : Opening) : (s.answerOpening o).clock = s.clock := by
  rcases s.answerOpening_cases o with ⟨tag, -, e⟩ | ⟨-, e⟩ <;> rw [e]
  · cases hr : o.request <;> simp [Answer.sendLate, State.openingAnswer]
  · simp

@[simp] theorem State.idle_clock : s.idle.clock = s.clock := by
  rcases s.idle_cases with e | ⟨p, -, e⟩ | ⟨o, rest, -, e⟩ <;> simp [e]

end

end Sys2Proof.Machine
end

section
/-! PROOFS. What moves the Day Clock, and that it stays in its range: O11. -/

open Sys2Proof Sys2Proof.Machine
namespace Sys2Proof.Machine

/-! ## The clock's own changes (R147 to R149) -/

/-- The range of the clock: that of `State.clockInRange`, of which no other part of the state decides. -/
def Clock.InRange (c : Clock) : Prop :=
  c.value ≤ 4294943999 ∧ (c.atLimit = true ↔ c.value = 4294943999) ∧ c.internalSeconds ≤ 2
    ∧ (c.state = .unset → c.value = 0)

theorem State.clockInRange_iff (s : State) : s.clockInRange ↔ s.clock.InRange := Iff.rfl

/-- The clock after a second tick: it stands while UNSET or at limit, and rises by 1 otherwise (R148). -/
def Clock.tick (c : Clock) : Clock :=
  if c.state = .unset ∨ c.atLimit = true then c
  else { c with value := c.value + 1, atLimit := 4294943999 ≤ c.value + 1 }

/-- The clock with its state, reference and measure anew (R147): all that a pulse and an internal second set in it. -/
def Clock.measured (c : Clock) (state : ClockState) (present : Bool) (seconds : Nat) : Clock :=
  { c with state, referencePresent := present, internalSeconds := seconds }

@[simp] theorem State.tickCountdowns_clock (s : State) : s.tickCountdowns.clock = s.clock := rfl

@[simp] theorem State.tick_clock (s : State) : s.tick.clock = s.clock.tick := by
  unfold State.tick State.advanceClock Clock.tick
  rw [State.tickCountdowns_clock]
  simp only
  split
  · rfl
  split <;> simp [Config.clockLimit]

/-- What a set leaves of the clock: an UNSET one is REFERENCE with the reference present, HOLDOVER without. -/
theorem Clock.setTo_eq (c : Clock) (value : Nat) :
    c.setTo value = { c with
      value, atLimit := value = 4294943999
      state := if c.state ≠ .unset then c.state else if c.referencePresent then .reference else .holdover } := by
  unfold Clock.setTo
  cases hc : c.state <;> rfl

/-- A set clock is not UNSET. -/
theorem Clock.setTo_set (c : Clock) (value : Nat) : (c.setTo value).state ≠ .unset := by
  rw [Clock.setTo_eq]
  simp only
  split
  · assumption
  · split <;> simp

/-- The clock of a power-on is UNSET at 0 (R146). -/
theorem Clock.inRange_powerOn : ({} : Clock).InRange := by
  unfold Clock.InRange
  decide

section
variable {c : Clock} (h : c.InRange)
include h

/-- A set clock below its limit is below its last second, so that a tick takes it there at most. -/
theorem Clock.InRange.tick : c.tick.InRange := by
  unfold Clock.tick
  split
  · exact h
  · next moves =>
    obtain ⟨hle, limit, seconds, -⟩ := h
    obtain ⟨set, below⟩ := not_or.mp moves
    have short : c.value ≠ 4294943999 := fun e => below (limit.mpr e)
    exact ⟨by simp only; omega, by simp only [decide_eq_true_eq]; omega, seconds, fun unset => absurd unset set⟩

/-- A measure of up to 2 seconds keeps the range, as the state it comes with is UNSET only if it was. -/
theorem Clock.InRange.measured {state : ClockState} (present : Bool) {seconds : Nat} (few : seconds ≤ 2)
    (unset : state = .unset → c.state = .unset) : (c.measured state present seconds).InRange := by
  obtain ⟨hle, limit, -, zero⟩ := h
  exact ⟨hle, limit, few, fun e => zero (unset e)⟩

theorem Clock.InRange.setTo {value : Nat} (hv : value ≤ 4294943999) : (c.setTo value).InRange := by
  obtain ⟨-, -, seconds, -⟩ := h
  exact ⟨hv, decide_eq_true_iff, seconds, fun unset => absurd unset (c.setTo_set value)⟩

end

/-! ## The commands that move the clock -/

section
variable {s : State} (h : s.clock.InRange)
include h

theorem State.pulse_inRange (half : Bool) : (s.pulse half).clock.InRange := by
  unfold State.pulse
  simp only
  split
  · split
    · rw [State.tick_clock]
      exact (h.measured true (seconds := 0) (by decide) id).tick
    · exact h
  · have measured := h.measured (state := if s.clock.state = .holdover then .reference else s.clock.state) true
      (seconds := 0) (by decide) (by split <;> simp)
    split
    · rw [State.tick_clock]
      exact measured.tick
    · exact measured

theorem State.elapse_inRange : s.elapse.clock.InRange := by
  rcases s.elapse_cases with ⟨-, -, e⟩ | ⟨-, e⟩ | ⟨-, e⟩ <;> rw [e]
  · exact h.measured s.clock.referencePresent (seconds := 1) (by decide) id
  · rw [State.tick_clock, State.tick_clock]
    exact (h.measured (state := if s.clock.state = .unset then .unset else .holdover) false (by decide)
      (by split <;> simp [*])).tick.tick
  · rw [State.tick_clock]
    exact h.tick

theorem State.setClock_inRange (p : PortId) (value : Nat) : (s.setClock p value).state.clock.InRange := by
  unfold State.setClock
  split
  · have set := h.setTo (value := min value Config.clockLimit) (Nat.min_le_right ..)
    unfold State.setClockTo
    simp only [Answer.ok_state]
    split
    · rwa [State.startCause_clock]
    · exact set
  · exact h

/-- A request is turned away by its port, which leaves the clock alone, or its owning block answers it. -/
theorem State.request_inRange (p : PortId) (tag : Byte) (need : RoleSet → Bool) {answer : State → Answer}
    (ha : (answer s).state.clock.InRange) : (s.request p tag true need answer).clock.InRange := by
  rcases s.request_cases p tag true need answer with e | ⟨_, e⟩ | ⟨_, e⟩ | ⟨-, e⟩ <;> rw [e]
  · exact h
  · simpa using h
  · simpa using h
  · simpa [Answer.send] using ha

theorem State.event_inRange {f : State → State} (hf : (f s).clock.InRange) : (s.event f).clock.InRange := by
  unfold State.event
  split
  · exact hf
  · exact h

end

/-! ## Every other command -/

/-- A command that moves the clock: SET CLOCK, a pulse, an internal second, a power-on. -/
def movesClock : Instr → Bool
  | .setClock .. | .referencePulse .. | .internalSecond | .powerOn => true
  | _ => false

theorem State.event_clock {s : State} {f : State → State} (h : (f s).clock = s.clock) :
    (s.event f).clock = s.clock := by
  unfold State.event
  split
  · exact h
  · rfl

/-- A command that goes on to `u` leaves the clock that `u` has. -/
theorem State.clock_of_next {u v : State} {c : Clock} (h : u.clock = c)
    (e : (Host.Outcome.next u : Host.Outcome State Fault Refusal) = .next v) : v.clock = c := by
  cases e
  exact h

theorem State.writeReport_clock {s t : State} {effect : StreamId → Nat → State → State}
    (h : ∀ x n, (effect x n s).clock = s.clock) (e : s.writeReport effect = .next t) : t.clock = s.clock := by
  unfold State.writeReport at e
  split at e
  · split at e
    · exact State.clock_of_next rfl e
    split at e <;> cases e
    simp [h]
  · exact State.clock_of_next rfl e

theorem execSweepReadComplete_clock {s t : State} {report : ReadReport}
    (e : execSweepReadComplete report s = .next t) : t.clock = s.clock := by
  unfold execSweepReadComplete at e
  split at e
  · split at e
    · exact State.clock_of_next rfl e
    split at e <;> cases e
    simp
  · exact State.clock_of_next rfl e

theorem execRetrievalReadComplete_clock {s t : State} {report : ReadReport}
    (e : execRetrievalReadComplete report s = .next t) : t.clock = s.clock := by
  unfold execRetrievalReadComplete at e
  split at e
  · split at e
    · exact State.clock_of_next rfl e
    split at e <;> cases e
    simp
  · exact State.clock_of_next rfl e

theorem exec_clock {c : Instr} {s t : State} (hc : movesClock c = false) (h : exec c s = .next t) :
    t.clock = s.clock := by
  have next {u : State} (hu : u.clock = s.clock)
      (e : (Host.Outcome.next u : Host.Outcome State Fault Refusal) = .next t) := State.clock_of_next hu e
  have request {p : PortId} {tag : Byte} {formOk : Bool} {need : RoleSet → Bool} {answer : State → Answer}
      (ha : (answer s).state.clock = s.clock) := next (s.request_clock p tag formOk need ha)
  have receive {p : PortId} {tag : Byte} {formOk always : Bool} {k : State → State} (hk : (k s).clock = s.clock) :=
    next (s.receive_clock p tag formOk always hk)
  have event {f : State → State} (hf : (f s).clock = s.clock) := next (State.event_clock hf)
  cases c with
  | setClock | referencePulse | internalSecond | powerOn => cases hc
  | openFile p tag => exact next (s.opening_clock p tag _ _ _ (by simp)) h
  | openCursor p tag => exact next (s.opening_clock p tag _ _ _ (by simp)) h
  | ingestChunk | resumeStream | abortStream | fetchFindings | ackTrail | setSweepSettings | startSweep
  | restartSweep | loadClassEntries | loadFieldMap | setRetention | placeHold | releaseHold | expireNow
  | resumeExpiry | clearDispute | acceptLoss | setRoles | setPortSettings | fileInfo | listFiles | segmentInfo
  | fetchCompletions => exact request (by simp) h
  | fetchTrail | stopSweep | pauseExpiry => exact request rfl h
  | fetchRecords p tag => exact receive (s.nameCursor_clock p tag _ _ (by simp)) h
  | closeCursor p tag => exact receive (s.nameCursor_clock p tag _ _ (by simp)) h
  | stepSweep p tag => exact receive (s.permit_clock p tag _ (by simp)) h
  | moduleReset p tag => exact receive (s.permit_clock p tag _ (by simp)) h
  | partStatus => exact receive (by simp [Answer.send]) h
  | unknownRequestFrame p tag kind length body =>
    refine next (u := s.unknownFrame p tag kind length body) ?_ h
    unfold State.unknownFrame
    split
    · rfl
    · exact s.receive_clock p tag _ _ rfl
  | damagedFrameDiscarded => exact next rfl h
  | linkLoss p =>
    refine event (f := fun s => s.linkLost p) ?_ h
    unfold State.linkLost
    split <;> simp [State.setLink]
  | linkReset p =>
    refine event (f := fun s => s.linkReset p) ?_ h
    unfold State.linkReset
    split <;> simp
  | linkEstablished p =>
    refine event (f := fun s => s.establish p) ?_ h
    unfold State.establish
    split <;> simp [State.setLink]
  | resetInputAsserted n =>
    refine event (f := fun s => s.holdReset n) ?_ h
    unfold State.holdReset
    split <;> rfl
  | resetInputReleased =>
    refine event (f := State.releaseReset) ?_ h
    unfold State.releaseReset
    split <;> simp
  | powerLoss => exact next (u := { s with powered := false }) rfl h
  | startupCleanup =>
    refine event (f := State.startupCleanup) ?_ h
    unfold State.startupCleanup
    split <;> simp
  | sweepRestExpiry =>
    refine event (f := State.restExpiry) ?_ h
    unfold State.restExpiry
    simp only
    split <;> rfl
  | streamCountdownExpiry | cursorIdleExpiry | streamByte | blockedStreamResumed | completionWaitServed
  | encoderTakeHead | storeFullWaitRetry | imageWaitEnd | closeAcknowledgement | closingStreamTrailRetry
  | abortReached | sweepLook | sweepLogRoom | passVisit | passTrailRetry => exact event (by simp) h
  | storeWriteComplete => exact State.writeReport_clock (effect := fun x n s => s.writeDone x n) (by simp) h
  | storeWriteError left => exact State.writeReport_clock (effect := fun x n s => s.writeFailed x n left) (by simp) h
  | sweepReadComplete => exact execSweepReadComplete_clock h
  | retrievalReadComplete => exact execRetrievalReadComplete_clock h

theorem exec_inRange {c : Instr} {s t : State} (hs : s.clock.InRange) (h : exec c s = .next t) : t.clock.InRange := by
  by_cases moves : movesClock c = true
  · cases c with
    | setClock p tag value =>
      cases h
      exact State.request_inRange hs p tag _ (State.setClock_inRange hs p _)
    | referencePulse half =>
      cases h
      exact State.event_inRange hs (State.pulse_inRange hs half)
    | internalSecond =>
      cases h
      exact State.event_inRange hs (State.elapse_inRange hs)
    | powerOn =>
      cases h
      exact Clock.inRange_powerOn
    | _ => cases moves
  · rw [exec_clock (Bool.not_eq_true _ ▸ moves) h]
    exact hs

end Sys2Proof.Machine

/-- Settles O11: only SET CLOCK, pulses, internal seconds and a power-on move the clock, and each keeps its range. -/
theorem clockStaysInRange : Obligations.ClockStaysInRange := by
  intro s t hs h
  rw [State.clockInRange_iff] at hs ⊢
  unfold step at h
  split at h
  · cases h
    rwa [State.idle_clock]
  · next rest _ => exact exec_inRange (s := { s with pending := rest }) hs h
end

section
/-! PROOFS. What a pulse, an internal second and SET CLOCK come to: O55. -/

open Sys2Proof Sys2Proof.Machine
namespace Sys2Proof.Machine

/-! ## A second tick (R148, R151) -/

section
variable (s : State)

/-- With the clock set, a start cause begins a pass or sets pass-again by the pass alone (R95). -/
theorem State.startCause_of_set {s : State} (set : s.clock.state ≠ .unset) :
    s.startCause = if s.pass.state = .idle then { s with pass := s.pass.begin }
      else { s with pass := { s.pass with again := true } } := by
  simp only [State.startCause, s.clockIsSet_iff.mpr set, and_true]

/-- The pass a day begins and the countdowns of the tick are apart. -/
theorem State.tickCountdowns_startCause : s.startCause.tickCountdowns = s.tickCountdowns.startCause := by
  unfold State.startCause
  simp only [apply_ite State.tickCountdowns]
  rfl

theorem State.tick_of_still (h : s.clock.state = .unset ∨ s.clock.atLimit = true) : s.tick = s.tickCountdowns := by
  unfold State.tick State.advanceClock
  simp only [if_pos h]

/-- A tick of a clock that rises: the countdowns fall, the clock rises, and a new day is a start cause. -/
theorem State.tick_of_rising (h : ¬(s.clock.state = .unset ∨ s.clock.atLimit = true)) :
    s.tick =
      if (s.clock.value + 1) % 86400 = 0 then ({ s.tickCountdowns with clock := s.clock.tick } : State).startCause
      else { s.tickCountdowns with clock := s.clock.tick } := by
  unfold State.tick State.advanceClock Clock.tick
  simp only [if_neg h, apply_ite State.tickCountdowns, State.tickCountdowns_startCause]
  rfl

theorem Clock.tick_of_rising {c : Clock} (h : ¬(c.state = .unset ∨ c.atLimit = true)) :
    c.tick = { c with value := c.value + 1, atLimit := 4294943999 ≤ c.value + 1 } := if_neg h

end

/-! ## Pulses and internal seconds (R147) -/

section
variable {s : State}

/-- With the reference present a pulse is a tick that restarts the measure, or noise. -/
theorem State.pulse_present (half : Bool)
    (h : s.clock.state = .reference ∨ (s.clock.state = .unset ∧ s.clock.referencePresent = true)) :
    s.pulse half
      = if half then ({ s with clock := s.clock.measured s.clock.state true 0 } : State).tick else s := by
  unfold State.pulse
  simp only [if_pos h]
  rfl

/-- Without the reference a pulse brings it and restarts the measure, and is a tick besides or none. -/
theorem State.pulse_absent {state : ClockState} (half : Bool)
    (h : (s.clock.state = .holdover ∧ state = .reference)
      ∨ (s.clock.state = .unset ∧ s.clock.referencePresent = false ∧ state = .unset)) :
    s.pulse half
      = if half then ({ s with clock := s.clock.measured state true 0 } : State).tick
        else { s with clock := s.clock.measured state true 0 } := by
  unfold State.pulse
  obtain ⟨hs, rfl⟩ | ⟨hs, absent, rfl⟩ := h
  · simp only [hs]
    rfl
  · simp only [hs, absent]
    rfl

theorem State.elapse_grace (set : s.clock.state ≠ .holdover) (first : s.clock.internalSeconds = 0) :
    s.elapse = { s with clock := { s.clock with internalSeconds := 1 } } := if_pos ⟨set, first⟩

theorem State.elapse_loss (second : s.clock.internalSeconds = 1) :
    s.elapse = (State.tick
      { s with clock := s.clock.measured (if s.clock.state = .unset then .unset else .holdover) false 2 }).tick := by
  unfold State.elapse
  simp only
  rw [if_neg (by omega), if_pos second]
  rfl

theorem State.elapse_on
    (h : 2 ≤ s.clock.internalSeconds ∨ (s.clock.state = .holdover ∧ s.clock.internalSeconds = 0)) :
    s.elapse = s.tick := by
  unfold State.elapse
  simp only
  rw [if_neg (by rintro ⟨no, zero⟩; exact h.elim (by omega) fun ⟨hold, _⟩ => no hold), if_neg (by omega)]

theorem exec_referencePulse (on : s.powered = true) (half : Bool) :
    exec (.referencePulse half) s = .next (s.pulse half) := congrArg Host.Outcome.next (if_pos on)

theorem exec_internalSecond (on : s.powered = true) : exec .internalSecond s = .next s.elapse :=
  congrArg Host.Outcome.next (if_pos on)

/-! ## SET CLOCK (R149, R150) -/

variable {p : PortId} {tag : Byte}

theorem exec_setClock (ha : s.admits p tag) (hr : (s.roles p).admin = true) (value : Wire32) :
    exec (.setClock p tag value) s = .next ((s.setClock p (wire32 (s.byteOrder p) value)).send p tag) :=
  congrArg Host.Outcome.next (State.request_admitted _ ha hr)

theorem State.stamp_eq (s : State) : s.stamp = if s.clock.state = .unset then 0 else s.clock.value := by
  unfold State.stamp State.clockIsSet
  by_cases unset : s.clock.state = .unset <;> simp [unset]

/-- A later day is a start cause, and for a clock that was UNSET a day above 0 or a pass-again pending (R150). -/
theorem State.setGivesCause_iff (s : State) (value : Nat) :
    s.setGivesCause value = true ↔
      if s.clock.state = .unset then (s.pass.state = .idle ∧ s.pass.again = true) ∨ 86400 ≤ value
      else s.clock.value / 86400 < value / 86400 := by
  unfold State.setGivesCause State.clockIsSet
  by_cases unset : s.clock.state = .unset <;> simp [unset, Config.daySeconds]

/-- The state behind a CLOCK_SET entry, but for a start cause (R149). -/
def State.withClockSet (s : State) (p : PortId) (value : Nat) : State :=
  { s with
    trail := s.trail.append value .clockSet (some p) (.clock s.stamp value) 0
    clock := s.clock.setTo value }

theorem State.setClockTo_eq (s : State) (p : PortId) (value : Nat) :
    s.setClockTo p value
      = if s.setGivesCause value then (s.withClockSet p value).startCause else s.withClockSet p value := rfl

theorem exec_setClock_of_room (ha : s.admits p tag) (hr : (s.roles p).admin = true) {value : Wire32} {v : Nat}
    (hv : v = min (wire32 (s.byteOrder p) value) 4294943999) (room : s.trail.entries.length < 128) :
    exec (.setClock p tag value) s
      = .next ((s.setClockTo p v).reply p tag .ok (.clockSet s.stamp v (s.clock.setTo v).state)) := by
  have set : (s.setClockTo p v).clock = s.clock.setTo v := by
    rw [State.setClockTo_eq]
    split
    · exact State.startCause_clock _
    · rfl
  rw [exec_setClock ha hr, State.setClock, if_pos (State.trailRoom_of_lt room), ← set, hv]
  rfl

theorem exec_setClock_full (ha : s.admits p tag) (hr : (s.roles p).admin = true) (value : Wire32)
    (full : 128 ≤ s.trail.entries.length) : exec (.setClock p tag value) s = .next (s.refuse p tag .trailFull) := by
  rw [exec_setClock ha hr, State.setClock, if_neg (by simp [State.trailRoom_of_le full])]
  rfl

end

end Sys2Proof.Machine

/-- Settles O55: the tick of the statement is the model's tick, its countdowns taken first; then each command by its own
equation. -/
theorem clockFollowsItsRules : Obligations.ClockFollowsItsRules := by
  intro s fall start tick measured
  have fall_eq : fall = Countdown.tick := funext fun d => by cases d <;> rfl
  have start_eq (t : State) (set : t.clock.state ≠ .unset) : start t = t.startCause :=
    (State.startCause_of_set set).symm
  have tick_eq (t : State) : tick t = t.tick := by
    by_cases still : t.clock.state = .unset ∨ t.clock.atLimit = true
    · rw [t.tick_of_still still]
      simp only [tick, if_pos still, fall_eq]
      rfl
    · have set := (not_or.mp still).1
      rw [t.tick_of_rising still, Clock.tick_of_rising still, ← start_eq _ (by exact set)]
      simp only [tick, if_neg still, fall_eq]
      rfl
  refine ⟨fun on => ⟨fun present => ?_, fun state absent => ?_, fun set first => ?_, fun second => ?_, fun h => ?_⟩,
    fun p tag value ha hr => ?_⟩
  · rw [exec_referencePulse on, exec_referencePulse on, State.pulse_present _ present,
      State.pulse_present _ present, tick_eq]
    exact ⟨rfl, rfl⟩
  · rw [exec_referencePulse on, exec_referencePulse on, State.pulse_absent _ absent,
      State.pulse_absent _ absent, tick_eq]
    exact ⟨rfl, rfl⟩
  · rw [exec_internalSecond on, State.elapse_grace set first]
  · rw [exec_internalSecond on, State.elapse_loss second]
    simp only [tick_eq]
    rfl
  · rw [exec_internalSecond on, State.elapse_on h, tick_eq]
  · intro v state set cause body
    have stands : set = s.withClockSet p v := by
      rw [State.withClockSet, Clock.setTo_eq, State.stamp_eq]
    have told : body = .clockSet s.stamp v (s.clock.setTo v).state := by
      rw [Clock.setTo_eq, State.stamp_eq]
    rw [stands, told, start_eq _ (s.clock.setTo_set v)]
    refine ⟨fun room caused => ?_, fun room uncaused => ?_, exec_setClock_full ha hr value⟩
    · rw [exec_setClock_of_room ha hr rfl room, State.setClockTo_eq, if_pos ((s.setGivesCause_iff v).mpr caused)]
    · rw [exec_setClock_of_room ha hr rfl room, State.setClockTo_eq,
        if_neg (fun given => uncaused ((s.setGivesCause_iff v).mp given))]
end

section
/-! PROOFS. What leaves the settings of the ports and their lines alone: the catalogue, the streams, the Segment Encoder
and the Store Port. -/

open Sys2Proof Sys2Proof.Machine
namespace Sys2Proof.Machine

/-! ## What stands at the ports

A port's role set stands among its settings (R160), and its line decides whether a reply waits (log entry 31). Only
requests of ADMIN and resets write the first, and nothing writes the second. Each lemma below splits an operation into
its branches, and `simp` follows a branch through its operations by their own lemmas. -/

/-- Whether the line of each port is busy (log entry 31). -/
def portLines (ports : Vector PortState 4) (p : PortId) : Bool := ports[p].lineBusy

/-- From `s` to `t` the stored settings of the ports stand, and so does whether their lines are busy. -/
@[simp] abbrev Steady (s t : State) : Prop :=
  t.settings.ports = s.settings.ports ∧ portLines t.ports = portLines s.ports

@[simp] theorem portLines_set (ports : Vector PortState 4) (p : PortId) (q : PortState)
    (h : q.lineBusy = ports[p].lineBusy) : portLines (ports.set p q) = portLines ports := by
  funext r
  unfold portLines
  by_cases e : p = r
  · subst e
    rw [getElem_set_fin, h]
  · rw [getElem_set_fin_ne _ _ _ _ e]

@[simp] theorem portLines_ite (c : Prop) [Decidable c] (v w : Vector PortState 4) :
    portLines (if c then v else w) = if c then portLines v else portLines w := apply_ite ..

theorem Steady.trans {s t u : State} (h : Steady s t) (k : Steady t u) : Steady s u :=
  ⟨k.1.trans h.1, k.2.trans h.2⟩

/-- An operation that answers its state with something else. -/
theorem Steady.of_fst {α : Type} {s t : State} {a : α} {r : State × α} (h : Steady s r.1) (e : r = (t, a)) :
    Steady s t := by
  subst e
  exact h

theorem Steady.of_snd {α : Type} {s t : State} {a : α} {r : α × State} (h : Steady s r.2) (e : r = (a, t)) :
    Steady s t := by
  subst e
  exact h

theorem Steady.foldl {α : Type} {f : State → α → State} (h : ∀ s a, Steady s (f s a)) (l : List α) (s : State) :
    Steady s (l.foldl f s) := by
  induction l generalizing s with
  | nil => exact ⟨rfl, rfl⟩
  | cons a l ih => exact (h s a).trans (ih _)

theorem Catalogued.steady {s t : State} (h : Catalogued s t) : Steady s t := by
  obtain ⟨_, _, _, _, rfl⟩ := h
  exact ⟨rfl, rfl⟩

theorem CatalogueOnly.steady {s t : State} (h : CatalogueOnly s t) : Steady s t := by
  rw [h.eq]
  exact ⟨rfl, rfl⟩

theorem StreamsOnly.steady {s t : State} (h : StreamsOnly s t) : Steady s t := by
  rw [h.eq]
  exact ⟨rfl, rfl⟩

theorem CursorsOnly.steady {s t : State} (h : CursorsOnly s t) : Steady s t := by
  rw [h.eq]
  exact ⟨rfl, rfl⟩

/-! ## The catalogue

A request that may be STALE stands here with the state that is kept if it is. -/

section
variable (s : State) (i n a : Nat) (g : Figures) (b : Bool)

@[simp] theorem State.acceptFile_steady (r k d c : Nat) (reasons : DisputeReasons) (trailer : Option Trailer) :
    Steady s ((s.acceptFile i r k d reasons trailer c).getD s) :=
  (Catalogued.getD fun _ h => State.acceptFile_catalogued h).steady

@[simp] theorem State.removeFile_steady : Steady s ((s.removeFile i).getD s) :=
  (Catalogued.getD fun _ h => State.removeFile_catalogued h).steady

@[simp] theorem State.finishStored_steady : Steady s ((s.finishStored n g).getD s) :=
  (Catalogued.getD fun _ h => State.finishStored_catalogued h).steady

@[simp] theorem State.finishFailed_steady : Steady s ((s.finishFailed n g b).getD s) :=
  (Catalogued.getD fun _ h => State.finishFailed_catalogued h).steady

@[simp] theorem State.markSuspect_steady : Steady s ((s.markSuspect n a i b).getD s) :=
  (Catalogued.getD fun _ h => State.markSuspect_catalogued h).steady

@[simp] theorem State.returnStored_steady : Steady s ((s.returnStored n a i).getD s) :=
  (Catalogued.getD fun _ h => State.returnStored_catalogued h).steady

@[simp] theorem State.clearUnreported_steady : Steady s ((s.clearUnreported n a).getD s) :=
  (Catalogued.getD fun _ h => State.clearUnreported_catalogued h).steady

@[simp] theorem State.markExpiring_steady : Steady s ((s.markExpiring i).getD s) :=
  (Catalogued.getD fun _ h => State.markExpiring_catalogued h).steady

@[simp] theorem State.returnAccepted_steady : Steady s ((s.returnAccepted i).getD s) :=
  (Catalogued.getD fun _ h => State.returnAccepted_catalogued h).steady

@[simp] theorem State.clearDispute_steady : Steady s ((s.clearDispute i).getD s) :=
  (Catalogued.getD fun _ h => State.clearDispute_catalogued h).steady

@[simp] theorem State.acceptLoss_steady : Steady s ((s.acceptLoss i).getD s) :=
  (Catalogued.getD fun _ h => State.acceptLoss_catalogued h).steady

@[simp] theorem State.freeSegments_steady (ns : List Nat) : Steady s (s.freeSegments ns) :=
  (s.freeSegments_catalogued ns).steady

@[simp] theorem State.markAllUnreported_steady : Steady s s.markAllUnreported := ⟨rfl, rfl⟩

@[simp] theorem State.pin_steady : Steady s (s.pin i) := (s.pin_catalogued i).steady

@[simp] theorem State.reclaimStep_steady (f : File) : Steady s (s.reclaimStep i f).2 :=
  (s.reclaimStep_catalogueOnly i f).steady

end

/-! ## Posts (R41, R43) -/

section
variable (s : State) (x : StreamId)

@[simp] theorem State.post_steady (d : CompletionDetail) : Steady s (s.post x d) := ⟨rfl, rfl⟩

@[simp] theorem State.waitPost_steady (d : CompletionDetail) (after : AfterPost) :
    Steady s (s.waitPost x d after) := ⟨rfl, rfl⟩

@[simp] theorem State.streamIdle_steady : Steady s (s.streamIdle x) := ⟨rfl, rfl⟩

@[simp] theorem State.enterWaiting_steady (state : StreamState) : Steady s (s.enterWaiting x state) := ⟨rfl, rfl⟩

@[simp] theorem State.closeInput_steady : Steady s (s.closeInput x) := ⟨rfl, rfl⟩

@[simp] theorem State.placeAbort_steady : Steady s (s.placeAbort x) := ⟨rfl, rfl⟩

@[simp] theorem State.stageRecord_steady (r : CallRecord) : Steady s (s.stageRecord x r) := ⟨rfl, rfl⟩

@[simp] theorem State.postNotice_steady : Steady s (s.postNotice x) := by
  rcases s.postNotice_cases x with ⟨-, -, e⟩ | e <;> simp [e]

theorem State.tryPost_steady {s t : State} {x : StreamId} {d : CompletionDetail} {b : Bool}
    (h : s.tryPost x d = (t, b)) : Steady s t := by
  rcases s.tryPost_cases x d with ⟨-, e⟩ | e <;> rw [e] at h <;> cases h <;> simp

@[simp] theorem State.markAccepted_steady (reasons : DisputeReasons) : Steady s (s.markAccepted x reasons) := by
  simp [State.markAccepted]

@[simp] theorem State.postThen_idle_steady (d : CompletionDetail) : Steady s (s.postThen x d .idle) := by
  unfold State.postThen
  split <;> next t h => simp [State.tryPost_steady h, State.afterPost]

@[simp] theorem State.acceptStream_steady (reasons : DisputeReasons) : Steady s (s.acceptStream x reasons) := by
  cases h : s.trailRoom with
  | true => simp [s.acceptStream_room x h]
  | false => simp [State.acceptStream_full h]

@[simp] theorem State.reconcile_steady : Steady s (s.reconcile x) := s.acceptStream_steady x _

theorem State.rejectRecord_steady {s t : State} {x : StreamId} {reason : RejectReason} {after : AfterPost}
    {b : Bool} (h : s.rejectRecord x reason after = (t, b)) : Steady s t := by
  unfold State.rejectRecord at h
  simp only at h
  split at h
  · cases h
    simp
  · split at h <;> next u hu => cases h; simp [State.tryPost_steady hu]

@[simp] theorem State.rejectRecord_fst_steady (reason : RejectReason) (after : AfterPost) :
    Steady s (s.rejectRecord x reason after).1 :=
  State.rejectRecord_steady (b := (s.rejectRecord x reason after).2) rfl

@[simp] theorem State.endOfInput_steady : Steady s (s.endOfInput x) := by
  unfold State.endOfInput
  simp only
  split
  · split <;> next t h => simp [State.rejectRecord_steady h]
  · simp

@[simp] theorem State.exhaust_steady : Steady s (s.exhaust x) := by
  unfold State.exhaust
  simp only
  repeat' split
  all_goals simp

@[simp] theorem State.afterPost_steady (after : AfterPost) : Steady s (s.afterPost x after) := by
  cases after <;> simp [State.afterPost]

@[simp] theorem State.postThen_steady (d : CompletionDetail) (after : AfterPost) :
    Steady s (s.postThen x d after) := by
  unfold State.postThen
  split <;> next t h => simp [State.tryPost_steady h]

@[simp] theorem State.serveWaiting_steady (i : WaitItem) : Steady s (s.serveWaiting i) := by
  cases i with
  | notice x => exact s.postNotice_steady x
  | post x =>
    unfold State.serveWaiting
    simp only
    split
    · simp
    · split <;> next t h => simp [State.tryPost_steady h]

@[simp] theorem State.serveWaitList_steady : Steady s s.serveWaitList :=
  Steady.foldl State.serveWaiting_steady s.waiting s

@[simp] theorem State.removeCompletions_steady (kept : List Completion) :
    Steady s (s.removeCompletions kept) := by
  unfold State.removeCompletions
  split <;> simp

/-! ## The bytes of a stream (R51) -/

@[simp] theorem State.handRecord_steady (r : CallRecord) : Steady s (s.handRecord x r) := by
  unfold State.handRecord
  split <;> simp

@[simp] theorem State.endRecord_steady : Steady s (s.endRecord x) := by
  unfold State.endRecord
  simp only
  repeat' split
  all_goals simp

@[simp] theorem State.startTrailer_steady : Steady s (s.startTrailer x) := by
  unfold State.startTrailer
  simp only
  split <;> simp

@[simp] theorem State.recordByte_steady (kind : ClassKind) (b : Byte) : Steady s (s.recordByte x kind b) := by
  cases kind <;> simp [State.recordByte]

@[simp] theorem State.takeByte_steady (e : ClassEntry) (b : Byte) : Steady s (s.takeByte x e b) := by
  unfold State.takeByte
  simp only
  split <;> simp

@[simp] theorem State.holdByte_steady (e : ClassEntry) (b : Byte) : Steady s (s.holdByte x e b) := by
  simp [State.holdByte]

@[simp] theorem State.streamByte_steady : Steady s (s.streamByte x) := by
  unfold State.streamByte
  simp only
  repeat' split
  all_goals simp

@[simp] theorem State.resumeBlocked_steady : Steady s s.resumeBlocked := by
  unfold State.resumeBlocked
  repeat' split
  all_goals simp

@[simp] theorem State.resumeHeld_steady (substitute : Option ClassEntry) :
    Steady s (s.resumeHeld x substitute) := by
  unfold State.resumeHeld
  split <;> simp

@[simp] theorem State.startStream_steady (w q : Nat) : Steady s (s.startStream x w q) := by
  unfold State.startStream
  repeat' split
  all_goals simp

/-! ## Aborts and the close acknowledgement (R33 to R36, R75, R76) -/

@[simp] theorem State.beginAbort_steady (cause : AbortCause) : Steady s (s.beginAbort x cause) := by
  rcases s.beginAbort_cases x cause with e | e <;> rw [e] <;> exact ⟨rfl, rfl⟩

@[simp] theorem State.withdrawStream_steady : Steady s (s.withdrawStream x) := by
  unfold State.withdrawStream
  split <;> simp

@[simp] theorem State.closeAbort_steady : Steady s (s.closeAbort x) := by
  unfold State.closeAbort
  split <;> simp

@[simp] theorem State.streamExpiry_steady : Steady s (s.streamExpiry x) := by
  unfold State.streamExpiry
  simp only
  split <;> simp

@[simp] theorem State.takeCloseAck_steady (count duration : Nat) :
    Steady s (s.takeCloseAck x count duration) := by
  unfold State.takeCloseAck
  simp only
  repeat' split
  all_goals simp

@[simp] theorem State.takeNotice_steady : Steady s (s.takeNotice x) := by
  unfold State.takeNotice
  simp only
  split <;> simp

@[simp] theorem State.retryAcceptance_steady : Steady s (s.retryAcceptance x) := by
  unfold State.retryAcceptance
  simp only
  repeat' split
  all_goals simp

@[simp] theorem State.acknowledgeClose_steady : Steady s (s.acknowledgeClose x) := by
  unfold State.acknowledgeClose
  simp only
  split <;> simp

@[simp] theorem State.tellAbort_steady : Steady s (s.tellAbort x) := by
  unfold State.tellAbort
  split <;> simp

/-! ## The Store Port and the Segment Encoder (R71 to R87) -/

@[simp] theorem State.startStore_steady : Steady s s.startStore := by
  unfold State.startStore
  simp only
  repeat' split
  all_goals exact ⟨rfl, rfl⟩

@[simp] theorem State.endStore_steady : Steady s s.endStore := by simp [State.endStore]

@[simp] theorem State.askRead_steady (c : CursorId) (n : Nat) : Steady s (s.askRead c n) := by
  simp [State.askRead]

@[simp] theorem State.askSweep_steady (n : Nat) : Steady s (s.askSweep n) := by simp [State.askSweep]

theorem State.finishSegment_steady {s t : State} {x : StreamId} (h : s.finishSegment x = some t) :
    Steady s t := by
  unfold State.finishSegment at h
  simp only at h
  split at h <;> cases h
  · simp
  · simp [State.askWrite]

@[simp] theorem State.discardCounted_steady (r : CallRecord) : Steady s (s.discardCounted x r) := ⟨rfl, rfl⟩

@[simp] theorem State.endEpisode_steady : Steady s s.endEpisode := by simp [State.endEpisode_eq]

@[simp] theorem State.waitStoreFull_steady : Steady s (s.waitStoreFull x) := by
  unfold State.waitStoreFull
  simp only
  repeat' split
  all_goals simp

@[simp] theorem State.placeFirst_steady (r : CallRecord) : Steady s (s.placeFirst x r) := by
  unfold State.placeFirst
  split
  · simp
  · simp
  · simp
  · next h => simp [(State.allocate_catalogued h).steady]

@[simp] theorem State.placeRecord_steady (r : CallRecord) : Steady s (s.placeRecord x r) := by
  unfold State.placeRecord
  simp only
  split
  · simp
  split
  · simp
  · next h => simp [State.finishSegment_steady h]

@[simp] theorem State.takeCloseMarker_steady : Steady s (s.takeCloseMarker x) := by
  unfold State.takeCloseMarker
  split
  · simp
  split
  · simp
  · next h => simp [State.finishSegment_steady h]

@[simp] theorem State.carryRemoval_steady : Steady s (s.carryRemoval x) := by
  unfold State.carryRemoval
  split
  · next h => simp [(State.removeFile_catalogued h).steady]
  · simp

@[simp] theorem State.takeAbortMarker_steady : Steady s (s.takeAbortMarker x) := by
  unfold State.takeAbortMarker
  simp only
  repeat' split
  all_goals simp [State.withdrawWrite]

@[simp] theorem State.dealHead_steady : Steady s s.dealHead := by
  unfold State.dealHead
  repeat' split
  all_goals simp

@[simp] theorem State.takeHead_steady : Steady s s.takeHead := by
  unfold State.takeHead
  repeat' split
  all_goals simp

@[simp] theorem State.retryStoreFull_steady : Steady s s.retryStoreFull := by
  unfold State.retryStoreFull
  split <;> simp

@[simp] theorem State.endImageWait_steady : Steady s s.endImageWait := by
  unfold State.endImageWait
  repeat' split
  all_goals simp

/-! ## Reports of damage (R86, R139) -/

@[simp] theorem State.recordQuarantine_steady (kind : TrailKind) (i : Nat) :
    Steady s (s.recordQuarantine kind i) := by
  unfold State.recordQuarantine
  split <;> simp

@[simp] theorem State.reportDamage_steady (f : Finding) : Steady s (s.reportDamage f).1 := by
  have logged (t : State) (owed : Bool)
      (h : (if 0 < s.findingPlaces then ({ s with findings := s.findings ++ [f] }, false) else (s, true))
        = (t, owed)) :
      Steady s t := by
    split at h <;> cases h <;> simp
  unfold State.reportDamage
  split
  next t owed h =>
  simp only
  split <;> simp [logged t owed h]

@[simp] theorem State.takeDamage_steady (n a i : Nat) (kind : FindingKind) (values : Option (Nat × Nat)) :
    Steady s (s.takeDamage n a i kind values) := by
  unfold State.takeDamage
  split
  · simp
  · simp

@[simp] theorem State.writeDone_steady (n : Nat) : Steady s (s.writeDone x n) := by
  unfold State.writeDone
  simp only
  split
  · exact ⟨rfl, rfl⟩
  split <;> simp [State.dropImage]

@[simp] theorem State.writeFailed_steady (n : Nat) (left : List Byte) : Steady s (s.writeFailed x n left) := by
  unfold State.writeFailed
  simp only
  split
  · exact ⟨rfl, rfl⟩
  split <;> simp [State.dropImage]

end

end Sys2Proof.Machine
end

section
/-! PROOFS. What leaves the settings of the ports and their lines alone: the expiry pass, the Day Clock, fetches, port
resets and the audit sweep. -/

open Sys2Proof Sys2Proof.Machine
namespace Sys2Proof.Machine

section
variable (s : State)

/-! ## The expiry pass (R95 to R104) -/

@[simp] theorem State.passVisited_steady : Steady s s.passVisited := ⟨rfl, rfl⟩

@[simp] theorem State.startCause_steady : Steady s s.startCause := by
  rcases s.startCause_cases with ⟨-, -, e⟩ | e <;> simp [e]

@[simp] theorem State.visitExpiring_steady (i : Nat) (f : File) : Steady s (s.visitExpiring i f) := by
  unfold State.visitExpiring
  split
  · split <;> next h => simp [Steady.of_snd (s.reclaimStep_steady i f) h]
  · simp

@[simp] theorem State.visit_steady : Steady s s.visit := by
  unfold State.visit
  simp only
  repeat' split
  all_goals simp

@[simp] theorem State.walkAgain_steady : Steady s s.walkAgain := by simp [State.walkAgain]

@[simp] theorem State.passVisit_steady : Steady s s.passVisit := by
  unfold State.passVisit
  split <;> simp

@[simp] theorem State.passRetry_steady : Steady s s.passRetry := by
  rcases s.passRetry_cases with ⟨-, -, e⟩ | e <;> simp [e]

@[simp] theorem State.returnHeld_steady (h : Hold) : Steady s (s.returnHeld h) := by
  unfold State.returnHeld
  exact Steady.foldl (by simp) _ s

/-! ## The Day Clock (R147 to R151) -/

@[simp] theorem State.tick_steady : Steady s s.tick := by
  unfold State.tick State.advanceClock State.tickCountdowns
  simp only
  repeat' split
  all_goals simp

@[simp] theorem State.pulse_steady (half : Bool) : Steady s (s.pulse half) := by
  unfold State.pulse
  simp only
  repeat' split
  all_goals simp

@[simp] theorem State.elapse_steady : Steady s s.elapse := by
  rcases s.elapse_cases with ⟨-, -, e⟩ | ⟨-, e⟩ | ⟨-, e⟩ <;> simp [e]

/-! ## Replies and fetches (R137 to R144, R154) -/

@[simp] theorem State.answer_steady (p : PortId) (tag : Byte) (status : Status) (body : ReplyBody) :
    Steady s (s.answer p tag status body) := by
  unfold State.answer
  split <;> simp

@[simp] theorem State.answerFetch_steady (c : CursorId) (status : Status) (skipped : Nat) :
    Steady s (s.answerFetch c status skipped) := by
  unfold State.answerFetch
  simp only
  repeat' split
  all_goals simp

@[simp] theorem State.serveFetch_steady (c : CursorId) : Steady s (s.serveFetch c).1 := by
  unfold State.serveFetch
  simp only
  repeat' split
  all_goals simp

@[simp] theorem State.takeFetch_steady (p : PortId) (tag : Byte) (c : CursorId) (count : Nat) :
    Steady s (s.takeFetch p tag c count).1 := by
  simp [State.takeFetch]

@[simp] theorem State.freeCursorOf_steady (c : CursorId) : Steady s (s.freeCursorOf c) :=
  (s.freeCursorOf_cursorsOnly c).steady

@[simp] theorem State.takeHeldRequest_steady (p : PortId) (o : Outstanding) :
    Steady s (s.takeHeldRequest p o) := by
  unfold State.takeHeldRequest
  simp only
  repeat' split
  all_goals simp

@[simp] theorem State.takeHeld_steady (p : PortId) (c : CursorId) (n : Nat) (s : State) :
    Steady s (State.takeHeld p c n s) := by
  induction n generalizing s with
  | zero => simp [State.takeHeld]
  | succ n ih =>
    unfold State.takeHeld
    split
    · simp
    split <;> simp [ih]

@[simp] theorem State.retrievalRead_steady (c : CursorId) (report : ReadReport) :
    Steady s (s.retrievalRead c report).1 := by
  unfold State.retrievalRead
  simp only
  repeat' split
  all_goals simp

@[simp] theorem State.endRetrievalRead_steady (c : CursorId) (live : Bool) (report : ReadReport) :
    Steady s (s.endRetrievalRead c live report) := by
  unfold State.endRetrievalRead
  split
  · simp only
    split <;> next h _ => simp [Steady.of_fst (s.retrievalRead_steady c report) h]
  · simp

@[simp] theorem State.cursorExpiry_steady (c : CursorId) : Steady s (s.cursorExpiry c) := by
  unfold State.cursorExpiry
  simp only
  split <;> simp

/-! ## Roles and port resets (R144, R157, R160) -/

@[simp] theorem State.withdrawCursor_steady (p : PortId) (c : CursorId) : Steady s (s.withdrawCursor p c) := by
  unfold State.withdrawCursor
  split <;> simp

@[simp] theorem State.withdrawRoles_steady (p : PortId) (roles : RoleSet) :
    Steady s (s.withdrawRoles p roles) := by
  have streams (s : State) (l : List StreamId) := Steady.foldl State.withdrawStream_steady l s
  have cursors (s : State) (l : List CursorId) := Steady.foldl (fun s c => s.withdrawCursor_steady p c) l s
  unfold State.withdrawRoles
  simp only
  split <;> split <;> simp [streams, cursors]

@[simp] theorem State.portReset_steady (p : PortId) : Steady s (s.portReset p) := by
  have streams (s : State) (l : List StreamId) :=
    Steady.foldl (fun s x => (s.resetStream_streamsOnly x).steady) l s
  have cursors (s : State) (l : List CursorId) := Steady.foldl State.freeCursorOf_steady l s
  simp [State.portReset, State.dropCompletions, streams, cursors]

/-! ## The audit sweep (R109 to R121) -/

@[simp] theorem State.beginVisit_steady (n : Nat) (kind : VisitKind) : Steady s (s.beginVisit n kind) := by
  simp [State.beginVisit]

@[simp] theorem State.sweepLooks_steady : Steady s s.sweepLooks := by
  unfold State.sweepLooks State.lookSegment
  simp only
  repeat' split
  all_goals simp

@[simp] theorem State.logRoom_steady : Steady s s.logRoom := by
  unfold State.logRoom
  split <;> simp

@[simp] theorem State.completeVisit_steady (v : Visit) (report : ReadReport) :
    Steady s (s.completeVisit v report).1 := by
  have clean : Steady s (s.cleanSuspect v) := by
    unfold State.cleanSuspect
    split
    · simp
    split <;> simp
  have stored (found : List (FindingKind × Option (Nat × Nat))) : Steady s (s.damageStored v found).1 := by
    unfold State.damageStored
    simp only
    split <;> simp
  have suspect (found : List (FindingKind × Option (Nat × Nat))) : Steady s (s.damageSuspect v found).1 := by
    unfold State.damageSuspect
    split <;> simp
  unfold State.completeVisit
  split
  · simp
  simp only
  split
  · split <;> simp [clean]
  split
  · exact suspect _
  · exact stored _

@[simp] theorem State.paceSweep_steady (appended : Nat) : Steady s (s.paceSweep appended) := by
  unfold State.paceSweep
  simp only
  repeat' split
  all_goals simp

@[simp] theorem State.answerStep_steady (p : PortId) (tag : Byte) (n : Nat) (r : VisitResult) :
    Steady s (s.answerStep p tag n r) := by
  unfold State.answerStep
  split <;> simp

@[simp] theorem State.sweepRead_steady (report : ReadReport) : Steady s (s.sweepRead report) := by
  unfold State.sweepRead State.endVisit
  simp only
  repeat' split
  all_goals simp

@[simp] theorem State.stepWalk_steady (p : PortId) (tag : Byte) : Steady s (s.stepWalk p tag).1 := by
  unfold State.stepWalk
  simp only
  split <;> simp

/-! ## The start-up clean-up (R166, R167) -/

@[simp] theorem State.cleanUp_steady : Steady s s.cleanUp := by
  have removed (s : State) (l : List Nat) := Steady.foldl (fun s i => s.removeFile_steady i) l s
  simp [State.cleanUp, State.removeIngesting, State.freeFilling, removed]

end

end Sys2Proof.Machine
end

section
/-! PROOFS. How the owning blocks decide a request: refused, or OK with the stations kept. -/

open Sys2Proof Sys2Proof.Machine
namespace Sys2Proof.Machine

/-! ## The stations -/

/-- From `s` to `t` the lines are as busy as before, and some port holds ADMIN if one did. -/
structure StationsKept (s t : State) : Prop where
  lines : portLines t.ports = portLines s.ports
  admin : s.adminHeld → t.adminHeld

theorem Steady.stations {s t : State} (h : Steady s t) : StationsKept s t where
  lines := h.2
  admin := by
    rintro ⟨p, hp⟩
    refine ⟨p, ?_⟩
    unfold State.roles at hp ⊢
    rwa [h.1]

/-- How an owning block decides a request: a refusal of the state as it is, or an OK that keeps the stations. -/
inductive Answer.Decided (s : State) : Answer → Prop
  | refusal (status : Status) : Decided s (.refusal status s)
  | ok (body : ReplyBody) {t : State} (kept : StationsKept s t) : Decided s (.ok body t)

@[simp] theorem Answer.decided_refusal (s : State) (status : Status) : (Answer.refusal status s).Decided s :=
  .refusal status

@[simp] theorem Answer.decided_ok {s t : State} (body : ReplyBody) (h : Steady s t) : (Answer.ok body t).Decided s :=
  .ok body h.stations

/-! ## The decisions of the owning blocks -/

section
variable (s : State) (p : PortId)

@[simp] theorem State.createOpened_steady (i : Nat) (b : OpeningFile) : Steady s (s.createOpened p i b) := ⟨rfl, rfl⟩

@[simp] theorem State.openFileAnswer_decided (b : OpeningFile) : (s.openFileAnswer p b).Decided s := by
  unfold State.openFileAnswer
  split <;> simp

@[simp] theorem State.pinOpened_steady (i : Nat) (f : File) (b : OpeningCursor) : Steady s (s.pinOpened p i f b) := by
  simp [State.pinOpened]

@[simp] theorem State.openCursorAnswer_decided (b : OpeningCursor) : (s.openCursorAnswer p b).Decided s := by
  unfold State.openCursorAnswer
  repeat' split
  all_goals simp

@[simp] theorem State.ingestChunk_decided (stream final nextMode : Byte) (chunk : List Byte) :
    (s.ingestChunk p stream final nextMode chunk).Decided s := by
  unfold State.ingestChunk
  repeat' split
  all_goals simp

@[simp] theorem State.resumeStream_decided (stream present kind inCheck nextMode hold : Byte) :
    (s.resumeStream p stream present kind inCheck nextMode hold).Decided s := by
  unfold State.resumeStream
  repeat' split
  all_goals simp

@[simp] theorem State.abortStream_decided (stream : Byte) : (s.abortStream p stream).Decided s := by
  unfold State.abortStream
  repeat' split
  all_goals simp

@[simp] theorem State.fetchCompletions_decided : (s.fetchCompletions p).Decided s := by simp [State.fetchCompletions]

@[simp] theorem State.fetchFindings_decided : s.fetchFindings.Decided s := by simp [State.fetchFindings]

@[simp] theorem State.fetchTrail_decided : s.fetchTrail.Decided s := by simp [State.fetchTrail]

@[simp] theorem State.ackTrail_decided (sequence : Nat) : (s.ackTrail sequence).Decided s := by
  unfold State.ackTrail
  split <;> simp

@[simp] theorem State.setSweepSettings_decided (window rest : Nat) (freeze : Byte) :
    (s.setSweepSettings window rest freeze).Decided s := by
  unfold State.setSweepSettings
  split <;> simp

@[simp] theorem State.startSweep_decided : s.startSweep.Decided s := by
  unfold State.startSweep
  split <;> simp

@[simp] theorem State.stopSweep_decided : s.stopSweep.Decided s := by simp [State.stopSweep]

@[simp] theorem State.restartSweep_decided : s.restartSweep.Decided s := by simp [State.restartSweep]

@[simp] theorem State.setRetention_decided (retentionClass : Byte) (days : Nat) :
    (s.setRetention p retentionClass days).Decided s := by
  unfold State.setRetention
  repeat' split
  all_goals simp

@[simp] theorem State.placeHold_decided (selector firstDay lastDay : Nat) (present length : Byte)
    (label : List Byte) : (s.placeHold p selector firstDay lastDay present length label).Decided s := by
  unfold State.placeHold State.placeHoldTested
  repeat' split
  all_goals simp

@[simp] theorem State.releaseHold_decided (hold : Byte) : (s.releaseHold p hold).Decided s := by
  unfold State.releaseHold
  repeat' split
  all_goals simp

@[simp] theorem State.expireNow_decided : s.expireNow.Decided s := by
  unfold State.expireNow
  split <;> simp

@[simp] theorem State.pauseExpiry_decided : s.pauseExpiry.Decided s := by simp [State.pauseExpiry]

@[simp] theorem State.resumeExpiry_decided : s.resumeExpiry.Decided s := by
  refine Answer.decided_ok .empty ?_
  split <;> simp

@[simp] theorem State.clearDisputeOf_decided (w q : Nat) : (s.clearDisputeOf p w q).Decided s := by
  unfold State.clearDisputeOf
  repeat' split
  all_goals simp

@[simp] theorem State.acceptLossOf_decided (w q : Nat) : (s.acceptLossOf p w q).Decided s := by
  unfold State.acceptLossOf
  repeat' split
  all_goals simp

@[simp] theorem State.loadClassEntries_decided (profile mode firstByte : Byte) (count : Nat)
    (entries : List WireClassEntry) : (s.loadClassEntries profile mode firstByte count entries).Decided s := by
  unfold State.loadClassEntries
  repeat' split
  all_goals simp [State.setProfile]

@[simp] theorem State.loadFieldMap_decided (profile : Byte) (targets : List Byte) (rounding overflow : Byte) :
    (s.loadFieldMap profile targets rounding overflow).Decided s := by
  unfold State.loadFieldMap
  repeat' split
  all_goals simp [State.setProfile]

@[simp] theorem State.setClockTo_steady (value : Nat) : Steady s (s.setClockTo p value) := by
  unfold State.setClockTo
  simp only
  split <;> simp

@[simp] theorem State.setClock_decided (value : Nat) : (s.setClock p value).Decided s := by
  unfold State.setClock
  split <;> simp

@[simp] theorem State.fileInfo_decided (w q : Nat) : (s.fileInfo w q).Decided s := by
  unfold State.fileInfo
  repeat' split
  all_goals simp

@[simp] theorem State.listFiles_decided (selector firstDay lastDay : Nat) (states : Byte) (start count : Nat) :
    (s.listFiles selector firstDay lastDay states start count).Decided s := by
  unfold State.listFiles State.walkFiles
  repeat' split
  all_goals simp

@[simp] theorem State.segmentInfo_decided (n : Nat) : (s.segmentInfo n).Decided s := by
  unfold State.segmentInfo
  split <;> simp

end

/-! ## SET ROLES and SET PORT SETTINGS (R160, R161) -/

theorem State.roles_setPortSettings (s : State) (p q : PortId) (t : PortSettings) :
    (s.setPortSettings p t).roles q = if q = p then t.roles else s.roles q := by
  unfold State.roles
  split
  · next e =>
    subst e
    rw [State.setPortSettings_settings, getElem_set_fin]
  · next e => rw [State.setPortSettings_settings, getElem_set_fin_ne _ _ _ _ (Ne.symm e)]

/-- A role set is written only where a port goes on holding ADMIN, its own or another (R160, order 2). -/
theorem State.writeRoles_stations {s : State} {target : PortId} {roles : RoleSet}
    (h : s.adminRemains target roles = true) : StationsKept s (s.writeRoles target roles) where
  lines := rfl
  admin _ := by
    rcases (State.adminRemains_iff target roles).mp h with own | ⟨q, other, held⟩
    · exact ⟨target, by rw [State.writeRoles, State.roles_setPortSettings, if_pos rfl]; exact own⟩
    · exact ⟨q, by rw [State.writeRoles, State.roles_setPortSettings, if_neg other]; exact held⟩

theorem StationsKept.trans {s t u : State} (h : StationsKept s t) (k : StationsKept t u) : StationsKept s u :=
  ⟨k.lines.trans h.lines, k.admin ∘ h.admin⟩

@[simp] theorem State.setRoles_decided (s : State) (p : PortId) (target roles : Byte) :
    (s.setRoles p target roles).Decided s := by
  unfold State.setRoles
  split
  · next q r _ _ =>
    split
    · exact .refusal _
    · next h =>
      split
      · have recorded : Steady s (s.record .rolesChanged (some p) (.roles q r) 0) := ⟨rfl, rfl⟩
        have remains : (s.record .rolesChanged (some p) (.roles q r) 0).adminRemains q r = true := by
          show s.adminRemains q r = true
          simpa using h
        exact .ok _ ((recorded.stations.trans (State.writeRoles_stations remains)).trans
          (State.withdrawRoles_steady _ q r).stations)
      · exact .refusal _
  · exact .refusal _

@[simp] theorem State.setPortSettingsOf_decided (s : State) (target byteOrder streamTimeout cursorTimeout : Byte) :
    (s.setPortSettingsOf target byteOrder streamTimeout cursorTimeout).Decided s := by
  unfold State.setPortSettingsOf
  split
  · next q o _ _ =>
    refine .ok _ ⟨rfl, fun ⟨r, held⟩ => ⟨r, ?_⟩⟩
    rw [State.roles_setPortSettings]
    split
    · next e => rwa [e] at held
    · exact held
  · exact .refusal _

end Sys2Proof.Machine
end

section
/-! PROOFS. What an arriving request can bring. -/

open Sys2Proof Sys2Proof.Machine
namespace Sys2Proof.Machine

/-! ## What an arriving request brings (R154) -/

/-- All that a request arriving on a port can bring: its refusal with no other change; a reply that is no refusal,
formed in a state whose stations are kept; no reply, the request unheard or its entry left outstanding; or a module
reset. -/
inductive State.Brings (s : State) (p : PortId) (tag : Byte) : State → Prop
  | refused (status : Status) {entries : List Outstanding} (entry : entries = [] ∨ entries = [⟨tag, .answered⟩]) :
      Brings s p tag (s.form p tag status .empty entries)
  | answered {u : State} {status : Status} (body : ReplyBody) (entries : List Outstanding)
      (granted : status.isRefusal = false) (kept : StationsKept s u) : Brings s p tag (u.form p tag status body entries)
  | silent {t : State} (kept : StationsKept s t) (replies : t.replies = s.replies)
      (unsent : t.ports[p].unsent = s.ports[p].unsent) : Brings s p tag t
  | reset : Brings s p tag (s.moduleReset p tag)

section
variable {s : State} {p : PortId} {tag : Byte}

theorem State.refuse_brings (status : Status) : s.Brings p tag (s.refuse p tag status) := .refused status (.inr rfl)

theorem State.takeEntry_brings {t : State} (standing : Standing) (kept : Steady s t) (replies : t.replies = s.replies)
    (ports : t.ports = s.ports) : s.Brings p tag (t.takeEntry p tag standing) :=
  .silent (Steady.stations (by simpa using kept)) (by simpa using replies) (by simp [ports])

theorem Answer.Decided.brings {a : Answer} (h : a.Decided s) : s.Brings p tag (a.send p tag) := by
  cases h with
  | refusal status => exact State.refuse_brings status
  | ok body kept => exact .answered body _ rfl kept

theorem State.receive_brings (formOk always : Bool) {k : State → State} (h : s.Brings p tag (k s)) :
    s.Brings p tag (s.receive p tag formOk always k) := by
  rcases s.receive_cases p tag formOk always k with
    ⟨-, e⟩ | ⟨status, -, e⟩ | ⟨status, -, -, e⟩ | ⟨-, -, -, e⟩ <;> rw [e]
  · exact .silent (Steady.stations ⟨rfl, rfl⟩) rfl rfl
  · exact .refused status (.inl rfl)
  · exact State.refuse_brings status
  · exact h

theorem State.permit_brings (need : RoleSet → Bool) {k : State → State} (h : s.Brings p tag (k s)) :
    s.Brings p tag (s.permit p tag need k) := by
  unfold State.permit
  split
  · exact h
  · exact State.refuse_brings _

theorem State.request_brings (formOk : Bool) (need : RoleSet → Bool) {answer : State → Answer}
    (h : (answer s).Decided s) : s.Brings p tag (s.request p tag formOk need answer) :=
  State.receive_brings formOk false (State.permit_brings need h.brings)

theorem State.opening_brings {α : Type} (need : RoleSet → Bool) (ask : State → Except Status α)
    (request : α → OpeningRequest) {answer : α → State → Answer} (h : ∀ b, (answer b s).Decided s) :
    s.Brings p tag (s.opening p tag need ask request answer) := by
  refine State.receive_brings true false (State.permit_brings need ?_)
  split
  · exact State.refuse_brings _
  · next b _ =>
    split
    · exact (h b).brings
    · exact .silent (Steady.stations (by simp)) (by simp) (by simp)

theorem State.nameCursor_brings (cursor : Byte) (held : CursorId → Standing) {take : CursorId → State → State}
    (h : ∀ c, s.ownsCursor p c = true → s.Brings p tag (take c s)) :
    s.Brings p tag (s.nameCursor p tag cursor held take) := by
  unfold State.nameCursor
  split
  · exact State.permit_brings _ (State.refuse_brings _)
  · next c _ =>
    split
    · exact State.takeEntry_brings _ ⟨rfl, rfl⟩ rfl rfl
    · refine State.permit_brings _ ?_
      split
      · next owns => exact h c owns
      · exact State.refuse_brings _

/-! ### FETCH RECORDS (R137) -/

/-- Gathering ends with OK or END, which are no refusals. -/
theorem State.gather_granted {room : Nat} {u v : Cursor} {ds es : List Delivered} {status : Status}
    (h : s.gather room u ds = .finished status v es) : status.isRefusal = false := by
  induction room generalizing u ds with
  | zero =>
    cases h
    split <;> rfl
  | succ room ih =>
    unfold State.gather at h
    split at h
    · cases h
      rfl
    · cases h
    · split at h <;> exact ih h

theorem State.answer_brings {u : State} {status : Status} (body : ReplyBody) (granted : status.isRefusal = false)
    (kept : Steady s u) : s.Brings p tag (u.answer p tag status body) := by
  rcases u.answer_cases p tag status body with ⟨-, e⟩ | ⟨-, e⟩ <;> rw [e]
  · exact .answered body _ granted (Steady.stations (kept.trans (by simp)))
  · exact .answered body _ granted kept.stations

theorem State.answerFetch_brings {u : State} {c : CursorId} {q : Fetch} {status : Status} (skipped : Nat)
    (owner : u.cursors[c].owner = some p) (fetch : u.cursors[c].fetch = some q) (named : q.tag = tag)
    (granted : status.isRefusal = false) (kept : Steady s u) : s.Brings p tag (u.answerFetch c status skipped) := by
  subst named
  rcases State.answerFetch_cases status skipped owner fetch with ⟨-, e⟩ | ⟨-, e, -⟩ <;> rw [e]
  · exact State.answer_brings _ granted (kept.trans (by simp))
  · exact .answered _ _ granted (Steady.stations (kept.trans (by simp)))

theorem State.startStore_stays (s : State) : s.startStore.replies = s.replies ∧ s.startStore.ports = s.ports := by
  unfold State.startStore
  simp only
  repeat' split
  all_goals exact ⟨rfl, rfl⟩

/-- A fetch taken is answered at once, or its request waits on a read. -/
theorem State.takeFetch_brings {c : CursorId} (count : Nat) (owns : s.ownsCursor p c = true) :
    s.Brings p tag (s.takeFetch p tag c count).1 := by
  obtain ⟨-, owner⟩ := State.ownsCursor_iff.mp owns
  rw [State.takeFetch_eq count rfl]
  generalize hw : s.cursors[c].fetching tag (min count 64) = w
  generalize s.ports[p].outstanding ++ [⟨tag, .fetching c⟩] = os
  have fetch : w.fetch = some ⟨tag, min count 64, []⟩ := by
    subst hw
    rfl
  have moved := (s.withFetch p c w os).gather_moved (min count 64 - 0) w []
  cases gathered : (s.withFetch p c w os).gather (min count 64 - 0) w [] with
  | finished status v ds =>
    rw [gathered] at moved
    obtain ⟨_, _, _, _, rfl⟩ : w.Moved v := moved
    rw [State.serveFetch_finished fetch gathered]
    refine State.answerFetch_brings 0 ?_ (congrArg Cursor.fetch State.cursors_withFetch) rfl
      (State.gather_granted gathered) ?_
    · rw [State.cursors_withFetch]
      subst hw
      exact owner
    · simp [State.withFetch]
  | enter m v ds =>
    rw [State.serveFetch_enters fetch gathered]
    obtain ⟨replies, ports⟩ :=
      State.startStore_stays (s.readQueued p c { v with fetch := some ⟨tag, min count 64, ds⟩ } os m)
    refine .silent (Steady.stations ?_) replies ?_
    · simp [State.readQueued, State.withFetch]
    · rw [ports]
      simp [State.readQueued, State.withFetch]

/-! ### STEP SWEEP (R121) -/

theorem State.stepWalk_stays (s : State) (p : PortId) (tag : Byte) :
    (s.stepWalk p tag).1.replies = s.replies ∧ (s.stepWalk p tag).1.ports = s.ports := by
  unfold State.stepWalk
  simp only
  split
  · exact State.startStore_stays _
  · exact ⟨rfl, rfl⟩

theorem State.stepSweep_brings : s.Brings p tag (s.stepSweep p tag) := by
  have steady := s.stepWalk_steady p tag
  obtain ⟨replies, ports⟩ := s.stepWalk_stays p tag
  unfold State.stepSweep
  split
  · exact State.refuse_brings _
  · split
    · next e =>
      rw [e] at steady replies ports
      exact State.takeEntry_brings _ steady replies ports
    · next e =>
      rw [e] at steady
      exact .answered _ _ rfl steady.stations

/-! ### Every request -/

theorem exec_brings {i : Instr} {t : State} {kind : Byte} {body : List Byte}
    (hr : i.request = some (p, tag, kind, body)) (h : exec i s = .next t) : s.Brings p tag t := by
  cases i with
  | openFile | openCursor =>
    cases hr
    cases h
    exact State.opening_brings _ _ _ (by simp)
  | ingestChunk | resumeStream | abortStream | fetchFindings | fetchTrail | ackTrail | setSweepSettings | startSweep
  | stopSweep | restartSweep | loadClassEntries | loadFieldMap | setRetention | placeHold | releaseHold | expireNow
  | pauseExpiry | resumeExpiry | clearDispute | acceptLoss | setClock | setRoles | setPortSettings | fileInfo
  | listFiles | segmentInfo | fetchCompletions =>
    cases hr
    cases h
    exact State.request_brings _ _ (by simp)
  | fetchRecords =>
    cases hr
    cases h
    exact State.receive_brings _ _ (State.nameCursor_brings _ _ fun c owns => State.takeFetch_brings _ owns)
  | closeCursor =>
    cases hr
    cases h
    exact State.receive_brings _ _ (State.nameCursor_brings _ _ fun c _ =>
      .answered _ _ rfl (State.freeCursorOf_steady s c).stations)
  | stepSweep =>
    cases hr
    cases h
    exact State.receive_brings _ _ (State.permit_brings _ State.stepSweep_brings)
  | moduleReset =>
    cases hr
    cases h
    exact State.receive_brings _ _ (State.permit_brings _ .reset)
  | partStatus =>
    cases hr
    cases h
    exact State.receive_brings _ _ (Answer.Decided.brings (by simp))
  | _ => cases hr

end

end Sys2Proof.Machine
end

section
/-! PROOFS. No step loses the last ADMIN role: O7. -/

open Sys2Proof Sys2Proof.Machine
namespace Sys2Proof.Machine

/-! ## Some port holds ADMIN (R160) -/

theorem State.takeReset_admin {s : State} (h : s.adminHeld) : s.takeReset.adminHeld := by
  rw [State.takeReset_eq]
  split
  · exact h
  · exact ⟨0, rfl⟩

theorem State.Brings.admin {s t : State} {p : PortId} {tag : Byte} (brings : s.Brings p tag t) (h : s.adminHeld) :
    t.adminHeld := by
  cases brings with
  | refused => exact h
  | answered _ _ _ kept => exact kept.admin h
  | silent kept => exact kept.admin h
  | reset => exact State.takeReset_admin (s := { s with replies := _ }) h

theorem Steady.event {s : State} {f : State → State} (h : Steady s (f s)) : Steady s (s.event f) := by
  unfold State.event
  split
  · exact h
  · exact ⟨rfl, rfl⟩

theorem State.unknownFrame_brings (s : State) (p : PortId) (tag kind : Byte) (length : Wire16) (body : List Byte) :
    s.Brings p tag (s.unknownFrame p tag kind length body) := by
  have idle : s.Brings p tag s := .silent (Steady.stations ⟨rfl, rfl⟩) rfl rfl
  unfold State.unknownFrame
  split
  · exact idle
  · exact State.receive_brings _ _ idle

theorem State.writeReport_steady {s t : State} {effect : StreamId → Nat → State → State}
    (h : ∀ x n, Steady s (effect x n s)) (e : s.writeReport effect = .next t) : Steady s t := by
  unfold State.writeReport at e
  split at e
  · split at e
    · cases e
      exact ⟨rfl, rfl⟩
    split at e <;> cases e
    exact (h _ _).trans (State.endStore_steady _)
  · cases e
    exact ⟨rfl, rfl⟩

theorem execSweepReadComplete_steady {s t : State} {report : ReadReport}
    (e : execSweepReadComplete report s = .next t) : Steady s t := by
  unfold execSweepReadComplete at e
  split at e
  · split at e
    · cases e
      exact ⟨rfl, rfl⟩
    split at e <;> cases e
    simp
  · cases e
    exact ⟨rfl, rfl⟩

theorem execRetrievalReadComplete_steady {s t : State} {report : ReadReport}
    (e : execRetrievalReadComplete report s = .next t) : Steady s t := by
  unfold execRetrievalReadComplete at e
  split at e
  · split at e
    · cases e
      exact ⟨rfl, rfl⟩
    split at e <;> cases e
    simp
  · cases e
    exact ⟨rfl, rfl⟩

/-- A command that is no request keeps a port with ADMIN: it leaves the settings of the ports alone, or is a reset. -/
theorem exec_event_admin {c : Instr} {s t : State} (hc : c.request = none) (hs : s.adminHeld)
    (h : exec c s = .next t) : t.adminHeld := by
  have next {u : State} (hu : Steady s u)
      (e : (Host.Outcome.next u : Host.Outcome State Fault Refusal) = .next t) : t.adminHeld := by
    cases e
    exact hu.stations.admin hs
  have event {f : State → State} (hf : Steady s (f s)) := next (Steady.event hf)
  cases c with
  | unknownRequestFrame p tag kind length body =>
    cases h
    exact (s.unknownFrame_brings p tag kind length body).admin hs
  | damagedFrameDiscarded => exact next ⟨rfl, rfl⟩ h
  | linkLoss p =>
    refine event (f := fun s => s.linkLost p) ?_ h
    unfold State.linkLost
    split <;> simp [State.setLink]
  | linkReset p =>
    refine event (f := fun s => s.linkReset p) ?_ h
    unfold State.linkReset
    split <;> simp
  | linkEstablished p =>
    refine event (f := fun s => s.establish p) ?_ h
    unfold State.establish
    split <;> simp [State.setLink]
  | resetInputAsserted n =>
    refine event (f := fun s => s.holdReset n) ?_ h
    unfold State.holdReset
    split <;> exact ⟨rfl, rfl⟩
  | resetInputReleased =>
    cases h
    unfold State.event State.releaseReset
    split
    · split
      · exact State.takeReset_admin hs
      · exact hs
    · exact hs
  | powerOn =>
    cases h
    exact State.takeReset_admin hs
  | powerLoss => exact next (u := { s with powered := false }) ⟨rfl, rfl⟩ h
  | startupCleanup =>
    refine event (f := State.startupCleanup) ?_ h
    unfold State.startupCleanup
    split <;> simp
  | sweepRestExpiry =>
    refine event (f := State.restExpiry) ?_ h
    unfold State.restExpiry
    simp only
    split <;> exact ⟨rfl, rfl⟩
  | referencePulse | internalSecond | streamCountdownExpiry | cursorIdleExpiry | streamByte | blockedStreamResumed
  | completionWaitServed | encoderTakeHead | storeFullWaitRetry | imageWaitEnd | closeAcknowledgement
  | closingStreamTrailRetry | abortReached | sweepLook | sweepLogRoom | passVisit | passTrailRetry =>
    exact event (by simp) h
  | storeWriteComplete =>
    exact next (State.writeReport_steady (effect := fun x n s => s.writeDone x n) (by simp) h) rfl
  | storeWriteError left =>
    exact next (State.writeReport_steady (effect := fun x n s => s.writeFailed x n left) (by simp) h) rfl
  | sweepReadComplete => exact next (execSweepReadComplete_steady h) rfl
  | retrievalReadComplete => exact next (execRetrievalReadComplete_steady h) rfl
  | _ => cases hc

theorem exec_admin {c : Instr} {s t : State} (hs : s.adminHeld) (h : exec c s = .next t) : t.adminHeld := by
  cases hc : c.request with
  | none => exact exec_event_admin hc hs h
  | some request => exact (exec_brings hc h).admin hs

/-! ## Between commands (log entry 31) -/

section
variable (s : State) (p : PortId)

@[simp] theorem State.emptyLine_steady : Steady s (s.emptyLine p) := by simp [State.emptyLine]

theorem State.sendWaiting_steady : Steady s (s.sendWaiting p) :=
  (s.emptyLine_steady p).trans (Steady.foldl (fun t c => by simp [State.finishFetch]) _ _)

theorem State.runOn_steady (request : OpeningRequest) : Steady s (s.runOn p request) := by
  unfold State.runOn
  repeat' split
  all_goals simp

theorem Answer.Decided.stations {s : State} {a : Answer} (h : a.Decided s) : StationsKept s a.state := by
  cases h with
  | refusal => exact Steady.stations ⟨rfl, rfl⟩
  | ok _ kept => exact kept

theorem State.answerOpening_stations (o : Opening) : StationsKept s (s.answerOpening o) := by
  rcases s.answerOpening_cases o with ⟨tag, -, e⟩ | ⟨-, e⟩ <;> rw [e]
  · have decided : (s.openingAnswer o.port o.request).Decided s := by
      cases hr : o.request <;> simp [State.openingAnswer]
    exact decided.stations.trans (Steady.stations (State.answer_steady ..))
  · exact (s.runOn_steady o.port o.request).stations

theorem State.idle_stations : StationsKept s s.idle := by
  rcases s.idle_cases with e | ⟨p, -, e⟩ | ⟨o, rest, -, e⟩ <;> rw [e]
  · exact Steady.stations ⟨rfl, rfl⟩
  · exact (s.sendWaiting_steady p).stations
  · have taken : Steady s { s with openings := rest } := ⟨rfl, rfl⟩
    exact taken.stations.trans (State.answerOpening_stations _ o)

end

end Sys2Proof.Machine

/-- Settles O7: the blocks' own operations leave the settings of the ports alone, SET ROLES is refused where no port
would hold ADMIN, and the first-ever settings give it to every port. -/
theorem adminRoleNeverLost : Obligations.AdminRoleNeverLost := by
  intro s t held h
  unfold step at h
  split at h
  · cases h
    exact s.idle_stations.admin held
  · next rest _ => exact exec_admin (s := { s with pending := rest }) held h
end

section
/-! PROOFS. A refused request changes nothing but for its reply: O18. -/

open Sys2Proof Sys2Proof.Machine
namespace Sys2Proof.Machine

/-! ## A refusal changes nothing but for its reply (R154, log entry 31) -/

section
variable {s t u : State} {p : PortId} {tag : Byte} {status : Status} {body : ReplyBody} {entries : List Outstanding}
  {r : Reply}

theorem StationsKept.line (kept : StationsKept s u) : u.ports[p].lineBusy = s.ports[p].lineBusy :=
  congrFun kept.lines p

/-- The last of the replies that have left is the one formed last, on a free line. -/
theorem State.form_last_left {rs : List Reply} (free : u.ports[p].lineBusy = false)
    (left : (u.form p tag status body entries).replies = rs ++ [r]) :
    u.replies = rs ∧ r = ⟨p, tag, status, u.byteOrder p, body⟩ := by
  rw [State.form_free tag status body entries free] at left
  obtain ⟨same, last⟩ := List.append_inj' left rfl
  exact ⟨same, (List.singleton_inj.mp last).symm⟩

/-- The last of the replies that wait is the one formed last, on a busy line. -/
theorem State.form_last_unsent {rs : List Reply} (busy : u.ports[p].lineBusy = true)
    (waits : (u.form p tag status body entries).ports[p].unsent = rs ++ [r]) :
    u.ports[p].unsent = rs ∧ r = ⟨p, tag, status, u.byteOrder p, body⟩ := by
  rw [State.form_busy tag status body entries busy, State.setPort_ports, getElem_set_fin] at waits
  obtain ⟨same, last⟩ := List.append_inj' waits rfl
  exact ⟨same, (List.singleton_inj.mp last).symm⟩

theorem State.moduleReset_stays (s : State) (p : PortId) (tag : Byte) :
    (s.moduleReset p tag).replies = s.replies ++ [⟨p, tag, .ok, s.byteOrder p, .empty⟩]
      ∧ (s.moduleReset p tag).ports[p].unsent = [] := by
  rw [State.moduleReset, State.takeReset_eq]
  split <;> exact ⟨rfl, by simp [State.volatileReset, State.firstEver]⟩

/-- On a free line a refusal has left, and nothing else has changed. -/
theorem State.Brings.refusal_left (brings : s.Brings p tag t) (free : s.ports[p].lineBusy = false)
    (refusal : r.status.isRefusal = true) (left : t.replies = s.replies ++ [r]) :
    t = { s with replies := s.replies ++ [r] } ∧ r.port = p ∧ r.tag = tag ∧ r.body = .empty := by
  cases brings with
  | refused status =>
    obtain ⟨-, rfl⟩ := State.form_last_left free left
    exact ⟨State.form_free tag status .empty _ free, rfl, rfl, rfl⟩
  | answered body entries granted kept =>
    obtain ⟨-, rfl⟩ := State.form_last_left (kept.line.trans free) left
    exact absurd (granted.symm.trans refusal) nofun
  | silent _ replies => exact absurd (replies.symm.trans left) (by simp)
  | reset =>
    have last := left.symm.trans (s.moduleReset_stays p tag).1
    rw [List.singleton_inj.mp (List.append_cancel_left last)] at refusal
    cases refusal

/-- On a busy line a refusal waits, its request's entry answered if it took one, and nothing else has changed. -/
theorem State.Brings.refusal_waits (brings : s.Brings p tag t) (busy : s.ports[p].lineBusy = true)
    (refusal : r.status.isRefusal = true) (waits : t.ports[p].unsent = s.ports[p].unsent ++ [r]) :
    r.port = p ∧ r.tag = tag ∧ r.body = .empty
      ∧ ∃ entries : List Outstanding, (entries = [] ∨ entries = [⟨tag, .answered⟩])
        ∧ t = { s with
            ports := s.ports.set p
              { s.ports[p] with
                outstanding := s.ports[p].outstanding ++ entries, unsent := s.ports[p].unsent ++ [r] } } := by
  cases brings with
  | refused status entry =>
    obtain ⟨-, rfl⟩ := State.form_last_unsent busy waits
    exact ⟨rfl, rfl, rfl, _, entry, State.form_busy tag status .empty _ busy⟩
  | answered body entries granted kept =>
    obtain ⟨-, rfl⟩ := State.form_last_unsent (kept.line.trans busy) waits
    exact absurd (granted.symm.trans refusal) nofun
  | silent _ _ unsent => exact absurd (unsent.symm.trans waits) (by simp)
  | reset => exact absurd ((s.moduleReset_stays p tag).2.symm.trans waits) (by simp)

end

end Sys2Proof.Machine

/-- Settles O18: a request brings its refusal with no other change, or replies that are no refusals. -/
theorem refusedRequestChangesNothing : Obligations.RefusedRequestChangesNothing := by
  intro i s t p tag kind body r hr h refusal
  have brings := exec_brings hr h
  exact ⟨fun free left => brings.refusal_left free refusal left,
    fun busy waits => brings.refusal_waits busy refusal waits⟩
end

section
/-! PROOFS. The tests of an arriving frame: O16, O17. -/

open Sys2Proof Sys2Proof.Machine
namespace Sys2Proof.Machine

/-! ## The tests of an arriving frame (R154) -/

section
variable {s : State} {p : PortId} {tag : Byte} {formOk always : Bool} {k : State → State}

/-- On a port that hears nothing no frame arrives (log entry 17). -/
theorem State.receive_unheard (h : s.hears p = false) : s.receive p tag formOk always k = s := by
  simp only [State.receive, h, Bool.false_eq_true, if_false]

theorem State.receive_full (h : s.hears p = true) (full : 8 ≤ s.ports[p].outstanding.length) :
    s.receive p tag formOk always k = s.turnAway p tag .portBusy := by
  have bar : s.entryBar p tag = some .portBusy := if_pos full
  simp only [State.receive, h, bar, if_true]

theorem State.receive_tagInUse (h : s.hears p = true) (free : s.ports[p].outstanding.length < 8)
    (used : ∃ o ∈ s.ports[p].outstanding, o.tag = tag) :
    s.receive p tag formOk always k = s.turnAway p tag .badRequest := by
  have held : s.tagInUse p tag = true := by simpa [State.tagInUse] using used
  have bar : s.entryBar p tag = some .badRequest := by
    rw [State.entryBar, if_neg (Nat.not_le.mpr free), if_pos held]
  simp only [State.receive, h, bar, if_true]

/-- With an entry and the tag free, what bars the frame is refused, and takes the entry. -/
theorem State.receive_barred {status : Status} (h : s.hears p = true) (free : s.ports[p].outstanding.length < 8)
    (unused : ∀ o ∈ s.ports[p].outstanding, o.tag ≠ tag) (bar : s.frameBar formOk always = some status) :
    s.receive p tag formOk always k = s.refuse p tag status := by
  have entry := (s.entryBar_eq_none p tag).mpr ⟨free, unused⟩
  simp only [State.receive, h, entry, bar, if_true]

theorem State.frameBar_starting (h : s.controller = .starting ∨ s.resetLow = true) :
    s.frameBar true false = some .notReady := by
  have starting : s.isStarting = true := by simpa [State.isStarting] using h
  simp [State.frameBar, starting]

/-- No earlier request of the port names the cursor that this one names (R156). -/
def State.unnamed (s : State) (p : PortId) (tag : Byte) (i : Instr) : Prop :=
  ∀ o ∈ s.ports[p].outstanding, ∀ c, o.standing.cursor = some c →
    i ≠ .closeCursor p tag (BitVec.ofNat 8 c.val) ∧ ∀ count, i ≠ .fetchRecords p tag (BitVec.ofNat 8 c.val) count

theorem State.permit_refused {need : RoleSet → Bool} (h : need (s.roles p) = false) :
    s.permit p tag need k = s.refuse p tag .notPermitted := by
  simp only [State.permit, h, Bool.false_eq_true, if_false]

theorem ofNat_of_readIndex {cursor : Byte} {c : CursorId} (h : readIndex 16 cursor = some c) :
    BitVec.ofNat 8 c.val = cursor := by
  unfold readIndex at h
  split at h <;> cases h
  rw [BitVec.ofNat_toNat, BitVec.setWidth_eq]

theorem State.nameCursor_notPermitted {cursor : Byte} {held : CursorId → Standing} {take : CursorId → State → State}
    (h : (s.roles p).retrieve = false)
    (free : ∀ o ∈ s.ports[p].outstanding, ∀ c, o.standing.cursor = some c → BitVec.ofNat 8 c.val ≠ cursor) :
    s.nameCursor p tag cursor held take = s.refuse p tag .notPermitted := by
  unfold State.nameCursor
  split
  · exact State.permit_refused h
  · next c hc =>
    have idle : ¬s.cursorBusy p c = true := fun busy => by
      obtain ⟨o, ho, names⟩ := State.cursorBusy_iff.mp busy
      exact free o ho c names (ofNat_of_readIndex hc)
    rw [if_neg idle, State.permit_refused h]

/-- Every well-formed request of the table arrives as a frame that passes the form test, PART STATUS in every controller
state, and goes on to a role test, or one that names a cursor to be held (R154, R156). -/
theorem exec_arrives {i : Instr} {kind : Byte} {body : List Byte} (hr : i.request = some (p, tag, kind, body))
    (wf : i.wf = true) (s : State) :
    ∃ always k, exec i s = .next (s.receive p tag true always k) ∧ (always = true → i = .partStatus p tag)
      ∧ (roleNeeded i (s.roles p) = false → s.unnamed p tag i → k s = s.refuse p tag .notPermitted) := by
  cases i with
  | openFile | openCursor | resumeStream | abortStream | fetchFindings | fetchTrail | ackTrail | setSweepSettings
  | startSweep | stopSweep | stepSweep | restartSweep | setRetention | releaseHold | expireNow | pauseExpiry
  | resumeExpiry | clearDispute | acceptLoss | setClock | setRoles | setPortSettings | moduleReset | fileInfo
  | listFiles | segmentInfo | fetchCompletions =>
    cases hr
    exact ⟨false, _, rfl, nofun, fun hn _ => State.permit_refused hn⟩
  | ingestChunk | loadClassEntries | loadFieldMap | placeHold =>
    cases hr
    exact ⟨false, _, congrArg (fun formed => Host.Outcome.next (s.request p tag formed _ _)) wf, nofun,
      fun hn _ => State.permit_refused hn⟩
  | fetchRecords p' t' cursor count =>
    cases hr
    refine ⟨false, _, rfl, nofun, fun hn free => State.nameCursor_notPermitted hn fun o ho c names e => ?_⟩
    exact (free o ho c names).2 count (by rw [e])
  | closeCursor p' t' cursor =>
    cases hr
    refine ⟨false, _, rfl, nofun, fun hn free => State.nameCursor_notPermitted hn fun o ho c names e => ?_⟩
    exact (free o ho c names).1 (by rw [e])
  | partStatus =>
    cases hr
    exact ⟨true, _, rfl, fun _ => rfl, nofun⟩
  | _ => cases hr

end

end Sys2Proof.Machine

/-- Settles O16: every request of the table arrives as a frame, to which the tests apply in their order. -/
theorem arrivalTestsInOrder : Obligations.ArrivalTestsInOrder := by
  refine ⟨fun i s p tag kind body hr wf => ?_, fun s p tag status body => ⟨fun free => ?_, fun busy => ?_⟩⟩
  · obtain ⟨always, k, arrives, status, role⟩ := exec_arrives hr wf s
    rw [arrives]
    refine ⟨fun deaf => ?_, fun hears full => ?_, fun hears room used => ?_, fun hears room unused starting other => ?_,
      fun ha hn unnamed => ?_⟩
    · rw [State.receive_unheard deaf]
    · rw [State.receive_full hears full]
    · rw [State.receive_tagInUse hears room used]
    · cases always with
      | true => exact absurd (status rfl) other
      | false => rw [State.receive_barred hears room unused (State.frameBar_starting starting)]
    · cases always with
      | true =>
        rw [status rfl] at hn
        cases hn
      | false => rw [State.receive_admitted k ha, role hn unnamed]
  · refine ⟨State.form_free tag status body _ free, fun empty => ?_⟩
    subst empty
    exact ⟨State.form_free tag status .empty _ free, State.form_free tag status .empty _ free⟩
  · refine ⟨State.form_busy tag status body _ busy, fun empty => ?_⟩
    subst empty
    exact ⟨State.form_busy tag status .empty _ busy, State.form_busy tag status .empty _ busy⟩

/-- Settles O17: a frame that fails the form test meets the tests of a request; one that passes it, or is damaged, meets
none. -/
theorem unknownAndDamagedFrames : Obligations.UnknownAndDamagedFrames := by
  refine ⟨fun s p tag kind length body => ?_, fun s p frame => rfl⟩
  have unknown (bad : frameFormOk kind (wire16 (s.byteOrder p) length) body = false) :
      exec (.unknownRequestFrame p tag kind length body) s = .next (s.receive p tag false false (fun s => s)) :=
    congrArg Host.Outcome.next (if_neg (by rw [bad]; decide))
  refine ⟨fun hears room bad => ⟨fun unused => ?_, fun used => ?_⟩, fun hears full bad => ?_, fun good => ?_⟩
  · rw [unknown bad, State.receive_barred hears room unused rfl]
  · rw [unknown bad, State.receive_tagInUse hears room used]
  · rw [unknown bad, State.receive_full hears full]
  · exact congrArg Host.Outcome.next (if_pos good)
end

section
/-! PROOFS. The step with no command waiting, and the attention lines: O1, O59. -/

open Sys2Proof Sys2Proof.Machine
namespace Sys2Proof.Machine

/-! ## The step with no command waiting (log entry 31) -/

section
variable {s : State} {p : PortId}

theorem step_idle (h : s.pending = []) : step s = .next s.idle := by rw [step, h]

/-- The lowest port that holds waiting replies sends them. -/
theorem State.idle_sends (on : s.powered = true) (waits : s.ports[p].unsent ≠ [])
    (lowest : ∀ q : PortId, q < p → s.ports[q].unsent = []) : s.idle = s.sendWaiting p := by
  have found : (List.finRange 4).find? (fun q : PortId => decide (s.ports[q].unsent ≠ [])) = some p := by
    refine List.find?_eq_some_iff_getElem.mpr ⟨decide_eq_true waits, p.val, by simp, by simp, fun j hj => ?_⟩
    rw [List.getElem_finRange]
    simpa using lowest ⟨j, by omega⟩ hj
  unfold State.idle
  rw [if_neg (by simp [on]), found]

theorem State.idle_rests (none : ∀ q : PortId, s.ports[q].unsent = []) (unasked : s.openings = []) : s.idle = s := by
  have found : (List.finRange 4).find? (fun q : PortId => decide (s.ports[q].unsent ≠ [])) = Option.none :=
    List.find?_eq_none.mpr fun q _ => by simpa using none q
  unfold State.idle
  split
  · rfl
  · rw [found, unasked]

theorem Standing.formed_iff {standing : Standing} (h : ∀ c, standing ≠ .delivering c) :
    standing.formed = decide (standing = .answered) := by
  cases standing with
  | delivering c => exact absurd rfl (h c)
  | _ => rfl

/-- With no fetch among the answered requests, the replies leave and the answered entries are freed. -/
theorem State.sendWaiting_eq (unfetched : ∀ o ∈ s.ports[p].outstanding, ∀ c, o.standing ≠ .delivering c) :
    s.sendWaiting p = { s with
      replies := s.replies ++ s.ports[p].unsent
      ports := s.ports.set p
        { s.ports[p] with
          outstanding := s.ports[p].outstanding.filter (fun o => o.standing ≠ .answered), unsent := [] } } := by
  have freed : s.ports[p].outstanding.filter (fun o => !o.standing.formed)
      = s.ports[p].outstanding.filter (fun o => o.standing ≠ .answered) :=
    List.filter_congr fun o ho => by rw [Standing.formed_iff (unfetched o ho), decide_not]
  rw [State.sendWaiting_plain unfetched, State.emptyLine, freed]
  rfl

end

end Sys2Proof.Machine

/-- Settles O1: with no command waiting the step is the idle one, which looks for the lowest port with waiting replies
first. -/
theorem stepRunsFrontCommand : Obligations.StepRunsFrontCommand := by
  refine ⟨fun c rest s => rfl, fun s empty => ?_⟩
  rw [step_idle empty]
  refine ⟨fun p on waits lowest unfetched => ?_, fun _ none unasked => ?_, fun off => ?_⟩
  · rw [State.idle_sends on waits lowest, State.sendWaiting_eq unfetched]
  · rw [State.idle_rests none unasked]
  · rw [State.idle, off]
    rfl

/-- Settles O59: each condition is one disjunct of the line's. -/
theorem attentionFollowsConditions : Obligations.AttentionFollowsConditions := by
  intro s p on
  have posted : (s.completionsOf p).isEmpty = false ↔ ∃ e ∈ s.completions, e.port = p := by
    simp [State.completionsOf, List.isEmpty_eq_false_iff, List.filter_eq_nil_iff]
  have alarmed : s.alarms.any = true ↔ Runs.toList s.freeList = [] ∨ s.clock.state = .unset
      ∨ s.clock.state = .holdover ∨ s.clock.atLimit = true := by
    simp [Alarms.any, State.alarms, s.freeListEmpty_iff, or_assoc]
  simp only [State.attention, on, Bool.true_and, Bool.or_eq_true, Bool.and_eq_true, Bool.not_eq_true', posted, alarmed,
    List.isEmpty_eq_false_iff, or_assoc]
end

section
/-! PROOFS. Frames written and read: O12, O13. -/

open Sys2Proof Sys2Proof.Machine
namespace Sys2Proof

/-! ## The length field (R155, R168) -/

/-- The two bytes of a length in a byte order read back as that length. -/
theorem exists_wire16 (o : ByteOrder) {n : Nat} (h : n < 65536) :
    ∃ w : Wire16, orderedBytes o 2 n = w.bytes ∧ wire16 o w = n := by
  have bytes : beBytes 2 n = [BitVec.ofNat 8 (n / 256), BitVec.ofNat 8 n] := by simp [beBytes]
  cases o with
  | big =>
    refine ⟨⟨BitVec.ofNat 8 (n / 256), BitVec.ofNat 8 n⟩, bytes, ?_⟩
    simp only [wire16, BitVec.toNat_ofNat]
    omega
  | little =>
    refine ⟨⟨BitVec.ofNat 8 n, BitVec.ofNat 8 (n / 256)⟩, congrArg List.reverse bytes, ?_⟩
    simp only [wire16, BitVec.toNat_ofNat]
    omega

/-! ## Class entries of four bytes -/

theorem readWireEntries_bytes (es : List WireClassEntry) :
    readWireEntries (es.flatMap WireClassEntry.bytes) = some es := by
  induction es with
  | nil => rfl
  | cons e es ih =>
    show (readWireEntries (es.flatMap WireClassEntry.bytes)).map _ = _
    rw [ih]
    rfl

theorem length_of_readWireEntries {es : List WireClassEntry} {bytes : List Byte}
    (h : readWireEntries bytes = some es) : bytes.length = 4 * es.length := by
  induction bytes using readWireEntries.induct generalizing es with
  | case1 =>
    cases h
    rfl
  | case2 a b c d rest ih =>
    obtain ⟨fs, hf, rfl⟩ := Option.map_eq_some_iff.mp h
    simp only [List.length_cons, ih hf]
    omega
  | case3 bytes none short => simp [readWireEntries] at h

theorem exists_readWireEntries {bytes : List Byte} (h : bytes.length % 4 = 0) :
    ∃ es, readWireEntries bytes = some es := by
  induction bytes using readWireEntries.induct with
  | case1 => exact ⟨[], rfl⟩
  | case2 a b c d rest ih =>
    simp only [List.length_cons] at h
    obtain ⟨es, hes⟩ := ih (by omega)
    exact ⟨_, congrArg (Option.map _) hes⟩
  | case3 bytes empty long =>
    match bytes with
    | [] => exact absurd rfl empty
    | [_] | [_, _] | [_, _, _] => simp at h
    | a :: b :: c :: d :: rest => exact absurd rfl (long a b c d rest)

/-- A frame with a header is read by its length field and its body (R168). -/
theorem readFrame_cons (o : ByteOrder) (p : PortId) (tag kind : Byte) (w : Wire16) (body : List Byte) :
    readFrame o p (tag :: kind :: w.first :: w.second :: body)
      = if wire16 o w = body.length then (readBody p tag kind body).getD (.unknownRequestFrame p tag kind w body)
        else .unknownRequestFrame p tag kind w body := rfl

/-! ## Bodies (12.2) -/

/-- A body of a fixed length is spelled by its bytes, so that a form of that length matches it. -/
theorem exists_ofFn {n : Nat} {bytes : List Byte} (h : bytes.length = n) : ∃ f : Fin n → Byte, bytes = List.ofFn f := by
  subst h
  exact ⟨bytes.get, (List.ofFn_get bytes).symm⟩

/-- The body written for a well-formed request reads back as that request. -/
theorem readBody_request {i : Instr} {p : PortId} {tag kind : Byte} {body : List Byte}
    (hr : i.request = some (p, tag, kind, body)) (wf : i.wf = true) : readBody p tag kind body = some i := by
  cases i with
  | ingestChunk _ _ x f m chunk =>
    cases hr
    exact if_pos (of_decide_eq_true wf)
  | loadClassEntries _ _ f m b n entries =>
    cases hr
    show (match readWireEntries (entries.flatMap WireClassEntry.bytes) with | some es => _ | none => _) = _
    rw [readWireEntries_bytes]
    exact if_pos (of_decide_eq_true wf)
  | loadFieldMap _ _ f targets r k =>
    cases hr
    have length : targets.length = 16 := of_decide_eq_true wf
    show readMapBody p tag f (targets ++ [r, k]) = _
    rw [readMapBody, List.drop_left' length, List.take_left' length]
  | placeHold _ _ w a b present size label =>
    cases hr
    exact if_pos (of_decide_eq_true wf)
  | _ => cases hr <;> rfl

/-- What a body spells is a request, and the body has a length its kind allows. -/
theorem request_of_readBody {i : Instr} {p : PortId} {tag kind : Byte} {body : List Byte}
    (h : readBody p tag kind body = some i) :
    i.request.isSome = true ∧ bodyLengthOk kind.toNat body.length = true := by
  unfold readBody at h
  generalize kind.toNat = k at h ⊢
  split at h
  case h_2 => -- INGEST CHUNK
    split at h
    · split at h <;> cases h
      next few => exact ⟨rfl, by simp [bodyLengthOk]; omega⟩
    · cases h
  case h_16 => -- LOAD CLASS ENTRIES
    split at h
    · split at h
      · next found =>
        have length := length_of_readWireEntries found
        split at h <;> cases h
        next few => exact ⟨rfl, by simp [bodyLengthOk]; omega⟩
      · cases h
    · cases h
  case h_17 => -- LOAD FIELD MAP
    split at h
    · unfold readMapBody at h
      split at h <;> cases h
      next rest _ _ found =>
        have length := congrArg List.length found
        exact ⟨rfl, by simp [bodyLengthOk] at length ⊢; omega⟩
    · cases h
  case h_19 => -- PLACE HOLD
    split at h
    · split at h <;> cases h
      next length => exact ⟨rfl, by simp [bodyLengthOk, length]⟩
    · cases h
  case h_35 => cases h -- no kind of the table
  all_goals
    split at h <;> cases h
    exact ⟨rfl, rfl⟩

/-- A body of a length its kind allows spells a request. -/
theorem readBody_of_lengthOk {kind : Byte} {body : List Byte} (p : PortId) (tag : Byte)
    (h : bodyLengthOk kind.toNat body.length = true) : ∃ i, readBody p tag kind body = some i := by
  unfold bodyLengthOk at h
  unfold readBody
  generalize kind.toNat = k at h ⊢
  split at h
  case h_2 => -- INGEST CHUNK
    obtain ⟨least, most⟩ := of_decide_eq_true h
    match body with
    | x :: f :: m :: chunk =>
      simp only [List.length_cons] at most
      exact ⟨_, if_pos (by omega)⟩
    | [] | [_] | [_, _] => simp at least
  case h_16 => -- LOAD CLASS ENTRIES
    obtain ⟨least, most, fours⟩ := of_decide_eq_true h
    match body with
    | f :: m :: b :: x :: y :: rest =>
      simp only [List.length_cons] at least most fours
      obtain ⟨es, found⟩ := exists_readWireEntries (bytes := rest) (by omega)
      have length := length_of_readWireEntries found
      refine ⟨.loadClassEntries p tag f m b ⟨x, y⟩ es, ?_⟩
      simp only [found]
      exact if_pos ⟨by omega, by omega⟩
    | [] | [_] | [_, _] | [_, _, _] | [_, _, _, _] => simp at least
  case h_35 => cases h -- no kind of the table
  all_goals
    obtain ⟨f, rfl⟩ := exists_ofFn (of_decide_eq_true h)
    exact ⟨_, rfl⟩

theorem bodyLengthOk_le {k n : Nat} (h : bodyLengthOk k n = true) : n ≤ 16387 := by
  unfold bodyLengthOk at h
  split at h
  case h_35 => cases h -- no kind of the table
  all_goals
    have := of_decide_eq_true h
    omega

end Sys2Proof

/-- Settles O12: a request's length fits its two bytes in either order, and its body reads back as the request. -/
theorem frameRoundTrip : Obligations.FrameRoundTrip := by
  intro o i p tag kind body frame wf hr hw
  have reads := readBody_request hr wf
  obtain ⟨w, bytes, value⟩ := exists_wire16 o (n := body.length)
    (Nat.lt_of_le_of_lt (bodyLengthOk_le (request_of_readBody reads).2) (by decide))
  rw [writeFrame, hr] at hw
  cases hw
  have frame : [tag, kind] ++ orderedBytes o 2 body.length ++ body = tag :: kind :: w.first :: w.second :: body := by
    rw [bytes]
    rfl
  show readFrame o p ([tag, kind] ++ orderedBytes o 2 body.length ++ body) = i
  rw [frame, readFrame_cons, if_pos value, reads]
  rfl

/-- Settles O13: a frame whose length field agrees spells a request exactly when its kind allows the length. -/
theorem formTestFollowsTable : Obligations.FormTestFollowsTable := by
  intro o p tag kind x y body
  rw [readFrame_cons o p tag kind ⟨x, y⟩ body, frameFormOk, Bool.and_eq_false_iff, decide_eq_false_iff_not]
  by_cases agrees : wire16 o ⟨x, y⟩ = body.length
  · rw [if_pos agrees]
    cases spelled : readBody p tag kind body with
    | none =>
      refine iff_of_true rfl (.inr (Bool.eq_false_iff.mpr fun allowed => ?_))
      obtain ⟨i, hi⟩ := readBody_of_lengthOk p tag allowed
      exact absurd (hi.symm.trans spelled) nofun
    | some i =>
      obtain ⟨request, allowed⟩ := request_of_readBody spelled
      refine iff_of_false (fun (same : i = _) => ?_) (by simp [agrees, allowed])
      rw [same] at request
      cases request
  · rw [if_neg agrees]
    exact iff_of_true rfl (.inl agrees)
end
